-- ==== Sys2Proof/Word.lean ====
section
/-! DEFINITION. The words of the WL-9640: bytes, lane words, block registers, key handles and frame counts (00_scope.md R6). -/

namespace Sys2Proof

/-- One byte. -/
abbrev Byte := BitVec 8

/-- A lane's general register, a pointer, a control register (03_geing_architecture.md R88, R97). -/
abbrev Word := BitVec 64

/-- A block register of 16 bytes; byte i is bits [8i + 7:8i] (R89). -/
abbrev Blk := BitVec 128

/-- A 32-bit register of a register map (00_scope.md R7). -/
abbrev Reg32 := BitVec 32

/-- A 256-bit digest or key value. -/
abbrev Dig := BitVec 256

/-- A string of bytes in address order. -/
abbrev Bytes := List Byte

/-- A key handle (07_quarry_keys.md R252). -/
abbrev Handle := BitVec 64

/-- A lane number (R85). -/
abbrev LaneId := Fin 64

/-- A general register number (R88). -/
abbrev GReg := Fin 32

/-- A block register number (R89). -/
abbrev VReg := Fin 16

/-- A key register number (R90). -/
abbrev KReg := Fin 8

/-- A counter register number (R91). -/
abbrev CReg := Fin 4

/-- A sparse table: key and value pairs. -/
abbrev Table (α : Type) := List (Nat × α)

end Sys2Proof
end

