-- ==== Sys2Proof/Syntax.lean ====
section
/-! DEFINITION. The commands the unit takes, one constructor per row of opcode_table.json, with the operands the spec gives them. -/

namespace Sys2Proof

/-- A job descriptor, fields as Table 02-1 (02_jobs_and_queues.md R52); reserved fields are carried so that R8 can be checked. -/
structure Descriptor where
  program : BitVec 16
  flags : BitVec 16
  seq : BitVec 32
  key0 : Handle
  key1 : Handle
  src : Word
  dst : Word
  length : BitVec 40
  padMode : BitVec 8
  priority : BitVec 16
  deadline : BitVec 24
  rsv33 : BitVec 8
  stepBudget : BitVec 24
  rsv37 : BitVec 8
  arg : Word
deriving DecidableEq, Repr

/-- Who sent a mailbox request: a function (its instance number) or a custodian port (13_links.md R504). -/
inductive Src where
  | fn (n : Nat)
  | port (c : Fin 2)
deriving DecidableEq, Repr

/-- A share record (08_instances.md Table 08-2). `rsv` is the union of its reserved bits. -/
structure Share where
  jobSlots : Nat
  sessions : Nat
  qpairs : Nat
  vectors : Nat
  pmcUser : Bool
  personality : Nat
  ksSlots : Nat
  mins : List Nat
  maxs : List Nat
  rsv : Bool
deriving DecidableEq, Repr

/-- A key-creation record (07_quarry_keys.md Table 07-8A); `rsv` is the union of its reserved bits. -/
structure Creation where
  parent : Handle
  ktype : BitVec 8
  labelLen : Nat
  usage : BitVec 16
  policy : BitVec 16
  uses : Nat
  bind : Nat
  label : Bytes
  rsv : Bool
deriving DecidableEq, Repr

/-- A wrapped record as it arrives: the KWP ciphertext (R287). -/
abbrev Wrapped := Bytes

/-- One signature entry of a token (Table 07-16). -/
structure SigEntry where
  index : Nat
  alg : Nat
  sig : Bytes
deriving DecidableEq, Repr

/-- An authorisation token (Table 07-16). -/
structure Token where
  magic : BitVec 32
  opcode : BitVec 16
  cls : Nat
  epoch : Nat
  challenge : BitVec 128
  opDigest : Dig
  sigs : List SigEntry
  rsv : Bool
deriving DecidableEq, Repr

/-- A vendor block: key slot, public key and signature (11_lifecycle_and_tamper.md R434). -/
structure VendorBlock where
  slot : Nat
  pub : Bytes
  sig : Bytes
  rsv : Bool
deriving DecidableEq, Repr

/-- A program header (04_geing_engine_instructions.md Table 04-16). -/
structure Header where
  magic : BitVec 32
  program : BitVec 16
  version : BitVec 16
  hollow : Bool
  personality : BitVec 2
  windowKib : Nat
  block : Nat
  entry : Nat
  imageLen : Nat
  constLen : Nat
  lenMin : Nat
  lenMax : Nat
  padModes : BitVec 16
  outFree : Bool
  decrypt : Bool
  cs3 : Bool
  res : Bool
  argFix : Nat
  argVar : Nat
  argMax : Nat
  resOff : Nat
  resLen : Nat
  resources : BitVec 5
  key0Spec : Word
  key1Spec : Word
  argRsv : BitVec 128
  rsv : Bool
deriving DecidableEq, Repr

/-- An owner program as PROG_LOAD carries it: header, image and constants, then the signature block (R175, R177). -/
structure ProgImage where
  file : Bytes
deriving DecidableEq, Repr

/-- A field entry of a record map (Table 08-13). -/
structure MapField where
  offset : Nat
  length : Nat
  enc : Nat
  role : Nat
  macData : Bool
  rsv : Bool
deriving DecidableEq, Repr

/-- A record map (Table 08-12). -/
structure RecMap where
  magic : BitVec 32
  mapId : Nat
  charset : Nat
  recLen : Nat
  ops : BitVec 5
  macAlg : Nat
  macLen : Nat
  pinIn : Nat
  pinOut : Nat
  macKey1 : Bool
  key0 : Handle
  key1 : Handle
  fields : List MapField
  rsv : Bool
deriving DecidableEq, Repr

/-- A firmware image as it arrives: header, body and trailer (R427). -/
structure FwImage where
  file : Bytes
deriving DecidableEq, Repr

/-- A commissioning record (Table 11-5). -/
structure CommRecord where
  magic : BitVec 32
  n : Nat
  q3 : Nat
  q4 : Nat
  ockAlg : Nat
  inputEn : BitVec 8
  polarity : BitVec 8
  meshEn : BitVec 2
  ock : Bytes
  custodians : List (Nat × Bytes)
  rsv : Bool
deriving DecidableEq, Repr

/-- A debug certificate's 64-byte body (Table 11-8). -/
structure DebugCert where
  body : Bytes
deriving DecidableEq, Repr

/-- An owner certificate of an attestation tree (R422). -/
structure OwnerCert where
  epoch : Nat
  tree : Nat
  alg : Nat
  pub : Bytes
  sig : Bytes
  rsv : Bool
deriving DecidableEq, Repr

/-- A target statement (08_instances.md R320). -/
structure TargetStatement where
  encapKey : Bytes
  epoch : Nat
  frame : Nat
  sig : Bytes
  rsv : Bool
deriving DecidableEq, Repr

/-- A SAK as an MKPDU distributes it: AN, whether the unit transmits under it, the wrapped key, the SSCIs of the sender and of the unit, the salt (R206, R485). -/
structure SakMsg where
  an : Nat
  tx : Bool
  wrapped : Bytes
  ssci : BitVec 32
  own : BitVec 32
  salt : BitVec 96
deriving DecidableEq, Repr

/-- One region register (Table 09-3) as REGION_SET carries it. -/
structure Region where
  en : Bool
  lock : Bool
  read : Bool
  write : Bool
  exec : Bool
  atomic : Bool
  world : BitVec 2
  cls : BitVec 8
  paged : Bool
  tagged : Bool
  base : BitVec 28
  limit : BitVec 28
deriving DecidableEq, Repr

/-- A page owner table entry (Table 09-5). -/
structure PageOwner where
  world : BitVec 2
  inst : Nat
  read : Bool
  write : Bool
  exec : Bool
  atomic : Bool
  user : Bool
  dma : Bool
  defColour : BitVec 4
  tagged : Bool
  anyInst : Bool
  kind : Nat
deriving DecidableEq, Repr

/-- A protection rule (Table 09-7). -/
structure Rule where
  en : Bool
  read : Bool
  write : Bool
  exec : Bool
  atomic : Bool
  user : Bool
  base : BitVec 28
  limit : BitVec 28
deriving DecidableEq, Repr

/-- A context of the protection unit (Table 09-6): a world and instance, a kernel world, a control core or a service master. -/
inductive Ctxt where
  | user (hollow : Bool) (inst : Nat)
  | kernel (hollow : Bool)
  | core (hollow : Bool) (priv : Bool)
  | service (master : Nat)
deriving DecidableEq, Repr

/-- What a host read of a DMA mover brought (R477, R60, R176). -/
inductive HostRead where
  | source (bytes : Bytes)
  | arg (bytes : Bytes)
  | sgl (dest : Bool) (index : Nat) (addr : Word) (len : Nat) (last chain rsv : Bool)
  | failed (which : BitVec 2) (timeout : Bool)
deriving DecidableEq, Repr

/-- What a descriptor fetch brought (R63). -/
inductive FetchRes where
  | got (ds : List Descriptor)
  | failed (timeout : Bool)
deriving DecidableEq, Repr

/-- The kinds of element (12_strata_counters_test.md Table 12-11). -/
inductive ElemKind where
  | core | keccak | sha2 | drbg | entropy | pke | deriv | protector | mover | lane | macsec
deriving DecidableEq, Repr

/-- A performance counter's name (Table 12-8). -/
inductive CounterId where
  | lane (n : LaneId) (k : Fin 8)
  | glob (g : Fin 64)
  | inst (i : Nat) (c : Fin 16)
deriving DecidableEq, Repr

/-- A reservation entry of an exchange: a block of uses or of invocations of a node (R265, R228). -/
structure Reserve where
  inst : Nat
  node : Nat
  gen : Nat
  uses : Bool
  block : Nat
deriving DecidableEq, Repr

/-- What a checkpoint exchange frame carries (10_twin_and_passes.md Table 10-2). -/
structure Exchange where
  frame : Nat
  digest : Dig
  confirm : Option Nat
  refuse : Option Nat
  heartbeat : Bool
  silent : Bool
  reservations : List Reserve
  xDigests : List (Nat × Dig)
  xAborts : List Nat
  xMismatch : List Nat
  doorbells : List (Nat × Nat × BitVec 16)
  cancels : List (Nat × Nat × BitVec 32)
deriving DecidableEq, Repr

/-- An admission record of a checkpoint body, or a finish record with the completion entry (Table 10-3); `ringIndex` is the submission index of the one, the completion index of the other. -/
structure CkptJob where
  slot : Nat
  inst : Nat
  q : Nat
  ringIndex : Nat
  desc : Descriptor
  admitted : Nat
  invs : List (Handle × List Nat)
  finished : Option Bytes
deriving DecidableEq, Repr

/-- A repeat-class call of a cross-checked unit: its call record and its input record (R219, R240). -/
structure CkptCall where
  slot : Nat
  inst : Nat
  op : BitVec 16
  key : Option Handle
  chained : Option Bytes
  inputs : List Bytes
  seed : Option Bytes
deriving DecidableEq, Repr

/-- What the check of a public-key operation finds (R236, R238): agreement, a failed check, an uncorrectable memory error. -/
inductive PkeCheck where
  | good | failed | memory
deriving DecidableEq, Repr

/-- A frame of the twin link beside its payload: SEQ, frame number at sending, FIRST and LAST, TAG (Table 13-11). -/
structure LinkFrame where
  seq : Nat
  frame : Nat
  first : Bool := true
  last : Bool := true
  tag : BitVec 128
deriving DecidableEq, Repr

/-- A part of a checkpoint body as it arrives (Table 10-3, Table 13-11): commit, reply and session records as their bytes with the instance they name, call records' seeds by job slot, input records, admission and finish records, a progress record; `held` names the job slots that hold an operand region or have an operation outstanding (log 142). -/
structure BodyPart where
  frame : Nat
  digest : Dig
  prevDigest : Dig
  commits : List (Nat × Bytes)
  replies : List (Nat × Bytes)
  sessions : List Bytes
  seeds : List (Nat × Bytes)
  calls : List CkptCall
  jobs : List CkptJob
  progress : Option (Nat × Bytes)
  held : List Nat
  entries : Nat
deriving DecidableEq, Repr

/-- A journal entry (07_quarry_keys.md Table 07-13) with its body as the engine reads it. -/
structure JEntry where
  seq : Nat
  frame : Nat
  inst : Nat
  kind : Nat
  part : Nat
  node : Nat
  body : Bytes
  tag : BitVec 128
  chain : BitVec 128
deriving DecidableEq, Repr

/-- Where a datagram comes from or goes to: link-layer address, IPv6 address, UDP port (R483). -/
structure NetAddr where
  mac : BitVec 48
  addr : BitVec 128
  port : BitVec 16
deriving DecidableEq, Repr

/-- A Nernaosh datagram header (13_links.md Table 13-8) with its payload. -/
structure Datagram where
  peer : NetAddr
  version : Nat
  first : Bool
  last : Bool
  inst : Nat
  session : BitVec 32
  seq : Nat
  ack : Nat
  msg : Nat
  offset : Nat
  window : Nat
  rsv : Bool
  payload : Bytes
  tag : BitVec 128
deriving DecidableEq, Repr

/-- What every mailbox request carries beside its body (Table 08-5): its source, its TAG, and whether any reserved bit of the message is set (R8). -/
structure Req where
  src : Src
  tag : BitVec 16
  rsv : Bool
deriving DecidableEq, Repr

/-- A register a debugger names on a halted lane; key registers are never readable (R358). -/
inductive DebugReg where
  | g (n : GReg)
  | v (n : VReg)
  | pc
deriving DecidableEq, Repr

/-- What a debugger asks through an enabled right (R358, Table 09-14). -/
inductive DebugOp where
  | haltLane (l : LaneId)
  | stepLane (l : LaneId)
  | resumeLane (l : LaneId)
  | haltCore (core : Nat)
  | stepCore (core : Nat)
  | resumeCore (core : Nat)
  | readReg (l : LaneId) (r : DebugReg)
  | writeReg (l : LaneId) (r : DebugReg) (value : Blk)
  | readLane (l : LaneId) (addr : Word)
  | writeLane (l : LaneId) (addr value : Word)
  | readCore (core : Nat) (addr : Nat)
  | writeCore (core : Nat) (addr : Nat) (value : Word)
deriving DecidableEq, Repr

/-- A command: one constructor per row of opcode_table.json, named after its mnemonic. -/
inductive Instr where
  /-- FRAME_START (R16): Cycle 0 of a frame: the frame number increments and doorbells, cancels, mailbox tails and the thermal sample are latched. -/
  | frameStart (tj : Int)
  /-- THERMAL_FALLBACK (R42): The 100th consecutive reading at or below the current level's entry temperature less 2 °C drops the planner one level. -/
  | thermalFallback
  /-- ALIGN_WARN (R46): A follower offset beyond ±50 ns for 16 consecutive frames records event 0x1002 and sets FRM_STAT.ALIGN_WARN. -/
  | alignWarn
  /-- FRAME_SYNC_IN_EDGE (R45): A rising FRAME_SYNC edge from the partner is captured; the follower steers its clock to it and the leader takes it as the partner's sign of life. -/
  | frameSyncInEdge (offset : Int)
  /-- STAGED_COMMIT (R31): In cycles 1 to 31, every staged change commits in the order of R33, squashing, draining or holding earlier work by its mode. -/
  | stagedCommit
  /-- RESERVATION_COMMIT (R265): A requested invocation or use block, logged in MRAM and acknowledged by the partner, commits at frame N + 2 and waiting jobs become RUNNABLE. -/
  | reservationCommit (inst node : Nat)
  /-- GRANT_COMPUTE (R39): In cycles 32 to 63 the planner computes each instance's grants per resource from measured demand, lending spare capacity in rotating order. -/
  | grantCompute
  /-- ADMISSION (R23): In cycles 64 to 191 latched descriptors and network requests are admitted in two passes, checked by rank and given their reservations. -/
  | admission
  /-- SLICE_ARBITRATION (R134): In cycles 192 to 239 runnable jobs are placed on lane slots, PKE engines assigned and key-schedule loads started. -/
  | sliceArbitration
  /-- SLICE_START (R133): A granted slot begins: the register banks swap and the incoming job issues its first instruction. -/
  | sliceStart (l : LaneId)
  /-- SLICE_END (R20): A slice reaches the end of its last slot and the job is preempted, its context kept in the lane. -/
  | sliceEnd (l : LaneId)
  /-- TAIL_START (R17): At cycle 11,200 lanes stop issuing, running slices are preempted and the engine snapshot is latched. -/
  | tailStart
  /-- STEP_LIMIT (R80): A job not FINISHED at cycle 11,200 of the last frame of its step budget is squashed with STEP_LIMIT. -/
  | stepLimit
  /-- DEADLINE_REACHED (R37): At the tail of its deadline frame an unreleased job gets the DEADLINE_MISSED flag, or is squashed if it asked to be or waits for the Hollow. -/
  | deadlineReached
  /-- CARRY_BLOCK_REQUESTS (R188): At cycle 11,372 block requests still undispatched become carried requests and event 0x5002 is recorded. -/
  | carryBlockRequests
  /-- CONTEXT_SAVE (R136): In cycles 11,380 to 11,559 the register bank of every job that ran is written to its context record and a copy latched. -/
  | contextSave
  /-- CHECKPOINT_SEAL (R29): In cycles 11,560 to 11,639 the frame's checkpoint record is sealed and its digest computed. -/
  | checkpointSeal
  /-- TWIN_EXCHANGE (R29): In cycles 11,640 to 11,799 the digest is sent, the previous checkpoint confirmed or refused and the heartbeat exchanged. -/
  | twinExchange
  /-- COMPLETION_RELEASE (R74): In cycles 11,800 to 11,919 due completions, replies and notices are written and MSI-X messages sent. -/
  | completionRelease
  /-- STRATA_FLUSH (R452): At cycle 11,920 up to 256 gathered event records pass to MRAM and counter snapshots are latched. -/
  | strataFlush
  /-- STALL_START (R47): A completion ring full with its head unchanged for 100,000 frames marks the instance STALLED. -/
  | stallStart (inst : Nat) (q : Fin 4)
  /-- STALL_END (R48): In the frame after the host advances the completion head, the instance leaves STALLED and admission resumes. -/
  | stallEnd (inst : Nat) (q : Fin 4)
  /-- MBX_TIMEOUT (R309): An MGR_MSG unanswered by frame L + 999 completes with MBX_TIMEOUT. -/
  | mbxTimeout (forward : Nat)
  /-- ENGINE_TIMEOUT (R47): An engine request not complete in 2 frames fences the element and reissues the request, or makes the unit fail-silent or halt with no sibling. -/
  | engineTimeout (elem : Fin 158)
  /-- PKE_MICROSTEP_WATCHDOG (R47): A PKE micro-step not complete in 8,192 cycles fences the engine and restarts the operation once elsewhere. -/
  | pkeMicrostepWatchdog (e : Fin 16)
  /-- FENCE_LATE (R354): An old-epoch access outstanding at cycle 11,199 is discarded, its element fenced and the fence completed. -/
  | fenceLate (master : Nat)
  /-- HOLLOW_WATCHDOG_EXPIRY (R360): The Hollow watchdog unserved for 500 frames starts a Hollow restart at the next cycle 0. -/
  | hollowWatchdogExpiry
  /-- HOLLOW_RESTART_COMPLETE (R360): The reloaded Hollow image is measured; a match releases the cores, otherwise the Hollow halts. -/
  | hollowRestartComplete (image : FwImage)
  /-- ADD (R114): gD = gA + gB modulo 2^64. -/
  | add (l : LaneId) (d a b : GReg)
  /-- SUB (R114): gD = gA − gB. -/
  | sub (l : LaneId) (d a b : GReg)
  /-- AND (R114): Bitwise and of gA and gB. -/
  | and (l : LaneId) (d a b : GReg)
  /-- OR (R114): Bitwise or of gA and gB. -/
  | or (l : LaneId) (d a b : GReg)
  /-- XOR (R114): Bitwise exclusive or of gA and gB. -/
  | xor (l : LaneId) (d a b : GReg)
  /-- ANDN (R114): gD = gA and not gB. -/
  | andn (l : LaneId) (d a b : GReg)
  /-- SLL (R114): Logical shift left by gB [5:0]. -/
  | sll (l : LaneId) (d a b : GReg)
  /-- SRL (R114): Logical shift right by gB [5:0]. -/
  | srl (l : LaneId) (d a b : GReg)
  /-- SRA (R114): Arithmetic shift right by gB [5:0]. -/
  | sra (l : LaneId) (d a b : GReg)
  /-- ROR (R114): Rotate right by gB [5:0]. -/
  | ror (l : LaneId) (d a b : GReg)
  /-- SLT (R114): gD = 1 if gA < gB signed, else 0. -/
  | slt (l : LaneId) (d a b : GReg)
  /-- SLTU (R114): gD = 1 if gA < gB unsigned, else 0. -/
  | sltu (l : LaneId) (d a b : GReg)
  /-- MIN (R114): Signed minimum of gA and gB. -/
  | min (l : LaneId) (d a b : GReg)
  /-- MAX (R114): Signed maximum of gA and gB. -/
  | max (l : LaneId) (d a b : GReg)
  /-- MINU (R114): Unsigned minimum of gA and gB. -/
  | minu (l : LaneId) (d a b : GReg)
  /-- MAXU (R114): Unsigned maximum of gA and gB. -/
  | maxu (l : LaneId) (d a b : GReg)
  /-- SEL (R114): gD = gA if gD is not 0, else gB, in constant time. -/
  | sel (l : LaneId) (d a b : GReg)
  /-- MUL (R114): Low 64 bits of the product. -/
  | mul (l : LaneId) (d a b : GReg)
  /-- MULH (R114): High 64 bits of the signed product. -/
  | mulh (l : LaneId) (d a b : GReg)
  /-- MULHU (R114): High 64 bits of the unsigned product. -/
  | mulhu (l : LaneId) (d a b : GReg)
  /-- DIV (R115): Signed quotient rounded toward zero, never trapping. -/
  | div (l : LaneId) (d a b : GReg)
  /-- DIVU (R115): Unsigned quotient, never trapping. -/
  | divu (l : LaneId) (d a b : GReg)
  /-- REM (R115): Signed remainder with the sign of gA. -/
  | rem (l : LaneId) (d a b : GReg)
  /-- REMU (R115): Unsigned remainder. -/
  | remu (l : LaneId) (d a b : GReg)
  /-- CLZ (R114): Leading zero count of gA. -/
  | clz (l : LaneId) (d a : GReg)
  /-- CTZ (R114): Trailing zero count of gA. -/
  | ctz (l : LaneId) (d a : GReg)
  /-- POPC (R114): Number of 1 bits of gA. -/
  | popc (l : LaneId) (d a : GReg)
  /-- BSWAP (R114): Reverse the 8 bytes of gA. -/
  | bswap (l : LaneId) (d a : GReg)
  /-- ADDI (R116): gD = gA + sign-extended immediate. -/
  | addi (l : LaneId) (d a : GReg) (imm : BitVec 16)
  /-- ANDI (R116): gD = gA and zero-extended immediate. -/
  | andi (l : LaneId) (d a : GReg) (imm : BitVec 16)
  /-- ORI (R116): gD = gA or zero-extended immediate. -/
  | ori (l : LaneId) (d a : GReg) (imm : BitVec 16)
  /-- XORI (R116): gD = gA xor zero-extended immediate. -/
  | xori (l : LaneId) (d a : GReg) (imm : BitVec 16)
  /-- SLTI (R116): Signed compare with the sign-extended immediate. -/
  | slti (l : LaneId) (d a : GReg) (imm : BitVec 16)
  /-- SLTIU (R116): Unsigned compare with the sign-extended immediate. -/
  | sltiu (l : LaneId) (d a : GReg) (imm : BitVec 16)
  /-- SLLI (R116): Logical shift left by an immediate amount. -/
  | slli (l : LaneId) (d a : GReg) (n : BitVec 6)
  /-- SRLI (R116): Logical shift right by an immediate amount. -/
  | srli (l : LaneId) (d a : GReg) (n : BitVec 6)
  /-- SRAI (R116): Arithmetic shift right by an immediate amount. -/
  | srai (l : LaneId) (d a : GReg) (n : BitVec 6)
  /-- RORI (R116): Rotate right by an immediate amount. -/
  | rori (l : LaneId) (d a : GReg) (n : BitVec 6)
  /-- QSET (R116): gD = immediate placed in quarter q, other quarters zero. -/
  | qset (l : LaneId) (d : GReg) (imm : BitVec 16) (q : BitVec 2)
  /-- QINS (R116): Quarter q of gD set to the immediate, other quarters kept. -/
  | qins (l : LaneId) (d : GReg) (imm : BitVec 16) (q : BitVec 2)
  /-- LB (R117): Load 1 byte zero-extended. -/
  | lb (l : LaneId) (d a : GReg) (imm : BitVec 16)
  /-- LH (R117): Load 2 bytes zero-extended. -/
  | lh (l : LaneId) (d a : GReg) (imm : BitVec 16)
  /-- LW (R117): Load 4 bytes zero-extended. -/
  | lw (l : LaneId) (d a : GReg) (imm : BitVec 16)
  /-- LD (R117): Load 8 bytes. -/
  | ld (l : LaneId) (d a : GReg) (imm : BitVec 16)
  /-- LBS (R117): Load 1 byte sign-extended. -/
  | lbs (l : LaneId) (d a : GReg) (imm : BitVec 16)
  /-- LHS (R117): Load 2 bytes sign-extended. -/
  | lhs (l : LaneId) (d a : GReg) (imm : BitVec 16)
  /-- LWS (R117): Load 4 bytes sign-extended. -/
  | lws (l : LaneId) (d a : GReg) (imm : BitVec 16)
  /-- SB (R117): Store the low byte of gD. -/
  | sb (l : LaneId) (d a : GReg) (imm : BitVec 16)
  /-- SH (R117): Store the low 2 bytes of gD. -/
  | sh (l : LaneId) (d a : GReg) (imm : BitVec 16)
  /-- SW (R117): Store the low 4 bytes of gD. -/
  | sw (l : LaneId) (d a : GReg) (imm : BitVec 16)
  /-- SD (R117): Store the 8 bytes of gD. -/
  | sd (l : LaneId) (d a : GReg) (imm : BitVec 16)
  /-- LV (R117): Load 16 bytes into a block register. -/
  | lv (l : LaneId) (d : VReg) (a : GReg) (imm : BitVec 16)
  /-- SV (R117): Store 16 bytes of a block register. -/
  | sv (l : LaneId) (d : VReg) (a : GReg) (imm : BitVec 16)
  /-- ATM_ADD (R118): Atomic add, returning the old value. -/
  | atmAdd (l : LaneId) (d b a : GReg)
  /-- ATM_SWAP (R118): Atomic swap, returning the old value. -/
  | atmSwap (l : LaneId) (d b a : GReg)
  /-- ATM_AND (R118): Atomic and, returning the old value. -/
  | atmAnd (l : LaneId) (d b a : GReg)
  /-- ATM_OR (R118): Atomic or, returning the old value. -/
  | atmOr (l : LaneId) (d b a : GReg)
  /-- ATM_XOR (R118): Atomic exclusive or, returning the old value. -/
  | atmXor (l : LaneId) (d b a : GReg)
  /-- ATM_CMPX (R118): Atomic compare and exchange. -/
  | atmCmpx (l : LaneId) (d b a : GReg)
  /-- TAGR (R118): Reads a granule's colour without a colour check. -/
  | tagr (l : LaneId) (d a : GReg)
  /-- TAGW (R118): Recolours a granule when the pointer carries its present colour and CMASK allows the new one. -/
  | tagw (l : LaneId) (b a : GReg)
  /-- PCSET (R118): gD = gA with its colour field replaced. -/
  | pcset (l : LaneId) (d a : GReg) (c : BitVec 4)
  /-- PCGET (R118): gD = colour field of gA. -/
  | pcget (l : LaneId) (d a : GReg)
  /-- JEQ (R119): Branch if equal. -/
  | jeq (l : LaneId) (a b : GReg) (off : BitVec 16)
  /-- JNE (R119): Branch if unequal. -/
  | jne (l : LaneId) (a b : GReg) (off : BitVec 16)
  /-- JLT (R119): Branch if signed less. -/
  | jlt (l : LaneId) (a b : GReg) (off : BitVec 16)
  /-- JGE (R119): Branch if signed greater or equal. -/
  | jge (l : LaneId) (a b : GReg) (off : BitVec 16)
  /-- JLO (R119): Branch if unsigned lower. -/
  | jlo (l : LaneId) (a b : GReg) (off : BitVec 16)
  /-- JHS (R119): Branch if unsigned higher or same. -/
  | jhs (l : LaneId) (a b : GReg) (off : BitVec 16)
  /-- CALL (R119): PC-relative call writing the link to gD. -/
  | call (l : LaneId) (d : GReg) (off : BitVec 21)
  /-- CALLR (R119): Register-indirect call writing the link to gD. -/
  | callr (l : LaneId) (d a : GReg) (imm : BitVec 16)
  /-- VMOV (R120): vD = vA. -/
  | vmov (l : LaneId) (d a : VReg)
  /-- VXOR (R120): 128-bit exclusive or. -/
  | vxor (l : LaneId) (d a b : VReg)
  /-- VAND (R120): 128-bit and. -/
  | vand (l : LaneId) (d a b : VReg)
  /-- VOR (R120): 128-bit or. -/
  | vor (l : LaneId) (d a b : VReg)
  /-- VANDN (R120): 128-bit and-not. -/
  | vandn (l : LaneId) (d a b : VReg)
  /-- VZERO (R120): vD = 0. -/
  | vzero (l : LaneId) (d : VReg)
  /-- VBSWAP (R120): Reverses the 16 bytes of vA. -/
  | vbswap (l : LaneId) (d a : VReg)
  /-- VINS (R120): Inserts gA into the low or high half of vD. -/
  | vins (l : LaneId) (d : VReg) (a : GReg) (hi : Bool)
  /-- VEXT (R120): Extracts the low or high half of vA. -/
  | vext (l : LaneId) (d : GReg) (a : VReg) (hi : Bool)
  /-- VEQ (R120): Constant-time 16-byte equality. -/
  | veq (l : LaneId) (d : GReg) (a b : VReg)
  /-- KMOV (R121): Copies one key register to another. -/
  | kmov (l : LaneId) (d a : KReg)
  /-- KCLR (R121): Empties a key register. -/
  | kclr (l : LaneId) (d : KReg)
  /-- KINF (R121): Returns a key register's handle type and occupancy. -/
  | kinf (l : LaneId) (d : GReg) (a : KReg)
  /-- CRR (R92): Reads a control register, trapping on unknown or K-only numbers at U. -/
  | crr (l : LaneId) (d : GReg) (n : BitVec 12)
  /-- CRW (R92): Writes a control register at K level. -/
  | crw (l : LaneId) (n : BitVec 12) (a : GReg)
  /-- JEND (R130): A write to JEND ends the running job with the written status. -/
  | jend (l : LaneId) (a : GReg)
  /-- KCALL (R122): Traps with cause 0x10; an immediate other than 0 ends the job with ACCESS_FAULT. -/
  | kcall (l : LaneId) (imm : BitVec 16)
  /-- END (R130): KCALL 0 ends the job with the status in g1 after stream ports finish and PKE work is aborted. -/
  | endJob (l : LaneId)
  /-- KRET (R122): Returns from K to the level in KSTAT.PL, applying WINB. -/
  | kret (l : LaneId)
  /-- FENCE (R123): Orders memory, engine, stream-out or instruction fetch as its mask bits select. -/
  | fence (l : LaneId) (mask : BitVec 4)
  /-- TLBFL (R122): Flushes TLB entries of the lane, an ASID or a page. -/
  | tlbfl (l : LaneId) (d : GReg) (mode : BitVec 2)
  /-- DSTOP (R132): Stops the lane for a debugger when invasive debug is enabled, else ends the job with ACCESS_FAULT. -/
  | dstop (l : LaneId) (imm : BitVec 16)
  /-- BLK_ENC (R142): Issues a raw block encryption to the cipher scheduler. -/
  | blkEnc (l : LaneId) (d a : VReg) (k : KReg)
  /-- BLK_DEC (R142): Issues a raw block decryption to the cipher scheduler. -/
  | blkDec (l : LaneId) (d a : VReg) (k : KReg)
  /-- BLK_ENC_CTR (R142): Steps a guarded counter and issues encryption of the counter block. -/
  | blkEncCtr (l : LaneId) (d : VReg) (c : CReg) (k : KReg)
  /-- BLK_ENC_T (R144): Issues an encryption under the tweak half of an XTS key. -/
  | blkEncT (l : LaneId) (d a : VReg) (k : KReg)
  /-- WAITB (R142): Waits until the lane has at most n block requests outstanding. -/
  | waitb (l : LaneId) (n : BitVec 5)
  /-- BLOCK_DISPATCH (R185): In each dispatch cycle the scheduler passes the highest-ranked eligible requests to available cores, charging cipher credit. -/
  | blockDispatch (cycle : Nat)
  /-- BLOCK_RESULT (R180): A core writes a block result 8 cycles after accepting it, reissuing on a parity error. -/
  | blockResult (core : Fin 20) (parityErr : Bool)
  /-- KEY_SCHEDULE_LOADED (R183): A key-schedule entry finishes loading and expansion and its waiting requests become eligible. -/
  | keyScheduleLoaded (hollow : Bool) (inst node version : Nat) (tweak : Bool)
  /-- DERIVATION_DONE (R250): A derivation pipeline finishes a level and passes the key to the cut cache and its consumer. -/
  | derivationDone (hollow : Bool) (inst node version : Nat)
  /-- CLMUL_LL (R145): Carry-less product of the low halves. -/
  | clmulLl (l : LaneId) (d a b : VReg)
  /-- CLMUL_LH (R145): Carry-less product of the low half of vA and high half of vB. -/
  | clmulLh (l : LaneId) (d a b : VReg)
  /-- CLMUL_HL (R145): Carry-less product of the high half of vA and low half of vB. -/
  | clmulHl (l : LaneId) (d a b : VReg)
  /-- CLMUL_HH (R145): Carry-less product of the high halves. -/
  | clmulHh (l : LaneId) (d a b : VReg)
  /-- GFMUL (R145): Multiplication in GF(2^128). -/
  | gfmul (l : LaneId) (d a b : VReg)
  /-- GFMAC (R145): vD = (vD xor vA) · vB in GF(2^128). -/
  | gfmac (l : LaneId) (d a b : VReg)
  /-- XTSMUL (R145): Multiplication by α in the IEEE 1619 order. -/
  | xtsmul (l : LaneId) (d a : VReg)
  /-- CTR_SET (R147): Sets an unarmed counter's value. -/
  | ctrSet (l : LaneId) (c : CReg) (a : VReg)
  /-- CTR_LIM (R148): Arms a counter with a limit and width, or lowers an armed limit. -/
  | ctrLim (l : LaneId) (c : CReg) (a b : GReg)
  /-- CTR_NEXT (R148): Delivers the counter value and advances or marks it SPENT. -/
  | ctrNext (l : LaneId) (d : VReg) (c : CReg)
  /-- CTR_GET (R147): Reads the counter value. -/
  | ctrGet (l : LaneId) (d : VReg) (c : CReg)
  /-- CTR_REM (R147): Returns the values the counter may still deliver. -/
  | ctrRem (l : LaneId) (d : GReg) (c : CReg)
  /-- CTR_INV (R149): Returns an invocation number reserved at admission. -/
  | ctrInv (l : LaneId) (d : GReg) (k : KReg) (b : GReg)
  /-- SI_PULL (R152): Pulls the next block from an input port. -/
  | siPull (l : LaneId) (d : VReg) (n : BitVec 2)
  /-- SI_PULLG (R152): Pulls the next 8 bytes from an input port. -/
  | siPullg (l : LaneId) (d : GReg) (n : BitVec 2)
  /-- SI_REM (R152): Returns the bytes an input port still has to deliver. -/
  | siRem (l : LaneId) (d : GReg) (n : BitVec 2)
  /-- SO_PUSH (R152): Pushes one block to an output port. -/
  | soPush (l : LaneId) (a : VReg) (n : BitVec 2)
  /-- SO_PUSHG (R152): Pushes 8 bytes to an output port. -/
  | soPushg (l : LaneId) (a : GReg) (n : BitVec 2)
  /-- STX_E (R152): XORs the next input block with vA, pushes and returns the result. -/
  | stxE (l : LaneId) (d a : VReg) (n : BitVec 2)
  /-- STX_D (R152): XORs the next input block with vA, pushes the result and returns the input. -/
  | stxD (l : LaneId) (d a : VReg) (n : BitVec 2)
  /-- SO_CNT (R152): Returns the bytes accepted on an output port. -/
  | soCnt (l : LaneId) (d : GReg) (n : BitVec 2)
  /-- SO_FIN (R155): Ends output on a port, writing held blocks and checking padding in constant time. -/
  | soFin (l : LaneId) (n : BitVec 2)
  /-- SO_TAG (R152): Posts bytes of vA as the completion TAG and sets TAG_VALID. -/
  | soTag (l : LaneId) (n : BitVec 2) (a : VReg) (b : GReg)
  /-- HOST_READ_COMPLETION (R477): A DMA mover's host read returns data, or fails and ends the job with ACCESS_FAULT. -/
  | hostReadCompletion (slot : Nat) (r : HostRead)
  /-- HSH_INIT (R157): Opens a hash context of the chosen algorithm. -/
  | hshInit (l : LaneId) (d a : GReg)
  /-- HSH_KINIT (R194): Opens a keyed context, loading its key before the first request. -/
  | hshKinit (l : LaneId) (d a : GReg) (k : KReg)
  /-- HSH_ABS (R158): Queues an absorb of window bytes. -/
  | hshAbs (l : LaneId) (d a b : GReg)
  /-- HSH_ABSP (R158): Queues an absorb of bytes from an input port. -/
  | hshAbsp (l : LaneId) (d a b : GReg)
  /-- HSH_SQZ (R158): Queues a squeeze into the window. -/
  | hshSqz (l : LaneId) (d a b : GReg)
  /-- HSH_WAIT (R161): Continues when the context's requests are done, else ends the slice and waits. -/
  | hshWait (l : LaneId) (a : GReg)
  /-- HSH_FREE (R158): Closes a context, zeroing any key. -/
  | hshFree (l : LaneId) (a : GReg)
  /-- HASH_CHUNK_DONE (R195): A hash engine finishes a chunk and the next chunk is dispatched by waiting time and credit. -/
  | hashChunkDone (engine : Fin 16)
  /-- DRBG_CALL_DONE (R202): A DRBG generate call of at most 4,096 bytes completes for a squeeze. -/
  | drbgCallDone (i : Fin 8)
  /-- SEED_CONDITIONED (R200): 1,536 raw bits of one source are conditioned by SHA3-384 into a seed for the pool. -/
  | seedConditioned (source : Fin 4) (raw : BitVec 1536)
  /-- DRBG_RESEED (R201): A DRBG instance reseeds from the pool every 1,000 frames, every 65,536 calls or before prediction resistance. -/
  | drbgReseed (i : Fin 8)
  /-- ENTROPY_TEST_FAIL (R199): A source fails a continuous health test, is fenced and its window's bits are discarded. -/
  | entropyTestFail (source : Fin 4) (proportion : Bool) (failures : Nat)
  /-- PKE_CALL (R215): Checks the call block and queues the call in the instance's call queue. -/
  | pkeCall (l : LaneId) (d a : GReg)
  /-- PKE_WAIT (R160): Returns the operation's status if complete, else ends the slice and waits. -/
  | pkeWait (l : LaneId) (d : GReg)
  /-- PKE_ABORT (R162): Aborts the outstanding operation unless its completion was already latched. -/
  | pkeAbort (l : LaneId) (d : GReg)
  /-- PKE_ABORT_COMPLETE (R241): An aborted engine has stopped and zeroed the job's region and signals abort-complete. -/
  | pkeAbortComplete (job : Nat)
  /-- PKE_FREE (R211): Housekeeping operation that clears the job's operand region. -/
  | pkeFree (e : Fin 16)
  /-- PKE_STAGE (R214): Stages inputs as retained operands S0 to S5. -/
  | pkeStage (e : Fin 16)
  /-- PKE_NONCE (R227): Writes seed-derived randomness shared by both twins. -/
  | pkeNonce (e : Fin 16)
  /-- MODMUL (R222): Modular multiplication. -/
  | modmul (e : Fin 16)
  /-- MODADD (R222): Modular addition. -/
  | modadd (e : Fin 16)
  /-- MODSUB (R222): Modular subtraction. -/
  | modsub (e : Fin 16)
  /-- MODEXP (R222): Constant-time modular exponentiation. -/
  | modexp (e : Fin 16)
  /-- MODEXP_PUB (R222): Modular exponentiation with a public exponent. -/
  | modexpPub (e : Fin 16)
  /-- MODINV (R222): Modular inverse. -/
  | modinv (e : Fin 16)
  /-- RSA_SIGN (R222): RSA private-key signature with verify-before-release. -/
  | rsaSign (e : Fin 16)
  /-- RSA_VERIFY (R222): RSA signature verification. -/
  | rsaVerify (e : Fin 16)
  /-- RSA_DECRYPT (R222): RSA decryption with repeat-and-compare. -/
  | rsaDecrypt (e : Fin 16)
  /-- RSA_ENCRYPT (R222): RSA encryption. -/
  | rsaEncrypt (e : Fin 16)
  /-- RSA_KEYGEN (R222): RSA key generation. -/
  | rsaKeygen (e : Fin 16)
  /-- ECDSA_SIGN (R222): ECDSA signature with verify-before-release. -/
  | ecdsaSign (e : Fin 16)
  /-- ECDSA_VERIFY (R222): ECDSA verification. -/
  | ecdsaVerify (e : Fin 16)
  /-- ECDH (R222): Elliptic-curve key agreement. -/
  | ecdh (e : Fin 16)
  /-- EC_KEYGEN (R222): Weierstrass key generation. -/
  | ecKeygen (e : Fin 16)
  /-- VALIDATE (R222): Public point validation. -/
  | validate (e : Fin 16)
  /-- EDDSA_SIGN (R222): EdDSA signature. -/
  | eddsaSign (e : Fin 16)
  /-- EDDSA_VERIFY (R222): EdDSA verification. -/
  | eddsaVerify (e : Fin 16)
  /-- XDH (R222): X25519 or X448 key agreement. -/
  | xdh (e : Fin 16)
  /-- EDDSA_KEYGEN (R222): EdDSA key generation. -/
  | eddsaKeygen (e : Fin 16)
  /-- XDH_KEYGEN (R222): XDH key generation. -/
  | xdhKeygen (e : Fin 16)
  /-- ML_KEM_KEYGEN (R222): ML-KEM key generation. -/
  | mlKemKeygen (e : Fin 16)
  /-- ML_KEM_ENCAPS (R222): ML-KEM encapsulation. -/
  | mlKemEncaps (e : Fin 16)
  /-- ML_KEM_DECAPS (R222): ML-KEM decapsulation. -/
  | mlKemDecaps (e : Fin 16)
  /-- ML_DSA_KEYGEN (R222): ML-DSA key generation. -/
  | mlDsaKeygen (e : Fin 16)
  /-- ML_DSA_SIGN (R222): ML-DSA signing with an iteration limit. -/
  | mlDsaSign (e : Fin 16)
  /-- ML_DSA_VERIFY (R222): ML-DSA verification. -/
  | mlDsaVerify (e : Fin 16)
  /-- XMSS_KEYGEN (R222): XMSS key generation. -/
  | xmssKeygen (e : Fin 16)
  /-- XMSS_SIGN (R228): XMSS signature using a reserved leaf index. -/
  | xmssSign (e : Fin 16)
  /-- XMSS_VERIFY (R222): XMSS verification. -/
  | xmssVerify (e : Fin 16)
  /-- SLH_DSA_VERIFY (R222): SLH-DSA verification. -/
  | slhDsaVerify (e : Fin 16)
  /-- XCHECK_REPEAT_START (R239): The partner starts a cross-check repeat at cycle 240 of the frame after it confirms the call's checkpoint. -/
  | xcheckRepeatStart (job : Nat)
  /-- DLD (R164): Loads 1 to 16 window bytes at any alignment, right-aligned. -/
  | dld (l : LaneId) (d : VReg) (a b : GReg)
  /-- DSTB (R164): Stores the rightmost bytes of vD to the window. -/
  | dstb (l : LaneId) (d : VReg) (a b : GReg)
  /-- DADD (R164): Signed packed decimal sum. -/
  | dadd (l : LaneId) (d a b : VReg)
  /-- DSUB (R164): Signed packed decimal difference. -/
  | dsub (l : LaneId) (d a b : VReg)
  /-- DCMP (R164): Compares two signed packed values. -/
  | dcmp (l : LaneId) (d : GReg) (a b : VReg)
  /-- DPACK_E (R164): EBCDIC zoned to signed packed. -/
  | dpackE (l : LaneId) (d a : VReg)
  /-- DPACK_A (R164): ASCII zoned to signed packed. -/
  | dpackA (l : LaneId) (d a : VReg)
  /-- DPACK_EU (R164): EBCDIC digits to unsigned packed. -/
  | dpackEu (l : LaneId) (d a : VReg)
  /-- DPACK_AU (R164): ASCII digits to unsigned packed. -/
  | dpackAu (l : LaneId) (d a : VReg)
  /-- DUNPK_E (R164): Signed packed to 16 EBCDIC zoned digits. -/
  | dunpkE (l : LaneId) (d a : VReg)
  /-- DUNPK_A (R164): Signed packed to 16 ASCII zoned digits. -/
  | dunpkA (l : LaneId) (d a : VReg)
  /-- DCVB (R164): Signed packed to signed 64-bit binary. -/
  | dcvb (l : LaneId) (d : GReg) (a : VReg)
  /-- DCVD (R164): Signed 64-bit binary to signed packed. -/
  | dcvd (l : LaneId) (d : VReg) (a : GReg)
  /-- XLAT (R166): Translates the 8 bytes of gA through table Tn. -/
  | xlat (l : LaneId) (d a : GReg) (n : BitVec 3)
  /-- XLATV (R166): Translates the 16 bytes of vA through table Tn. -/
  | xlatv (l : LaneId) (d a : VReg) (n : BitVec 3)
  /-- XLT_SEL (R165): Points table Tn at a table of the instance's directory. -/
  | xltSel (l : LaneId) (n : BitVec 3) (a : GReg)
  /-- LUHN_GEN (R166): Computes a Luhn check digit. -/
  | luhnGen (l : LaneId) (d : GReg) (a : VReg)
  /-- LUHN_CHK (R166): Checks a number's Luhn check digit. -/
  | luhnChk (l : LaneId) (d : GReg) (a : VReg)
  /-- M97_STEP (R166): One MOD 97 chunk step. -/
  | m97Step (l : LaneId) (d : GReg) (a : VReg) (b : GReg)
  /-- M97_GEN (R166): Computes ISO 7064 MOD 97-10 check digits. -/
  | m97Gen (l : LaneId) (d : GReg) (a : VReg)
  /-- M97_CHK (R166): Checks a MOD 97-10 number. -/
  | m97Chk (l : LaneId) (d : GReg) (a : VReg)
  /-- YIELD (R167): Ends the slice; the job stays RUNNABLE with no further slice this frame. -/
  | yieldSlice (l : LaneId)
  /-- PMC_RD (R167): Reads a lane or instance counter snapshot if PMC_USER permits. -/
  | pmcRd (l : LaneId) (d a : GReg)
  /-- DB_SQ_TAIL (R63): A submission tail write announces descriptors and starts their fetch into the staging pool. -/
  | dbSqTail (inst : Nat) (q : Fin 4) (value : BitVec 16)
  /-- DESCRIPTOR_FETCH_DONE (R63): A descriptor fetch completes into the staging pool, or fails and sets RING_ERR. -/
  | descriptorFetchDone (inst : Nat) (q : Fin 4) (fetched : FetchRes)
  /-- DB_CQ_HEAD (R62): A completion head write frees completion ring slots, or sets RING_ERR if beyond the tail. -/
  | dbCqHead (inst : Nat) (q : Fin 4) (value : BitVec 16)
  /-- DB_CANCEL (R82): Appends a SEQ to the pair's cancel queue, discarded if the queue is full. -/
  | dbCancel (inst : Nat) (q : Fin 4) (value : Reg32)
  /-- MB_REQ_TAIL (R305): Announces mailbox requests, setting MB_STAT.ERR on an index error. -/
  | mbReqTail (inst : Nat) (value : BitVec 8)
  /-- MB_RSP_HEAD (R306): Frees response slots, setting MB_STAT.ERR if beyond the tail. -/
  | mbRspHead (inst : Nat) (value : BitVec 8)
  /-- FRM_NUM_LO (R15): Reading the low frame number latches the high half. -/
  | frmNumLo
  /-- TWN_CONF_LO (R408): Reading the low confirmed-frame word latches the high half. -/
  | twnConfLo
  /-- FRM_CTRL (R50): A write stages lending, shed interrupt and the clamped thermal threshold for commit. -/
  | frmCtrl (value : Reg32)
  /-- FRM_LEND (R50): A write stages the PKE lending horizon for commit. -/
  | frmLend (value : Reg32)
  /-- TWN_CTRL (R408): A write stages cross-check and return-home enables for commit. -/
  | twnCtrl (value : Reg32)
  /-- SWAP_NOW (R402): Requests a pass role swap at the next commit if the standby qualifies. -/
  | swapNow
  /-- PASS_SWAP_PERIOD (R402): A write sets the swap period, clamped to range, committing at order 1. -/
  | passSwapPeriod (value : Reg32)
  /-- PASS_MAC (R487): A write sets the pass MAC address; while zero both links stay down. -/
  | passMac (value : BitVec 48)
  /-- FN_CTRL (R481): A write stages the preferred port for instance 0. -/
  | fnCtrl (value : Reg32)
  /-- FREEZE (R456): Starts a Strata freeze: non-security events counted, security events to the side buffer. -/
  | freeze
  /-- THAW (R457): Ends a freeze at cycle 11,920 of the frame of the write. -/
  | thaw
  /-- FREEZE_EXPIRY (R457): A freeze ends after 10,000 frames or when a security event finds the side buffer full. -/
  | freezeExpiry
  /-- PMC_COUNTER_LO_WRITE (R465): A write to a counter's low half is held until the next high-half write. -/
  | pmcCounterLoWrite (c : CounterId) (value : Reg32)
  /-- PMC_COUNTER_HI_WRITE (R465): Writes both halves, or bits [47:32] alone, and clears SAT. -/
  | pmcCounterHiWrite (c : CounterId) (value : Reg32)
  /-- PMC_COUNTER_LO_READ (R465): Reading a counter's low half latches its high half. -/
  | pmcCounterLoRead (c : CounterId)
  /-- CLR_LANE (R465): Zeroes every lane counter and SAT after the next snapshot. -/
  | clrLane
  /-- CLR_GLOBAL (R465): Zeroes every global counter and SAT after the next snapshot. -/
  | clrGlobal
  /-- PMC_SMP_HEAD (R464): Frees sample ring entries consumed by the manager. -/
  | pmcSmpHead (value : BitVec 16)
  /-- REGISTER_WRITE (R7): A write to a register with no behaviour of its own, including W1C status bits, with reserved bits ignored. -/
  | registerWrite (fn : Option Nat) (offset width : Nat) (value : Word)
  /-- PING (R311): Returns the 48 body bytes. -/
  | ping (rq : Req) (body : Bytes)
  /-- INST_INFO (R311): Returns an instance's share record. -/
  | instInfo (rq : Req) (inst : Nat)
  /-- MGR_MSG (R309): Forwards a tenant message to the manager with a forward number. -/
  | mgrMsg (rq : Req) (slot : Fin 16) (body : Bytes)
  /-- KEY_CREATE (R260): Creates a derived or generated key node from a creation record. -/
  | keyCreate (rq : Req) (generated : Bool) (rec : Creation)
  /-- KEY_RETIRE (R267): Stages a RETIRE: jobs drain, new jobs see KEY_STALE. -/
  | keyRetire (rq : Req) (h : Handle)
  /-- KEY_REVOKE (R267): Stages a REVOKE: holding jobs are squashed with KEY_GONE. -/
  | keyRevoke (rq : Req) (h : Handle)
  /-- KEY_REPLACE (R268): Stages a REPLACE with new material or label, raising GENERATION and keeping a shadow. -/
  | keyReplace (rq : Req) (h unwrap : Handle) (rec : Creation) (wrapped : Wrapped)
  /-- KEY_ERASE (R270): Stages an ERASE: jobs squashed, material zeroed, subtree reclaimed. -/
  | keyErase (rq : Req) (h : Handle)
  /-- RECLAIM (R270): Reclaim walks an erased subtree, zeroing slots and freeing indices as it goes. -/
  | reclaim (inst root : Nat)
  /-- KEY_INFO (R311): Writes a node record and public part to OUT_ADDR. -/
  | keyInfo (rq : Req) (h : Handle) (outAddr : Word) (outLen : Nat)
  /-- KEY_NARROW (R257): Narrows a node's EXPORT bits at commit. -/
  | keyNarrow (rq : Req) (h : Handle) (bits : BitVec 4)
  /-- KEY_EXPORT (R287): Writes a KWP wrapped record of a node. -/
  | keyExport (rq : Req) (h : Handle) (outAddr : Word) (outLen : Nat) (wrap : Handle)
  /-- KEY_IMPORT (R287): Imports a wrapped record as a new node. -/
  | keyImport (rq : Req) (parent unwrap : Handle) (bits : BitVec 4) (wrapped : Wrapped)
  /-- CHALLENGE (R291): Issues a 16-byte challenge, expiring the oldest beyond 64. -/
  | challenge (rq : Req)
  /-- CHALLENGE_EXPIRY (R291): A challenge expires after 180,000,000 frames. -/
  | challengeExpiry
  /-- PROG_LOAD (R179): Loads and measures a signed owner program. -/
  | progLoad (rq : Req) (id : Nat) (image : ProgImage)
  /-- PROG_REPLACE (R179): Replaces an owner program with a new measurement. -/
  | progReplace (rq : Req) (id : Nat) (image : ProgImage)
  /-- PROG_REMOVE (R179): Removes an owner program. -/
  | progRemove (rq : Req) (id : Nat)
  /-- PROG_LIST (R179): Lists the instance's and ROM programs with measurements. -/
  | progList (rq : Req) (outAddr : Word) (outLen : Nat)
  /-- BIND_ADD (R256): Adds a measurement to the binding table. -/
  | bindAdd (rq : Req) (measured : Bool) (program : Nat) (measure : Dig)
  /-- MAP_INSTALL (R326): Installs a record map and tables after checking them. -/
  | mapInstall (rq : Req) (ext : Bytes) (token : Token)
  /-- MAP_REMOVE (R328): Removes a record map at commit. -/
  | mapRemove (rq : Req) (id : Nat)
  /-- ATTEST (R425): Writes a signed attestation statement. -/
  | attest (rq : Req) (user : Bytes) (outAddr : Word) (outLen : Nat)
  /-- INST_CREATE (R299): Creates an instance with a new creation label. -/
  | instCreate (rq : Req) (inst : Nat) (port : Nat) (share : Share)
  /-- INST_REMOVE (R300): Resets and removes an instance. -/
  | instRemove (rq : Req) (inst : Nat)
  /-- INST_RESET (R313): Resets an instance through the reset order. -/
  | instReset (rq : Req) (inst : Nat)
  /-- RESET_COMPLETE (R313): Once host reads have completed or timed out, the reset finishes in cycles 1 to 31 and 11,800 onward. -/
  | resetComplete (inst : Nat)
  /-- SHARE_SET (R301): Replaces an instance's share record at commit. -/
  | shareSet (rq : Req) (inst : Nat) (share : Share)
  /-- SHRINK_COMPLETE (R302): Occupancy at a tail falls to the new quotas and the shrink's final reply is given. -/
  | shrinkComplete (inst : Nat)
  /-- FWD_REPLY (R309): Delivers the manager's reply to a forwarded request. -/
  | fwdReply (rq : Req) (forward : Nat) (status : BitVec 8) (body : Bytes)
  /-- NOTIFY (R311): Sends a MGR_NOTE notice to an instance. -/
  | notify (rq : Req) (inst : Nat) (body : Bytes)
  /-- DIRTY_SET (R316): Configures dirty-page logging at commit. -/
  | dirtySet (rq : Req) (inst : Nat) (en : Bool) (a b : Word) (base len : Nat)
  /-- DIRTY_SWAP (R318): Stages a bitmap swap. -/
  | dirtySwap (rq : Req) (inst : Nat)
  /-- BITMAP_SWAP_COMPLETE (R318): After write-back and a flushing read the swap completes and the reply is released. -/
  | bitmapSwapComplete (inst : Nat)
  /-- MIG_FREEZE (R319): Freezes an instance: admission stops and jobs drain. -/
  | migFreeze (rq : Req) (inst : Nat)
  /-- FREEZE_COMPLETE (R319): A frozen instance has no job in flight and no pending reply, and MIG_FREEZE completes. -/
  | freezeComplete (inst : Nat)
  /-- MIG_EXPORT (R321): Writes a sealed migration package in chunks. -/
  | migExport (rq : Req) (inst : Nat) (outAddr : Word) (outLen : Nat) (target : TargetStatement) (cert : OwnerCert)
  /-- MIG_EXPORT_CHUNK (R321): Up to 64 package chunks are written per frame until the instance becomes EXPORTED. -/
  | migExportChunk (inst : Nat)
  /-- MIG_IMPORT (R323): Imports a package into a new FROZEN instance. -/
  | migImport (rq : Req) (inst : Nat) (share : Share) (package : Bytes)
  /-- MIG_THAW (R319): Makes a frozen instance ACTIVE. -/
  | migThaw (rq : Req) (inst : Nat)
  /-- TARGET_KEY (R320): Returns a signed target statement with a fresh ML-KEM key. -/
  | targetKey (rq : Req) (outAddr : Word) (outLen : Nat)
  /-- JRNL_SET (R285): Configures the journal ring. -/
  | jrnlSet (rq : Req) (base : Word) (j : Nat) (en : Bool)
  /-- JRNL_DURABLE (R285): Records the durable SEQ and CHAIN, freeing ring slots and log entries. -/
  | jrnlDurable (rq : Req) (seq : Nat) (chain : BitVec 128)
  /-- JRNL_SNAP (R282): Starts a journal snapshot. -/
  | jrnlSnap (rq : Req)
  /-- SNAPSHOT_WRITE (R282): Up to 1,024 snapshot entries are produced per frame until SNAP_END. -/
  | snapshotWrite
  /-- JRNL_STAT (R285): Returns journal status. -/
  | jrnlStat (rq : Req)
  /-- RESTORE (R283): Applies a batch of journal entries, checking the chain and tags at LAST. -/
  | restore (rq : Req) (first last partner : Bool) (entries : List JEntry)
  /-- JOURNAL_WRITE (R284): Staged journal entries are written to ring slots whose previous entries are durable. -/
  | journalWrite
  /-- HEALTH_REPORT (R470): Writes the 4 KiB health report. -/
  | healthReport (rq : Req) (outAddr : Word) (outLen : Nat)
  /-- FENCE_HOLD (R471): Holds or releases a fenced element. -/
  | fenceHold (rq : Req) (elem : Nat) (hold : Bool)
  /-- PAIR_OFFER (R371): Offers pairing to a joining unit. -/
  | pairOffer (rq : Req) (target : TargetStatement) (cert : OwnerCert) (token : Token)
  /-- PAIR_ACCEPT (R371): Accepts pairing from the offering unit. -/
  | pairAccept (rq : Req) (target : TargetStatement) (cert : OwnerCert) (token : Token)
  /-- UNPAIR (R372): Dissolves the pair at commit. -/
  | unpair (rq : Req) (token : Token)
  /-- SHADOW_COPY_DONE (R371): The bulk copy of an instance completes and it gains its shadow. -/
  | shadowCopyDone (inst : Nat)
  /-- NET_ENDPOINT (R486): Configures an instance's network endpoint. -/
  | netEndpoint (rq : Req) (inst : Nat) (en vlanEn : Bool) (vlan : BitVec 12) (addr : BitVec 128)
  /-- NET_MKA (R486): Configures the MKA CAK and restarts MKA. -/
  | netMka (rq : Req) (cak : Handle) (ckn : Bytes) (priority : Nat) (passA passB xpn : Bool)
  /-- COMP_EXPORT (R505): Splits a key into clear components for named custodians. -/
  | compExport (rq : Req) (h : Handle) (count : Nat) (custodians : List Nat) (token : Token)
  /-- COMP_IMPORT (R505): Accepts one clear component of a key import. -/
  | compImport (rq : Req) (id index count len : Nat) (component : Bytes) (rec : Creation) (token : Token)
  /-- COMPONENT_EXPIRY (R505): Components undelivered or unreceived after 180,000,000 frames are discarded. -/
  | componentExpiry (import_ : Bool) (id : Nat)
  /-- CUSTODIAN_SET (R289): Changes the custodian register and thresholds. -/
  | custodianSet (rq : Req) (n q3 q4 : Nat) (keys : List (Nat × Nat × Bytes)) (token : Token)
  /-- GATE_REQ (R364): Requests gating, ungating or division of a domain. -/
  | gateReq (rq : Req) (domain action div : Nat)
  /-- GATE_STATE (R364): Returns the gated and pending domain masks. -/
  | gateState (rq : Req)
  /-- DOMAIN_GATED (R365): At the first boundary with nothing running in it, the domain is gated. -/
  | domainGated (domain : Nat)
  /-- POWER_UNGATE_DONE (R367): After 10 frames of power-up and passing tests the domain returns to service. -/
  | powerUngateDone (domain : Nat) (failed : List Nat)
  /-- GATE_DENY (R366): The Hollow denies a pending gate request. -/
  | gateDeny (master : Ctxt) (domain : Nat)
  /-- REGION_SET (R336): Stages a region register change. -/
  | regionSet (by_ : Ctxt) (ctrl : Fin 4) (i : Fin 16) (r : Region)
  /-- POT_SET (R350): Stages page owner entries. -/
  | potSet (by_ : Ctxt) (page count : Nat) (o : PageOwner)
  /-- TAG_SET (R350): Stages a page's tag block. -/
  | tagSet (by_ : Ctxt) (page : Nat) (colours : List (BitVec 4))
  /-- RULE_SET (R350): Stages a protection rule. -/
  | ruleSet (by_ : Ctxt) (c : Ctxt) (i : Fin 32) (r : Rule)
  /-- S2_SET (R351): Stages a stage-2 table entry. -/
  | s2Set (by_ : Ctxt) (addr : Nat) (entry : Word)
  /-- S2_ROOT (R351): Stages a VMID's stage-2 root. -/
  | s2Root (by_ : Ctxt) (vmid : Nat) (root : Word)
  /-- WORLD_SET (R330): Stages the lane world mask. -/
  | worldSet (by_ : Ctxt) (mask : BitVec 64)
  /-- LC_STATUS (R444): Returns life-cycle, tamper and firmware status. -/
  | lcStatus (rq : Req)
  /-- COMMISSION (R420): Commissions the unit into a new epoch. -/
  | commission (rq : Req) (rec : CommRecord) (proofs : List SigEntry)
  /-- DECOMMISSION (R412): Destroys the owner keys of the epoch. -/
  | decommission (rq : Req) (token : Token)
  /-- RECOVER (R442): Recovers a tampered unit into a new epoch. -/
  | recover (rq : Req) (token : Token)
  /-- RETURN (R412): Moves the unit to RETURNED. -/
  | returnUnit (rq : Req) (vendor : VendorBlock) (challenge : BitVec 128) (token : Option Token)
  /-- SCRAP (R443): Wipes the unit permanently, acting at once. -/
  | scrap (rq : Req) (echo : BitVec 128) (token : Option Token)
  /-- TRANSITION_RUN (R419): After the last posted write completes, a transition's steps run with OTP marks and the unit restarts. -/
  | transitionRun
  /-- TEST (R412): Factory transition from RAW to TESTED through the test access port. -/
  | testUnit (trim : List (BitVec 32))
  /-- SEAL (R412): Factory transition from TESTED to SEALED. -/
  | sealUnit (keys : List (Nat × Dig × BitVec 4))
  /-- IDCODE (R508): Test access port instruction returning the IDCODE. -/
  | idcode
  /-- BYPASS (R441): Test access port bypass instruction. -/
  | bypass
  /-- FW_UPDATE (R432): Writes and verifies an image into NEXT and seals forward. -/
  | fwUpdate (rq : Req) (image : FwImage) (token : Token)
  /-- FW_ACTIVATE (R433): Restarts the unit to boot NEXT. -/
  | fwActivate (rq : Req)
  /-- FW_CANCEL (R432): Zeroes NEXT and FORWARD. -/
  | fwCancel (rq : Req) (kind : Nat) (token : Token)
  /-- DBG_CERT (R436): Checks a debug certificate and stages its rights. -/
  | dbgCert (rq : Req) (cert : DebugCert) (vendor : Option VendorBlock) (token : Option Token)
  /-- DEBUG_EXPIRY (R356): Debug enables clear at the commit after their validity ends. -/
  | debugExpiry
  /-- ATTEST_CERT (R422): Stores the owner certificate of an attestation tree. -/
  | attestCert (rq : Req) (cert : OwnerCert)
  /-- ATTEST_TREE (R423): Generates the next attestation tree. -/
  | attestTree (rq : Req) (outAddr : Word) (outLen : Nat)
  /-- TAMPER_CONFIG (R437): Changes the external tamper configuration. -/
  | tamperConfig (rq : Req) (cfg : BitVec 8 × BitVec 8 × BitVec 2) (token : Token)
  /-- COLD_RESET_RELEASE (R530): PWR_GOOD and RESET_N high release cold reset and start-up runs to READY or a halt. -/
  | coldResetRelease (inRange : Bool) (mem : BitVec 4 × Nat × Nat × Bool) (flash : Option FwImage × Option FwImage) (otp : List (Nat × Nat × Bool)) (kat : List Nat)
  /-- RESET_N_FALL (R520): RESET_N low for 1 µs runs the power-fail sequence and holds the unit in cold reset. -/
  | resetNFall
  /-- PWR_GOOD_FALL (R520): PWR_GOOD falling runs the power-fail sequence. -/
  | pwrGoodFall
  /-- POWER_FAIL_N_FALL (R404): The power-fail trigger is latched and frame P runs to its end. -/
  | powerFailNFall
  /-- SUPPLY_DETECTOR_TRIP (R513): A supply below its detector threshold for 100 ns starts the power-fail sequence. -/
  | supplyDetectorTrip (supply : Nat)
  /-- POWER_FAIL_SEQUENCE (R404): At P + 1 admission stops, keys and states are zeroed, MRAM flushed and the unit becomes quiescent. -/
  | powerFailSequence
  /-- RESTART_AFTER_QUIESCENCE (R405): With supplies in limits and POWER_FAIL_N high, the unit starts again no sooner than 10 ms after quiescence. -/
  | restartAfterQuiescence (otp : List (Nat × Nat × Bool)) (kat : List Nat)
  /-- THERMAL_TRIP (R528): A sensor above 115 °C for 10 µs drives THERM_TRIP_N low and runs the power-fail sequence. -/
  | thermalTrip (sensor : Nat) (tj : Int)
  /-- SYS_CLK_LOSS (R518): SYS_CLK out of tolerance for 1 µs puts the PLL in holdover. -/
  | sysClkLoss
  /-- HOLDOVER_EXPIRY (R518): SYS_CLK not back within 1,000 frames runs the power-fail sequence. -/
  | holdoverExpiry
  /-- TAMPER_TRIP (R438): A tamper sensor trips and the tamper response zeroes secrets and halts the unit. -/
  | tamperTrip (code : Nat)
  /-- VBAT_LOW (R515): VBAT below 2.5 V with main power present sets LCS_TAMPER.VBAT_LOW. -/
  | vbatLow
  /-- BATTERY_SWITCHOVER (R515): The battery domain switches between VDD_IO and VBAT without losing state. -/
  | batterySwitchover (onBattery : Bool)
  /-- SECONDS_TICK (R448): Every 100,000th frame operating seconds increment and counters are written to MRAM. -/
  | secondsTick
  /-- PERST_ASSERT (R521): PERSTn_N low resets a host port as a physical-function reset. -/
  | perstAssert (p : Fin 2)
  /-- PERST_RELEASE (R521): PERSTn_N rising lets the port's link retrain. -/
  | perstRelease (p : Fin 2)
  /-- PCIE_LINK_DOWN (R477): A host link goes down; writes wait and instance 0 may move ports. -/
  | pcieLinkDown (p : Fin 2)
  /-- PCIE_LINK_UP (R477): A host link returns and waiting writes are released. -/
  | pcieLinkUp (p : Fin 2) (rate width : Nat)
  /-- BUS_MASTER_ENABLE_CHANGE (R477): A function's Bus Master Enable changes, stopping or resuming its requests. -/
  | busMasterEnableChange (fn : Option Nat) (p : Fin 2) (on : Bool)
  /-- VF_FLR (R478): A virtual-function reset resets its instance. -/
  | vfFlr (inst : Nat)
  /-- PF_FLR (R478): A physical-function reset clears VF Enable, resets its instances and moves instance 0. -/
  | pfFlr (p : Fin 2)
  /-- INSTANCE0_PORT_MOVE (R474): Instance 0's DMA and MSI-X move to the other port at the first tail its port is unusable. -/
  | instance0PortMove
  /-- TWIN_FRAME_MARKER (R45): A frame marker arrives on the twin link and serves alignment when FRAME_SYNC fails. -/
  | twinFrameMarker (l : LinkFrame) (offset : Int)
  /-- TWIN_FRAME_BODY (R380): Part of a checkpoint body arrives on the twin link. -/
  | twinFrameBody (l : LinkFrame) (part : BodyPart)
  /-- TWIN_FRAME_EXCHANGE (R374): An exchange frame arrives with digest, confirmation, heartbeat, reservations and cross-check digests. -/
  | twinFrameExchange (l : LinkFrame) (x : Exchange)
  /-- TWIN_FRAME_REPLICATION (R374): Journal entries of the partner's commits arrive for the replica. -/
  | twinFrameReplication (l : LinkFrame) (entries : List JEntry)
  /-- TWIN_FRAME_BULK (R371): Bulk copy or resynchronisation data arrives. -/
  | twinFrameBulk (l : LinkFrame) (inst : Nat) (data : Bytes) (done : Nat)
  /-- TWIN_FRAME_PAIRING (R499): A pairing or link-up nonce frame arrives on channel 6. -/
  | twinFramePairing (l : LinkFrame) (step : Nat) (body : Bytes)
  /-- TWIN_FRAME_RETRY (R500): A retry request arrives and the sender resends from the named SEQ. -/
  | twinFrameRetry (l : LinkFrame) (channel firstMissing : Nat)
  /-- HEARTBEAT_LOSS (R388): Heartbeat missing for 2 frames decides fail-over if FRAME_SYNC is also absent, else SPLIT. -/
  | heartbeatLoss
  /-- ADOPTION (R390): The survivor adopts the failed unit's instances from the last whole checkpoint. -/
  | adoption
  /-- SPLIT_RESYNC (R389): After 10,000 consecutive frames of heartbeats the replicas are resynchronised. -/
  | splitResync
  /-- RESYNC_COMPLETE (R395): A repaired unit's replica is whole and tested, and the pair becomes PAIRED. -/
  | resyncComplete
  /-- ETHERNET_FRAME_RX (R482): An Ethernet frame arrives on a pass and is checked by MACsec or dropped. -/
  | ethernetFrameRx (passB : Bool) (macsec : Bool) (sci an pn : Nat) (header cipher : Bytes) (icv : BitVec 128) (dst : BitVec 48)
  /-- MKPDU_RX (R485): An MKA frame arrives and updates peers and SAs. -/
  | mkpduRx (passB : Bool) (icv : BitVec 128) (ckn : Bytes) (peer : Nat) (sak : Option SakMsg) (latest : Nat)
  /-- NEIGHBOUR_SOLICITATION (R483): The active pass answers a neighbour solicitation. -/
  | neighbourSolicitation (passB : Bool) (target : BitVec 128) (src : Bytes)
  /-- ECHO_REQUEST (R483): The active pass answers an ICMPv6 echo request. -/
  | echoRequest (passB : Bool) (dst : BitVec 128) (payload : Bytes)
  /-- NERNAOSH_OPEN (R489): An OPEN is checked and answered with ACCEPT or REJECT. -/
  | nernaoshOpen (d : Datagram) (endpoint : BitVec 128)
  /-- NERNAOSH_REQUEST (R491): A REQUEST fragment is accepted into its message. -/
  | nernaoshRequest (d : Datagram)
  /-- NERNAOSH_ACK (R490): An ACK releases held responses. -/
  | nernaoshAck (d : Datagram)
  /-- NERNAOSH_CLOSE (R494): A CLOSE ends the session and squashes its jobs. -/
  | nernaoshClose (d : Datagram)
  /-- NERNAOSH_PING (R488): A PING is answered by ACK. -/
  | nernaoshPing (d : Datagram)
  /-- NERNAOSH_RETRANSMIT (R493): Unacknowledged data datagrams are resent at doubling intervals, the session closing after the eighth. -/
  | nernaoshRetransmit (inst : Nat) (session : BitVec 32)
  /-- SESSION_IDLE_TIMEOUT (R494): A session idle for 60 s is closed. -/
  | sessionIdleTimeout (inst : Nat) (session : BitVec 32)
  /-- PASS_SWITCH_END (R399): At S + 3 the old pass stops receiving and becomes the standby under test. -/
  | passSwitchEnd
  /-- STANDBY_TEST_WINDOW (R401): The standby sends PRBS31 through line loopback for 100 frames each second. -/
  | standbyTestWindow (errors : Nat)
  /-- PASS_SWAP_DUE (R402): The swap period elapses and a lossless role swap is staged if the standby is clean. -/
  | passSwapDue
  /-- PASS_REVERT (R403): A pass clean for 10,000 frames as standby takes control back. -/
  | passRevert
  /-- HELLO (R503): A custodian terminal opens a keyed session. -/
  | hello (c : Fin 2) (seq : Nat) (encapKey nt check : Bytes)
  /-- LOGIN (R503): A custodian signs in, binding the session. -/
  | login (c : Fin 2) (seq : Nat) (index alg : Nat) (sig check : Bytes)
  /-- DATA (R504): A custodian DATA frame carries part of a message stream. -/
  | custData (c : Fin 2) (seq : Nat) (payload check : Bytes)
  /-- CUSTODIAN_ACK (R502): A custodian ACK frame acknowledges a SEQ. -/
  | custodianAck (c : Fin 2) (seq : Nat) (acked : Nat) (check : Bytes)
  /-- BYE (R503): Ends a custodian session. -/
  | bye (c : Fin 2) (seq : Nat) (check : Bytes)
  /-- CUSTODIAN_RESEND (R502): An unacknowledged custodian frame is resent after 50 ms, the session ending after 8 attempts. -/
  | custodianResend (c : Fin 2) (seq : Nat)
  /-- CUSTODIAN_SESSION_TIMEOUT (R503): A custodian session ends after 5 minutes without a frame. -/
  | custodianSessionTimeout (c : Fin 2)
  /-- SELF_TEST_PIECE (R466): An element uses idle time for a piece of its KAT or full test. -/
  | selfTestPiece (elem : Fin 158) (full : Bool) (passed : Bool)
  /-- FORCED_TEST (R467): A test age reaching its limit forces the test using a bounded share of capacity. -/
  | forcedTest (elem : Fin 158) (full : Bool)
  /-- MARCH_TEST (R468): An operand region idle for 60 s receives a March C− test. -/
  | marchTest (engine : Fin 16) (region : Fin 16) (passed : Bool)
  /-- PKE_OPERATION_DONE (R218): A public-key engine (or a cross-check repeat engine) finishes a call, writes its outputs after its check and starts its instance's next queued call at once. -/
  | pkeOperationDone (e : Fin 16) (check : PkeCheck)
  /-- UNDEFINED_INSTRUCTION (R109): A lane issues a word with an unassigned major or FUNC, a non-zero must-be-zero field or a bad register field, and traps with cause 0x01. -/
  | undefinedInstruction (l : LaneId) (word : BitVec 32)
  /-- MAILBOX_TYPE_UNASSIGNED (R311): A consumed mailbox request of an unassigned type completes with DESC_INVALID. -/
  | mailboxTypeUnassigned (rq : Req) (mtype : BitVec 8)
  /-- TWIN_LINK_UP (R497): The twin link trains on all 8 lanes, TWN_LINK.UP is set and each unit sends its link-up nonce. -/
  | twinLinkUp (latency : Nat)
  /-- TWIN_LINK_DOWN (R497): Loss of any twin-link lane brings the link down, so heartbeats and exchanges stop arriving. -/
  | twinLinkDown
  /-- TWIN_CODEWORD_ERROR (R500): An uncorrectable RS codeword on the twin link is answered with a retry request naming the first missing SEQ. -/
  | twinCodewordError (channel : Nat)
  /-- PASS_LINK_UP (R397): A pass's link trains and becomes healthy; at start the first healthy pass becomes active. -/
  | passLinkUp (passB : Bool)
  /-- PCS_LOCK_LOSS (R398): A pass loses PCS block lock or lane alignment, and the loss is latched for the next health evaluation. -/
  | pcsLockLoss (passB : Bool)
  /-- SYS_CLK_RETURN (R518): SYS_CLK returns within tolerance during holdover, ending holdover and clearing PWR_STAT.HOLDOVER. -/
  | sysClkReturn
  /-- BATTERY_DOMAIN_POWER_LOSS (R536): The battery domain loses all power, losing BBRAM, the latch, and restarting the battery seconds counter from 0. -/
  | batteryDomainPowerLoss
  /-- HOLLOW_WATCHDOG_SERVE (R360): The Hollow monitor serves its watchdog, restarting the 500-frame count. -/
  | hollowWatchdogServe
  /-- HOLLOW_CORE_FAULT (R360): A double fault or uncorrectable error on core 96 or 97 starts a Hollow restart at the next cycle 0. -/
  | hollowCoreFault (core : Fin 2)
  /-- MAILBOX_HOLLOW_TIMEOUT (R310): A mailbox request needing the unavailable Hollow completes with HOLLOW_UNAVAILABLE 1,000 frames after it was latched. -/
  | mailboxHollowTimeout (rq : Req) (mtype : BitVec 8)
  /-- TWIN_PATH_TEST_DONE (R384): The in-service test of the twin link and checkpoint path after a second refusal ends, leading to fail-silent or SPLIT. -/
  | twinPathTestDone (ownFault : Bool)
  /-- REPAIRED_UNIT_REJOIN (R387): A fail-silent unit that has restarted its control complex and passed its full test rejoins its partner as a repaired unit. -/
  | repairedUnitRejoin (passed : Bool)
  /-- FW_ACTIVATE_RESTART (R433): After all jobs are released or the 100,000-frame drain ends, remaining jobs are squashed, the reply released and the unit restarts into NEXT. -/
  | fwActivateRestart
  /-- MKA_HELLO (R485): Every MKA hello time of 2 s each pass sends an MKPDU to its peers. -/
  | mkaHello (passB : Bool)
  /-- VF_ENABLE_CHANGE (R477): The host changes a port's SR-IOV VF Enable, stopping or resuming requests for the virtual functions concerned. -/
  | vfEnableChange (p : Fin 2) (on : Bool) (numVfs : Nat)
  /-- MSIX_UNMASK (R76): The host unmasks an MSI-X vector whose pending bit is set, and the pending message is sent. -/
  | msixUnmask (fn : Option Nat) (p : Fin 2) (vector : Nat)
  /-- DEBUGGER_ACCESS (R358): Under an enabled debug right a debugger halts, steps, resumes or reads and writes memory through a halted lane's or core's port. -/
  | debuggerAccess (op : DebugOp)
  /-- DRAM_SCRUB (R496): Each channel's 24-hour timer runs out and the channel scrubs all of its memory, counting corrections in FN_MEM_CE. -/
  | dramScrub (channel : Fin 4) (corrected : Nat)
deriving DecidableEq, Repr

end Sys2Proof
end

