-- ==== Sys2Proof/Decode.lean ====
section
/-! DEFINITION. The opcode table's bits, and the encoding of the lane instructions (Tables 03-7 to 03-16, 04-2 to 04-14A). -/

namespace Sys2Proof

/-- The command a word spells by the table's bits. The table gives no row any bits (every row's "fields" is empty), so no word spells a command (log 10). -/
def decodeTableWord (_nbits _w : Nat) : Option Instr := none

/-! ## Formats (Table 03-7) -/

/-- Format F: major, D, A, B, FUNC. -/
def fmtF (major : BitVec 6) (d a b : BitVec 5) (func : BitVec 11) : BitVec 32 := major ++ d ++ a ++ b ++ func

/-- Formats I, W and C: major, two register fields, 16 bits. -/
def fmtI (major : BitVec 6) (d a : BitVec 5) (imm : BitVec 16) : BitVec 32 := major ++ d ++ a ++ imm

/-- Format J: major, D, OFF21. -/
def fmtJ (major : BitVec 6) (d : BitVec 5) (off : BitVec 21) : BitVec 32 := major ++ d ++ off

/-- Major opcode, bits [31:26]. -/
def fMajor (w : BitVec 32) : BitVec 6 := w.extractLsb' 26 6

/-- Field D, bits [25:21]. -/
def fD (w : BitVec 32) : BitVec 5 := w.extractLsb' 21 5

/-- Field A, bits [20:16]. -/
def fA (w : BitVec 32) : BitVec 5 := w.extractLsb' 16 5

/-- Field B, bits [15:11]. -/
def fB (w : BitVec 32) : BitVec 5 := w.extractLsb' 11 5

/-- FUNC, bits [10:0]. -/
def fF (w : BitVec 32) : BitVec 11 := w.extractLsb' 0 11

/-- IMM16 or OFF16, bits [15:0]. -/
def fI (w : BitVec 32) : BitVec 16 := w.extractLsb' 0 16

/-- OFF21, bits [20:0]. -/
def fJ (w : BitVec 32) : BitVec 21 := w.extractLsb' 0 21

/-! ## Register fields (R109, R139) -/

/-- A register number as a 5-bit field. -/
def rx (n : Nat) : BitVec 5 := BitVec.ofNat 5 n

/-- A general register field. -/
def gr (x : BitVec 5) : GReg := ⟨x.toNat, x.isLt⟩

/-- A block register field: bit 4 zero. -/
def vr (x : BitVec 5) : Option VReg := if h : x.toNat < 16 then some ⟨x.toNat, h⟩ else none

/-- A key register field: bits [4:3] zero. -/
def kr (x : BitVec 5) : Option KReg := if h : x.toNat < 8 then some ⟨x.toNat, h⟩ else none

/-- A counter register field: bits [4:2] zero. -/
def cr (x : BitVec 5) : Option CReg := if h : x.toNat < 4 then some ⟨x.toNat, h⟩ else none

/-- A port number: the higher bits of the field must be zero. -/
def n2 (x : BitVec 5) : Option (BitVec 2) := if x.toNat < 4 then some (x.setWidth 2) else none

/-- A table number: the higher bits of the field must be zero. -/
def n3 (x : BitVec 5) : Option (BitVec 3) := if x.toNat < 8 then some (x.setWidth 3) else none

/-- A field that must be zero. -/
def zero (x : BitVec 5) (i : Instr) : Option Instr := if x = 0 then some i else none

/-! ## Decoding, major by major -/

/-- Major 0x01, by FUNC. -/
def decodeF01 (l : LaneId) (d a b : BitVec 5) : Nat → Option Instr
  | 0x000 => some (.add l (gr d) (gr a) (gr b))
  | 0x001 => some (.sub l (gr d) (gr a) (gr b))
  | 0x002 => some (.and l (gr d) (gr a) (gr b))
  | 0x003 => some (.or l (gr d) (gr a) (gr b))
  | 0x004 => some (.xor l (gr d) (gr a) (gr b))
  | 0x005 => some (.andn l (gr d) (gr a) (gr b))
  | 0x006 => some (.sll l (gr d) (gr a) (gr b))
  | 0x007 => some (.srl l (gr d) (gr a) (gr b))
  | 0x008 => some (.sra l (gr d) (gr a) (gr b))
  | 0x009 => some (.ror l (gr d) (gr a) (gr b))
  | 0x00A => some (.slt l (gr d) (gr a) (gr b))
  | 0x00B => some (.sltu l (gr d) (gr a) (gr b))
  | 0x00C => some (.min l (gr d) (gr a) (gr b))
  | 0x00D => some (.max l (gr d) (gr a) (gr b))
  | 0x00E => some (.minu l (gr d) (gr a) (gr b))
  | 0x00F => some (.maxu l (gr d) (gr a) (gr b))
  | 0x010 => some (.sel l (gr d) (gr a) (gr b))
  | 0x020 => some (.mul l (gr d) (gr a) (gr b))
  | 0x021 => some (.mulh l (gr d) (gr a) (gr b))
  | 0x022 => some (.mulhu l (gr d) (gr a) (gr b))
  | 0x028 => some (.div l (gr d) (gr a) (gr b))
  | 0x029 => some (.divu l (gr d) (gr a) (gr b))
  | 0x02A => some (.rem l (gr d) (gr a) (gr b))
  | 0x02B => some (.remu l (gr d) (gr a) (gr b))
  | 0x030 => zero b (.clz l (gr d) (gr a))
  | 0x031 => zero b (.ctz l (gr d) (gr a))
  | 0x032 => zero b (.popc l (gr d) (gr a))
  | 0x033 => zero b (.bswap l (gr d) (gr a))
  | _ => none

/-- Major 0x1E, by FUNC. -/
def decodeF1E (l : LaneId) (d a b : BitVec 5) : Nat → Option Instr
  | 0x000 => some (.atmAdd l (gr d) (gr b) (gr a))
  | 0x001 => some (.atmSwap l (gr d) (gr b) (gr a))
  | 0x002 => some (.atmAnd l (gr d) (gr b) (gr a))
  | 0x003 => some (.atmOr l (gr d) (gr b) (gr a))
  | 0x004 => some (.atmXor l (gr d) (gr b) (gr a))
  | 0x005 => some (.atmCmpx l (gr d) (gr b) (gr a))
  | _ => none

/-- Major 0x1F, by FUNC. -/
def decodeF1F (l : LaneId) (d a b : BitVec 5) : Nat → Option Instr
  | 0x000 => zero b (.tagr l (gr d) (gr a))
  | 0x001 => zero d (.tagw l (gr b) (gr a))
  | 0x002 => if b.getLsbD 4 then none else some (.pcset l (gr d) (gr a) (b.setWidth 4))
  | 0x003 => zero b (.pcget l (gr d) (gr a))
  | _ => none

/-- Major 0x28, by FUNC. -/
def decodeF28 (l : LaneId) (d a b : BitVec 5) : Nat → Option Instr
  | 0x000 => match vr d, vr a with | some d, some a => some (.vmov l d a) | _, _ => none
  | 0x001 => match vr d, vr a, vr b with | some d, some a, some b => some (.vxor l d a b) | _, _, _ => none
  | 0x002 => match vr d, vr a, vr b with | some d, some a, some b => some (.vand l d a b) | _, _, _ => none
  | 0x003 => match vr d, vr a, vr b with | some d, some a, some b => some (.vor l d a b) | _, _, _ => none
  | 0x004 => match vr d, vr a, vr b with | some d, some a, some b => some (.vandn l d a b) | _, _, _ => none
  | 0x005 => match vr d with | some d => some (.vzero l d) | _ => none
  | 0x006 => match vr d, vr a with | some d, some a => some (.vbswap l d a) | _, _ => none
  | 0x008 => match vr d with | some d => some (.vins l d (gr a) false) | _ => none
  | 0x048 => match vr d with | some d => some (.vins l d (gr a) true) | _ => none
  | 0x009 => match vr a with | some a => some (.vext l (gr d) a false) | _ => none
  | 0x049 => match vr a with | some a => some (.vext l (gr d) a true) | _ => none
  | 0x00A => match vr a, vr b with | some a, some b => some (.veq l (gr d) a b) | _, _ => none
  | _ => none

/-- Major 0x29, by FUNC. -/
def decodeF29 (l : LaneId) (d a _b : BitVec 5) : Nat → Option Instr
  | 0x000 => match kr d, kr a with | some d, some a => some (.kmov l d a) | _, _ => none
  | 0x001 => match kr d with | some d => some (.kclr l d) | _ => none
  | 0x002 => match kr a with | some a => some (.kinf l (gr d) a) | _ => none
  | _ => none

/-- Major 0x31, by FUNC. -/
def decodeF31 (l : LaneId) (d a b : BitVec 5) : Nat → Option Instr
  | 0x000 => match vr d, vr a, kr b with | some d, some a, some b => some (.blkEnc l d a b) | _, _, _ => none
  | 0x001 => match vr d, vr a, kr b with | some d, some a, some b => some (.blkDec l d a b) | _, _, _ => none
  | 0x002 => match vr d, cr a, kr b with | some d, some a, some b => some (.blkEncCtr l d a b) | _, _, _ => none
  | 0x003 => match vr d, vr a, kr b with | some d, some a, some b => some (.blkEncT l d a b) | _, _, _ => none
  | 0x010 => some (.waitb l a)
  | _ => none

/-- Major 0x32, by FUNC. -/
def decodeF32 (l : LaneId) (d a b : BitVec 5) : Nat → Option Instr
  | 0x000 => match vr d, vr a, vr b with | some d, some a, some b => some (.clmulLl l d a b) | _, _, _ => none
  | 0x001 => match vr d, vr a, vr b with | some d, some a, some b => some (.clmulLh l d a b) | _, _, _ => none
  | 0x002 => match vr d, vr a, vr b with | some d, some a, some b => some (.clmulHl l d a b) | _, _, _ => none
  | 0x003 => match vr d, vr a, vr b with | some d, some a, some b => some (.clmulHh l d a b) | _, _, _ => none
  | 0x010 => match vr d, vr a, vr b with | some d, some a, some b => some (.gfmul l d a b) | _, _, _ => none
  | 0x011 => match vr d, vr a, vr b with | some d, some a, some b => some (.gfmac l d a b) | _, _, _ => none
  | 0x020 => match vr d, vr a with | some d, some a => zero b (.xtsmul l d a) | _, _ => none
  | _ => none

/-- Major 0x33, by FUNC. -/
def decodeF33 (l : LaneId) (d a b : BitVec 5) : Nat → Option Instr
  | 0x000 => match cr d, vr a with | some d, some a => some (.ctrSet l d a) | _, _ => none
  | 0x001 => match cr d with | some d => some (.ctrLim l d (gr a) (gr b)) | _ => none
  | 0x002 => match vr d, cr a with | some d, some a => some (.ctrNext l d a) | _, _ => none
  | 0x003 => match vr d, cr a with | some d, some a => some (.ctrGet l d a) | _, _ => none
  | 0x004 => match cr a with | some a => some (.ctrRem l (gr d) a) | _ => none
  | 0x005 => match kr a with | some a => some (.ctrInv l (gr d) a (gr b)) | _ => none
  | _ => none

/-- Major 0x34, by FUNC. -/
def decodeF34 (l : LaneId) (d a b : BitVec 5) : Nat → Option Instr
  | 0x000 => match vr d, n2 a with | some d, some a => some (.siPull l d a) | _, _ => none
  | 0x001 => match n2 a with | some a => some (.siPullg l (gr d) a) | _ => none
  | 0x002 => match n2 a with | some a => some (.siRem l (gr d) a) | _ => none
  | 0x008 => match n2 d, vr a with | some d, some a => some (.soPush l a d) | _, _ => none
  | 0x009 => match n2 d with | some d => some (.soPushg l (gr a) d) | _ => none
  | 0x010 => match vr d, vr a, n2 b with | some d, some a, some b => some (.stxE l d a b) | _, _, _ => none
  | 0x011 => match vr d, vr a, n2 b with | some d, some a, some b => some (.stxD l d a b) | _, _, _ => none
  | 0x018 => match n2 a with | some a => some (.soCnt l (gr d) a) | _ => none
  | 0x019 => match n2 d with | some d => some (.soFin l d) | _ => none
  | 0x01A => match n2 d, vr a with | some d, some a => some (.soTag l d a (gr b)) | _, _ => none
  | _ => none

/-- Major 0x35, by FUNC. -/
def decodeF35 (l : LaneId) (d a b : BitVec 5) : Nat → Option Instr
  | 0x000 => some (.hshInit l (gr d) (gr a))
  | 0x001 => match kr b with | some b => some (.hshKinit l (gr d) (gr a) b) | _ => none
  | 0x002 => some (.hshAbs l (gr d) (gr a) (gr b))
  | 0x003 => some (.hshAbsp l (gr d) (gr a) (gr b))
  | 0x004 => some (.hshSqz l (gr d) (gr a) (gr b))
  | 0x005 => some (.hshWait l (gr a))
  | 0x006 => some (.hshFree l (gr a))
  | _ => none

/-- Major 0x36, by FUNC. -/
def decodeF36 (l : LaneId) (d a _b : BitVec 5) : Nat → Option Instr
  | 0x000 => some (.pkeCall l (gr d) (gr a))
  | 0x001 => some (.pkeWait l (gr d))
  | 0x002 => some (.pkeAbort l (gr d))
  | _ => none

/-- Major 0x37, by FUNC. -/
def decodeF37 (l : LaneId) (d a b : BitVec 5) : Nat → Option Instr
  | 0x000 => match vr d with | some d => some (.dld l d (gr a) (gr b)) | _ => none
  | 0x001 => match vr d with | some d => some (.dstb l d (gr a) (gr b)) | _ => none
  | 0x008 => match vr d, vr a, vr b with | some d, some a, some b => some (.dadd l d a b) | _, _, _ => none
  | 0x009 => match vr d, vr a, vr b with | some d, some a, some b => some (.dsub l d a b) | _, _, _ => none
  | 0x00A => match vr a, vr b with | some a, some b => some (.dcmp l (gr d) a b) | _, _ => none
  | 0x010 => match vr d, vr a with | some d, some a => some (.dpackE l d a) | _, _ => none
  | 0x011 => match vr d, vr a with | some d, some a => some (.dpackA l d a) | _, _ => none
  | 0x012 => match vr d, vr a with | some d, some a => some (.dpackEu l d a) | _, _ => none
  | 0x013 => match vr d, vr a with | some d, some a => some (.dpackAu l d a) | _, _ => none
  | 0x018 => match vr d, vr a with | some d, some a => some (.dunpkE l d a) | _, _ => none
  | 0x019 => match vr d, vr a with | some d, some a => some (.dunpkA l d a) | _, _ => none
  | 0x020 => match vr a with | some a => some (.dcvb l (gr d) a) | _ => none
  | 0x021 => match vr d with | some d => some (.dcvd l d (gr a)) | _ => none
  | _ => none

/-- Major 0x38, by FUNC. -/
def decodeF38 (l : LaneId) (d a b : BitVec 5) : Nat → Option Instr
  | 0x000 => match n3 b with | some b => some (.xlat l (gr d) (gr a) b) | _ => none
  | 0x001 => match vr d, vr a, n3 b with | some d, some a, some b => some (.xlatv l d a b) | _, _, _ => none
  | 0x002 => match n3 d with | some d => some (.xltSel l d (gr a)) | _ => none
  | _ => none

/-- Major 0x39, by FUNC. -/
def decodeF39 (l : LaneId) (d a b : BitVec 5) : Nat → Option Instr
  | 0x000 => match vr a with | some a => some (.luhnGen l (gr d) a) | _ => none
  | 0x001 => match vr a with | some a => some (.luhnChk l (gr d) a) | _ => none
  | 0x008 => match vr a with | some a => some (.m97Step l (gr d) a (gr b)) | _ => none
  | 0x009 => match vr a with | some a => some (.m97Gen l (gr d) a) | _ => none
  | 0x00A => match vr a with | some a => some (.m97Chk l (gr d) a) | _ => none
  | _ => none

/-- Major 0x3A, by FUNC. -/
def decodeF3A (l : LaneId) (d a _b : BitVec 5) : Nat → Option Instr
  | 0x000 => some (.yieldSlice l)
  | 0x001 => some (.pmcRd l (gr d) (gr a))
  | _ => none

/-- Major 0x08: IMM16 [15:14] selects, [13:6] zero, [5:0] the amount (R116). -/
def decodeShift (l : LaneId) (d a : BitVec 5) (imm : BitVec 16) : Option Instr :=
  if imm.extractLsb' 6 8 = 0 then
    match imm.extractLsb' 14 2 with
    | 0 => some (.slli l (gr d) (gr a) (imm.setWidth 6))
    | 1 => some (.srli l (gr d) (gr a) (imm.setWidth 6))
    | 2 => some (.srai l (gr d) (gr a) (imm.setWidth 6))
    | _ => some (.rori l (gr d) (gr a) (imm.setWidth 6))
  else none

/-- Major 0x2D: a write of JEND is the table's row JEND (R92, R130). -/
def decodeCrw (l : LaneId) (a : BitVec 5) (n : BitVec 12) : Instr := if n = 0x10E then .jend l (gr a) else .crw l n (gr a)

/-- Major 0x30 by field A: KCALL 0 is END (Table 03-16, R130). -/
def decodeSys (l : LaneId) (d : BitVec 5) (imm : BitVec 16) : Nat → Option Instr
  | 0 => some (if imm = 0 then .endJob l else .kcall l imm)
  | 1 => if d = 0 && imm == 0 then some (.kret l) else none
  | 2 => zero d (.fence l (imm.setWidth 4))
  | 3 => if imm.setWidth 2 = (3 : BitVec 2) then none else some (.tlbfl l (gr d) (imm.setWidth 2))
  | 4 => some (.dstop l imm)
  | _ => none

/-- The word's fields by its major opcode (Table 03-8); majors not listed are unassigned. -/
def decodeMajor (l : LaneId) (w : BitVec 32) (d a b : BitVec 5) : Nat → Option Instr
  | 0x01 => decodeF01 l d a b (fF w).toNat
  | 0x02 => some (.addi l (gr d) (gr a) (fI w))
  | 0x03 => some (.andi l (gr d) (gr a) (fI w))
  | 0x04 => some (.ori l (gr d) (gr a) (fI w))
  | 0x05 => some (.xori l (gr d) (gr a) (fI w))
  | 0x06 => some (.slti l (gr d) (gr a) (fI w))
  | 0x07 => some (.sltiu l (gr d) (gr a) (fI w))
  | 0x08 => decodeShift l d a (fI w)
  | 0x09 => if a.extractLsb' 2 3 = 0 then some (.qset l (gr d) (fI w) (a.setWidth 2)) else none
  | 0x0A => if a.extractLsb' 2 3 = 0 then some (.qins l (gr d) (fI w) (a.setWidth 2)) else none
  | 0x10 => some (.lb l (gr d) (gr a) (fI w))
  | 0x11 => some (.lh l (gr d) (gr a) (fI w))
  | 0x12 => some (.lw l (gr d) (gr a) (fI w))
  | 0x13 => some (.ld l (gr d) (gr a) (fI w))
  | 0x14 => some (.lbs l (gr d) (gr a) (fI w))
  | 0x15 => some (.lhs l (gr d) (gr a) (fI w))
  | 0x16 => some (.lws l (gr d) (gr a) (fI w))
  | 0x18 => some (.sb l (gr d) (gr a) (fI w))
  | 0x19 => some (.sh l (gr d) (gr a) (fI w))
  | 0x1A => some (.sw l (gr d) (gr a) (fI w))
  | 0x1B => some (.sd l (gr d) (gr a) (fI w))
  | 0x1C => match vr d with | some d => some (.lv l d (gr a) (fI w)) | none => none
  | 0x1D => match vr d with | some d => some (.sv l d (gr a) (fI w)) | none => none
  | 0x1E => decodeF1E l d a b (fF w).toNat
  | 0x1F => decodeF1F l d a b (fF w).toNat
  | 0x20 => some (.jeq l (gr d) (gr a) (fI w))
  | 0x21 => some (.jne l (gr d) (gr a) (fI w))
  | 0x22 => some (.jlt l (gr d) (gr a) (fI w))
  | 0x23 => some (.jge l (gr d) (gr a) (fI w))
  | 0x24 => some (.jlo l (gr d) (gr a) (fI w))
  | 0x25 => some (.jhs l (gr d) (gr a) (fI w))
  | 0x26 => some (.call l (gr d) (fJ w))
  | 0x27 => some (.callr l (gr d) (gr a) (fI w))
  | 0x28 => decodeF28 l d a b (fF w).toNat
  | 0x29 => decodeF29 l d a b (fF w).toNat
  | 0x2C => if a = 0 && (fI w).extractLsb' 12 4 == 0 then some (.crr l (gr d) ((fI w).setWidth 12)) else none
  | 0x2D => if d = 0 && (fI w).extractLsb' 12 4 == 0 then some (decodeCrw l a ((fI w).setWidth 12)) else none
  | 0x30 => decodeSys l d (fI w) a.toNat
  | 0x31 => decodeF31 l d a b (fF w).toNat
  | 0x32 => decodeF32 l d a b (fF w).toNat
  | 0x33 => decodeF33 l d a b (fF w).toNat
  | 0x34 => decodeF34 l d a b (fF w).toNat
  | 0x35 => decodeF35 l d a b (fF w).toNat
  | 0x36 => decodeF36 l d a b (fF w).toNat
  | 0x37 => decodeF37 l d a b (fF w).toNat
  | 0x38 => decodeF38 l d a b (fF w).toNat
  | 0x39 => decodeF39 l d a b (fF w).toNat
  | 0x3A => decodeF3A l d a b (fF w).toNat
  | _ => none

/-- The instruction a lane decodes from a word; none where R109 calls it undefined. -/
def geingDecode (l : LaneId) (w : BitVec 32) : Option Instr := decodeMajor l w (fD w) (fA w) (fB w) (fMajor w).toNat

/-- The word of a lane instruction; none for a command that is no lane instruction. -/
def geingEncode : Instr → Option (BitVec 32)
  | .add _ d a b => some (fmtF 0x01 (rx d.val) (rx a.val) (rx b.val) 0x000)
  | .sub _ d a b => some (fmtF 0x01 (rx d.val) (rx a.val) (rx b.val) 0x001)
  | .and _ d a b => some (fmtF 0x01 (rx d.val) (rx a.val) (rx b.val) 0x002)
  | .or _ d a b => some (fmtF 0x01 (rx d.val) (rx a.val) (rx b.val) 0x003)
  | .xor _ d a b => some (fmtF 0x01 (rx d.val) (rx a.val) (rx b.val) 0x004)
  | .andn _ d a b => some (fmtF 0x01 (rx d.val) (rx a.val) (rx b.val) 0x005)
  | .sll _ d a b => some (fmtF 0x01 (rx d.val) (rx a.val) (rx b.val) 0x006)
  | .srl _ d a b => some (fmtF 0x01 (rx d.val) (rx a.val) (rx b.val) 0x007)
  | .sra _ d a b => some (fmtF 0x01 (rx d.val) (rx a.val) (rx b.val) 0x008)
  | .ror _ d a b => some (fmtF 0x01 (rx d.val) (rx a.val) (rx b.val) 0x009)
  | .slt _ d a b => some (fmtF 0x01 (rx d.val) (rx a.val) (rx b.val) 0x00A)
  | .sltu _ d a b => some (fmtF 0x01 (rx d.val) (rx a.val) (rx b.val) 0x00B)
  | .min _ d a b => some (fmtF 0x01 (rx d.val) (rx a.val) (rx b.val) 0x00C)
  | .max _ d a b => some (fmtF 0x01 (rx d.val) (rx a.val) (rx b.val) 0x00D)
  | .minu _ d a b => some (fmtF 0x01 (rx d.val) (rx a.val) (rx b.val) 0x00E)
  | .maxu _ d a b => some (fmtF 0x01 (rx d.val) (rx a.val) (rx b.val) 0x00F)
  | .sel _ d a b => some (fmtF 0x01 (rx d.val) (rx a.val) (rx b.val) 0x010)
  | .mul _ d a b => some (fmtF 0x01 (rx d.val) (rx a.val) (rx b.val) 0x020)
  | .mulh _ d a b => some (fmtF 0x01 (rx d.val) (rx a.val) (rx b.val) 0x021)
  | .mulhu _ d a b => some (fmtF 0x01 (rx d.val) (rx a.val) (rx b.val) 0x022)
  | .div _ d a b => some (fmtF 0x01 (rx d.val) (rx a.val) (rx b.val) 0x028)
  | .divu _ d a b => some (fmtF 0x01 (rx d.val) (rx a.val) (rx b.val) 0x029)
  | .rem _ d a b => some (fmtF 0x01 (rx d.val) (rx a.val) (rx b.val) 0x02A)
  | .remu _ d a b => some (fmtF 0x01 (rx d.val) (rx a.val) (rx b.val) 0x02B)
  | .clz _ d a => some (fmtF 0x01 (rx d.val) (rx a.val) 0 0x030)
  | .ctz _ d a => some (fmtF 0x01 (rx d.val) (rx a.val) 0 0x031)
  | .popc _ d a => some (fmtF 0x01 (rx d.val) (rx a.val) 0 0x032)
  | .bswap _ d a => some (fmtF 0x01 (rx d.val) (rx a.val) 0 0x033)
  | .atmAdd _ d b a => some (fmtF 0x1E (rx d.val) (rx a.val) (rx b.val) 0x000)
  | .atmSwap _ d b a => some (fmtF 0x1E (rx d.val) (rx a.val) (rx b.val) 0x001)
  | .atmAnd _ d b a => some (fmtF 0x1E (rx d.val) (rx a.val) (rx b.val) 0x002)
  | .atmOr _ d b a => some (fmtF 0x1E (rx d.val) (rx a.val) (rx b.val) 0x003)
  | .atmXor _ d b a => some (fmtF 0x1E (rx d.val) (rx a.val) (rx b.val) 0x004)
  | .atmCmpx _ d b a => some (fmtF 0x1E (rx d.val) (rx a.val) (rx b.val) 0x005)
  | .tagr _ d a => some (fmtF 0x1F (rx d.val) (rx a.val) 0 0x000)
  | .tagw _ b a => some (fmtF 0x1F 0 (rx a.val) (rx b.val) 0x001)
  | .pcset _ d a c => some (fmtF 0x1F (rx d.val) (rx a.val) (c.setWidth 5) 0x002)
  | .pcget _ d a => some (fmtF 0x1F (rx d.val) (rx a.val) 0 0x003)
  | .vmov _ d a => some (fmtF 0x28 (rx d.val) (rx a.val) 0 0x000)
  | .vxor _ d a b => some (fmtF 0x28 (rx d.val) (rx a.val) (rx b.val) 0x001)
  | .vand _ d a b => some (fmtF 0x28 (rx d.val) (rx a.val) (rx b.val) 0x002)
  | .vor _ d a b => some (fmtF 0x28 (rx d.val) (rx a.val) (rx b.val) 0x003)
  | .vandn _ d a b => some (fmtF 0x28 (rx d.val) (rx a.val) (rx b.val) 0x004)
  | .vzero _ d => some (fmtF 0x28 (rx d.val) 0 0 0x005)
  | .vbswap _ d a => some (fmtF 0x28 (rx d.val) (rx a.val) 0 0x006)
  | .vins _ d a false => some (fmtF 0x28 (rx d.val) (rx a.val) 0 0x008)
  | .vins _ d a true => some (fmtF 0x28 (rx d.val) (rx a.val) 0 0x048)
  | .vext _ d a false => some (fmtF 0x28 (rx d.val) (rx a.val) 0 0x009)
  | .vext _ d a true => some (fmtF 0x28 (rx d.val) (rx a.val) 0 0x049)
  | .veq _ d a b => some (fmtF 0x28 (rx d.val) (rx a.val) (rx b.val) 0x00A)
  | .kmov _ d a => some (fmtF 0x29 (rx d.val) (rx a.val) 0 0x000)
  | .kclr _ d => some (fmtF 0x29 (rx d.val) 0 0 0x001)
  | .kinf _ d a => some (fmtF 0x29 (rx d.val) (rx a.val) 0 0x002)
  | .blkEnc _ d a b => some (fmtF 0x31 (rx d.val) (rx a.val) (rx b.val) 0x000)
  | .blkDec _ d a b => some (fmtF 0x31 (rx d.val) (rx a.val) (rx b.val) 0x001)
  | .blkEncCtr _ d a b => some (fmtF 0x31 (rx d.val) (rx a.val) (rx b.val) 0x002)
  | .blkEncT _ d a b => some (fmtF 0x31 (rx d.val) (rx a.val) (rx b.val) 0x003)
  | .waitb _ n => some (fmtF 0x31 0 n 0 0x010)
  | .clmulLl _ d a b => some (fmtF 0x32 (rx d.val) (rx a.val) (rx b.val) 0x000)
  | .clmulLh _ d a b => some (fmtF 0x32 (rx d.val) (rx a.val) (rx b.val) 0x001)
  | .clmulHl _ d a b => some (fmtF 0x32 (rx d.val) (rx a.val) (rx b.val) 0x002)
  | .clmulHh _ d a b => some (fmtF 0x32 (rx d.val) (rx a.val) (rx b.val) 0x003)
  | .gfmul _ d a b => some (fmtF 0x32 (rx d.val) (rx a.val) (rx b.val) 0x010)
  | .gfmac _ d a b => some (fmtF 0x32 (rx d.val) (rx a.val) (rx b.val) 0x011)
  | .xtsmul _ d a => some (fmtF 0x32 (rx d.val) (rx a.val) 0 0x020)
  | .ctrSet _ d a => some (fmtF 0x33 (rx d.val) (rx a.val) 0 0x000)
  | .ctrLim _ d a b => some (fmtF 0x33 (rx d.val) (rx a.val) (rx b.val) 0x001)
  | .ctrNext _ d a => some (fmtF 0x33 (rx d.val) (rx a.val) 0 0x002)
  | .ctrGet _ d a => some (fmtF 0x33 (rx d.val) (rx a.val) 0 0x003)
  | .ctrRem _ d a => some (fmtF 0x33 (rx d.val) (rx a.val) 0 0x004)
  | .ctrInv _ d a b => some (fmtF 0x33 (rx d.val) (rx a.val) (rx b.val) 0x005)
  | .siPull _ d a => some (fmtF 0x34 (rx d.val) (a.setWidth 5) 0 0x000)
  | .siPullg _ d a => some (fmtF 0x34 (rx d.val) (a.setWidth 5) 0 0x001)
  | .siRem _ d a => some (fmtF 0x34 (rx d.val) (a.setWidth 5) 0 0x002)
  | .soPush _ a d => some (fmtF 0x34 (d.setWidth 5) (rx a.val) 0 0x008)
  | .soPushg _ a d => some (fmtF 0x34 (d.setWidth 5) (rx a.val) 0 0x009)
  | .stxE _ d a b => some (fmtF 0x34 (rx d.val) (rx a.val) (b.setWidth 5) 0x010)
  | .stxD _ d a b => some (fmtF 0x34 (rx d.val) (rx a.val) (b.setWidth 5) 0x011)
  | .soCnt _ d a => some (fmtF 0x34 (rx d.val) (a.setWidth 5) 0 0x018)
  | .soFin _ d => some (fmtF 0x34 (d.setWidth 5) 0 0 0x019)
  | .soTag _ d a b => some (fmtF 0x34 (d.setWidth 5) (rx a.val) (rx b.val) 0x01A)
  | .hshInit _ d a => some (fmtF 0x35 (rx d.val) (rx a.val) 0 0x000)
  | .hshKinit _ d a b => some (fmtF 0x35 (rx d.val) (rx a.val) (rx b.val) 0x001)
  | .hshAbs _ d a b => some (fmtF 0x35 (rx d.val) (rx a.val) (rx b.val) 0x002)
  | .hshAbsp _ d a b => some (fmtF 0x35 (rx d.val) (rx a.val) (rx b.val) 0x003)
  | .hshSqz _ d a b => some (fmtF 0x35 (rx d.val) (rx a.val) (rx b.val) 0x004)
  | .hshWait _ a => some (fmtF 0x35 0 (rx a.val) 0 0x005)
  | .hshFree _ a => some (fmtF 0x35 0 (rx a.val) 0 0x006)
  | .pkeCall _ d a => some (fmtF 0x36 (rx d.val) (rx a.val) 0 0x000)
  | .pkeWait _ d => some (fmtF 0x36 (rx d.val) 0 0 0x001)
  | .pkeAbort _ d => some (fmtF 0x36 (rx d.val) 0 0 0x002)
  | .dld _ d a b => some (fmtF 0x37 (rx d.val) (rx a.val) (rx b.val) 0x000)
  | .dstb _ d a b => some (fmtF 0x37 (rx d.val) (rx a.val) (rx b.val) 0x001)
  | .dadd _ d a b => some (fmtF 0x37 (rx d.val) (rx a.val) (rx b.val) 0x008)
  | .dsub _ d a b => some (fmtF 0x37 (rx d.val) (rx a.val) (rx b.val) 0x009)
  | .dcmp _ d a b => some (fmtF 0x37 (rx d.val) (rx a.val) (rx b.val) 0x00A)
  | .dpackE _ d a => some (fmtF 0x37 (rx d.val) (rx a.val) 0 0x010)
  | .dpackA _ d a => some (fmtF 0x37 (rx d.val) (rx a.val) 0 0x011)
  | .dpackEu _ d a => some (fmtF 0x37 (rx d.val) (rx a.val) 0 0x012)
  | .dpackAu _ d a => some (fmtF 0x37 (rx d.val) (rx a.val) 0 0x013)
  | .dunpkE _ d a => some (fmtF 0x37 (rx d.val) (rx a.val) 0 0x018)
  | .dunpkA _ d a => some (fmtF 0x37 (rx d.val) (rx a.val) 0 0x019)
  | .dcvb _ d a => some (fmtF 0x37 (rx d.val) (rx a.val) 0 0x020)
  | .dcvd _ d a => some (fmtF 0x37 (rx d.val) (rx a.val) 0 0x021)
  | .xlat _ d a b => some (fmtF 0x38 (rx d.val) (rx a.val) (b.setWidth 5) 0x000)
  | .xlatv _ d a b => some (fmtF 0x38 (rx d.val) (rx a.val) (b.setWidth 5) 0x001)
  | .xltSel _ d a => some (fmtF 0x38 (d.setWidth 5) (rx a.val) 0 0x002)
  | .luhnGen _ d a => some (fmtF 0x39 (rx d.val) (rx a.val) 0 0x000)
  | .luhnChk _ d a => some (fmtF 0x39 (rx d.val) (rx a.val) 0 0x001)
  | .m97Step _ d a b => some (fmtF 0x39 (rx d.val) (rx a.val) (rx b.val) 0x008)
  | .m97Gen _ d a => some (fmtF 0x39 (rx d.val) (rx a.val) 0 0x009)
  | .m97Chk _ d a => some (fmtF 0x39 (rx d.val) (rx a.val) 0 0x00A)
  | .yieldSlice _ => some (fmtF 0x3A 0 0 0 0x000)
  | .pmcRd _ d a => some (fmtF 0x3A (rx d.val) (rx a.val) 0 0x001)
  | .addi _ d a imm => some (fmtI 0x02 (rx d.val) (rx a.val) imm)
  | .andi _ d a imm => some (fmtI 0x03 (rx d.val) (rx a.val) imm)
  | .ori _ d a imm => some (fmtI 0x04 (rx d.val) (rx a.val) imm)
  | .xori _ d a imm => some (fmtI 0x05 (rx d.val) (rx a.val) imm)
  | .slti _ d a imm => some (fmtI 0x06 (rx d.val) (rx a.val) imm)
  | .sltiu _ d a imm => some (fmtI 0x07 (rx d.val) (rx a.val) imm)
  | .lb _ d a imm => some (fmtI 0x10 (rx d.val) (rx a.val) imm)
  | .lh _ d a imm => some (fmtI 0x11 (rx d.val) (rx a.val) imm)
  | .lw _ d a imm => some (fmtI 0x12 (rx d.val) (rx a.val) imm)
  | .ld _ d a imm => some (fmtI 0x13 (rx d.val) (rx a.val) imm)
  | .lbs _ d a imm => some (fmtI 0x14 (rx d.val) (rx a.val) imm)
  | .lhs _ d a imm => some (fmtI 0x15 (rx d.val) (rx a.val) imm)
  | .lws _ d a imm => some (fmtI 0x16 (rx d.val) (rx a.val) imm)
  | .sb _ d a imm => some (fmtI 0x18 (rx d.val) (rx a.val) imm)
  | .sh _ d a imm => some (fmtI 0x19 (rx d.val) (rx a.val) imm)
  | .sw _ d a imm => some (fmtI 0x1A (rx d.val) (rx a.val) imm)
  | .sd _ d a imm => some (fmtI 0x1B (rx d.val) (rx a.val) imm)
  | .callr _ d a imm => some (fmtI 0x27 (rx d.val) (rx a.val) imm)
  | .lv _ d a imm => some (fmtI 0x1C (rx d.val) (rx a.val) imm)
  | .sv _ d a imm => some (fmtI 0x1D (rx d.val) (rx a.val) imm)
  | .jeq _ a b off => some (fmtI 0x20 (rx a.val) (rx b.val) off)
  | .jne _ a b off => some (fmtI 0x21 (rx a.val) (rx b.val) off)
  | .jlt _ a b off => some (fmtI 0x22 (rx a.val) (rx b.val) off)
  | .jge _ a b off => some (fmtI 0x23 (rx a.val) (rx b.val) off)
  | .jlo _ a b off => some (fmtI 0x24 (rx a.val) (rx b.val) off)
  | .jhs _ a b off => some (fmtI 0x25 (rx a.val) (rx b.val) off)
  | .slli _ d a n => some (fmtI 0x08 (rx d.val) (rx a.val) ((0x0 : BitVec 2) ++ (0 : BitVec 8) ++ n))
  | .srli _ d a n => some (fmtI 0x08 (rx d.val) (rx a.val) ((0x1 : BitVec 2) ++ (0 : BitVec 8) ++ n))
  | .srai _ d a n => some (fmtI 0x08 (rx d.val) (rx a.val) ((0x2 : BitVec 2) ++ (0 : BitVec 8) ++ n))
  | .rori _ d a n => some (fmtI 0x08 (rx d.val) (rx a.val) ((0x3 : BitVec 2) ++ (0 : BitVec 8) ++ n))
  | .qset _ d imm q => some (fmtI 0x09 (rx d.val) (q.setWidth 5) imm)
  | .qins _ d imm q => some (fmtI 0x0A (rx d.val) (q.setWidth 5) imm)
  | .call _ d off => some (fmtJ 0x26 (rx d.val) off)
  | .crr _ d n => some (fmtI 0x2C (rx d.val) 0 (n.setWidth 16))
  | .crw _ n a => some (fmtI 0x2D 0 (rx a.val) (n.setWidth 16))
  | .jend _ a => some (fmtI 0x2D 0 (rx a.val) 0x10E)
  | .kcall _ imm => some (fmtI 0x30 0 0 imm)
  | .endJob _ => some (fmtI 0x30 0 0 0)
  | .kret _ => some (fmtI 0x30 0 1 0)
  | .fence _ mask => some (fmtI 0x30 0 2 (mask.setWidth 16))
  | .tlbfl _ d mode => some (fmtI 0x30 (rx d.val) 3 (mode.setWidth 16))
  | .dstop _ imm => some (fmtI 0x30 0 4 imm)
  | _ => none

end Sys2Proof
end

