-- ==== Sys2Proof/Config.lean ====
section
/-! DEFINITION. What the spec names and does not compute, and the free values: primitives of other standards (log 8) and random draws (log 9). Nothing here has a body, so no statement can rest on a value. -/

namespace Sys2Proof.Config

/-- The n-th draw of w random bits, from the DRBG instances or an entropy source (R201, R227, R248, R291; log 9). -/
opaque draw (w : Nat) : Nat → BitVec w

/-- AES of FIPS 197 under a 16, 24 or 32-byte key (R139, R144; log 8). -/
opaque aes (key : Bytes) (block : Blk) : Blk

/-- The inverse cipher of FIPS 197 (R144; log 8). -/
opaque aesInv (key : Bytes) (block : Blk) : Blk

/-- TDEA of SP 800-67 on one 8-byte block (R144; log 8). -/
opaque tdea (key : Bytes) (block : BitVec 64) : BitVec 64

/-- The inverse of TDEA (R144; log 8). -/
opaque tdeaInv (key : Bytes) (block : BitVec 64) : BitVec 64

/-- The digest of an unkeyed fixed-length algorithm of Table 04-8 (R157; log 8). -/
opaque hash (code : Nat) (message : Bytes) : Bytes

/-- n output bytes of SHAKE128 (false) or SHAKE256 (true), FIPS 202 (R157, R227; log 8). -/
opaque shake (is256 : Bool) (message : Bytes) (n : Nat) : Bytes

/-- HMAC under the hash of a code 0x01 to 0x06 (R157; log 8). -/
opaque hmac (code : Nat) (key message : Bytes) : Bytes

/-- KMAC128 or KMAC256 of SP 800-185, n output bytes, customisation string s, XOF or fixed length (R157, R246; log 8). -/
opaque kmac (is256 : Bool) (key message : Bytes) (n : Nat) (s : Bytes) (xof : Bool) : Bytes

/-- SHA3-256 (R308, R279; log 8). -/
opaque sha3 (message : Bytes) : Dig

/-- SHA3-384, the conditioner of R200 (log 8). -/
opaque sha3_384 (message : Bytes) : BitVec 384

/-- SP 800-90A CTR_DRBG generate: Key and V, additional input, bytes wanted; the bytes and the new Key and V (R201; log 8). -/
opaque drbgGenerate (work : BitVec 384) (extra : Bytes) (n : Nat) : Bytes × BitVec 384

/-- SP 800-90A CTR_DRBG instantiate without a derivation function: one seed and a personalisation string (R201; log 8). -/
opaque drbgInstantiate (seed : BitVec 384) (personal : Bytes) : BitVec 384

/-- SP 800-90A CTR_DRBG reseed (R201; log 8). -/
opaque drbgReseed (work seed : BitVec 384) : BitVec 384

/-- SP 800-38F KW wrap under a 32-byte key (R247, R272; log 8). -/
opaque kw (key data : Bytes) : Bytes

/-- KW unwrap: none where the check fails (R247; log 8). -/
opaque kwInv (key data : Bytes) : Option Bytes

/-- SP 800-38F KWP wrap (R287; log 8). -/
opaque kwp (key data : Bytes) : Bytes

/-- KWP unwrap: none where the check fails (R287; log 8). -/
opaque kwpInv (key data : Bytes) : Option Bytes

/-- AES-256-GCM encryption: key, IV, AAD, plaintext; ciphertext and tag (R279, R321; log 8). -/
opaque gcm (key iv aad plain : Bytes) : Bytes × BitVec 128

/-- AES-256-GCM decryption: none where the tag fails (R283, R323; log 8). -/
opaque gcmInv (key iv aad cipher : Bytes) (tag : BitVec 128) : Option Bytes

/-- The lane kernel a Hollow image holds, as the kernel area of a lane of a world takes it (R138, R426; log 8). -/
opaque laneKernel (hollowHash : Dig) (hollow : Bool) : Bytes

/-- The slot number of a directory entry: the spec does not say which slot a node takes (R253; free value, log 9). -/
opaque dirSlot (inst idx gen : Nat) : Nat

/-- The body of a ROOT journal entry: what a root record holds is named, its layout is not (R294, Table 07-13; free value, log 9). -/
opaque rootBody (label share : Bytes) (port : Nat) : Bytes

/-- The bytes PROG_LIST writes for a list of program ID, VERSION and measurement: the spec gives no layout (R178; free value, log 9). -/
opaque progList (programs : List (Nat × Nat × Dig)) : Bytes

/-- Does a signature verify: algorithm, public key, message, signature (R177, R292, R422, R428, R434; log 8). -/
opaque verify (alg : Nat) (pub message sig : Bytes) : Bool

/-- An XMSS signature of a leaf of an attestation tree (R423, R425; log 8). -/
opaque treeSign (secret : Bytes) (leaf : Nat) (message : Bytes) : Bytes

/-- The public key of an attestation tree (R423; log 8). -/
opaque treePublic (secret : Bytes) : Bytes

/-- ROM_HASH of the measurement vector: the boot ROM, the ROM library and the microcode are not in the spec (Table 07-2; log 8). -/
opaque romHash : Dig

/-- An ML-KEM key pair from a seed: encapsulation key and decapsulation key (R320; log 8). -/
opaque kemKeygen (seed : Bytes) : Bytes × Bytes

/-- ML-KEM encapsulation: ciphertext and shared secret (R321, R503; log 8). -/
opaque kemEncap (encapKey seed : Bytes) : Bytes × Bytes

/-- ML-KEM decapsulation (R323; log 8). -/
opaque kemDecap (decapKey cipher : Bytes) : Bytes

/-- What a public-key operation computes (R222). -/
structure PkeOut where
  status : BitVec 7
  outs : List Bytes
  secret : Option Bytes
deriving DecidableEq, Repr, Inhabited

/-- The digest of a checkpoint body: frame, a canonical text of its records (R380; log 8). -/
opaque ckptDigest (frame : Nat) (body : List Nat) : Dig

/-- The measurement of a ROM program's image (R178; the ROM is not in the spec, log 8). -/
opaque romMeasure (id : Nat) : Dig

/-- The instruction word of the ROM's and the kernel's images: the spec describes what they do, not their bytes (log 13). -/
opaque romEntry (id : Nat) : Nat

/-- The vendor's JEDEC manufacturer identity, bits [11:1] of the IDCODE (R508): the spec does not give it. -/
opaque jedec : BitVec 11

/-- Serial number of the unit, burnt before the model begins (R425). -/
opaque serial : Bytes

end Sys2Proof.Config
end

