-- ==== Sys2Proof/Machine/State.lean ====
section
/-! DEFINITION. The state of the WL-9640: every register, queue, store, mode and pin the spec gives the unit, as plain data, and its value in cold reset. Each field's docstring reads: width | rule | reset value. -/

namespace Sys2Proof.Machine

/-- What ends a step with a fault: nothing. The spec gives every command an effect in every state of the unit, the rejection of an access included (R334, R343), so no meaning faults. -/
inductive Fault where
deriving DecidableEq, Repr

/-- What a step refuses. -/
inductive Refusal where
  /-- Raised by Dispatch alone, for a command that has no meaning yet. Safe: nothing is proved of it. -/
  | notModelled (mnemonic : String)
deriving DecidableEq, Repr

/-! ## Jobs and lanes (02_jobs_and_queues.md, 03_geing_architecture.md, 04_geing_engine_instructions.md) -/

/-- The counter widths of R146. -/
inductive CWidth where
  | w32 | w64 | w128
deriving DecidableEq, Repr

/-- A counter register (R146). -/
structure Counter where
  /-- 128 | R146 | 0 -/ value : Blk := 0
  /-- 64 | R146 | 0 -/ limit : Word := 0
  /-- 32, 64 or 128 | R146 | w32 (DESIGN CHOICE, log 1; unused while unarmed) -/ width : CWidth := .w32
  /-- 1 | R146 | 0, unarmed -/ armed : Bool := false
  /-- 1 | R146 | 0 -/ spent : Bool := false
  /-- values delivered since arming | R148 | 0 -/ delivered : Nat := 0
deriving DecidableEq, Repr

/-- A trap: its cause and the fields of FSYN and FADDR (R124, R125); a field the spec leaves open for the cause is none and entry fills it with a free value (log 9). -/
structure Trap where
  cause : BitVec 8
  kind : Option (BitVec 3) := none
  stage : Option Bool := some false
  found : BitVec 4 := 0
  expected : BitVec 4 := 0
  info : BitVec 16 := 0
  faddr : Option Word := none
  key : Option Handle := none
deriving DecidableEq, Repr

/-- The level a lane executes at (R95). -/
inductive Level where
  | u | k
deriving DecidableEq, Repr

/-- A context record and the window it goes with (R86): what a register bank and a resident slot hold. -/
structure Ctx where
  /-- 32 x 64 | R88 | 0 (R94) -/ g : Vector Word 32 := Vector.replicate 32 0
  /-- 16 x 128 | R89 | 0 (R94) -/ v : Vector Blk 16 := Vector.replicate 16 0
  /-- 8 handles or empty | R90 | empty (R94) -/ k : Vector (Option Handle) 8 := Vector.replicate 8 none
  /-- 4 counters | R91 | value 0, limit 0 (R91) -/ c : Vector Counter 4 := Vector.replicate 4 {}
  /-- 64 | R94 | DESIGN CHOICE 0 (log 1) -/ pc : Word := 0
  /-- level | R95 | DESIGN CHOICE U (log 1) -/ level : Level := .u
  /-- 16, control register 0x00A | R92 | DESIGN CHOICE 0 (log 1); 0x7FFE at job start (R94) -/ cmask : BitVec 16 := 0
  /-- KSTAT.PL | R92 | DESIGN CHOICE U (log 1) -/ pl : Level := .u
  /-- KSTAT.IE | R92 | DESIGN CHOICE 0 (log 1) -/ ie : Bool := false
  /-- KSTAT.BANK | R92 | DESIGN CHOICE 0 (log 1) -/ bankBit : Bool := false
  /-- the held trap, for which KSTAT.HELD is set | R126 | none -/ held : Option Trap := none
  /-- KSTAT.HELD as written 1 with no trap held | R92 | DESIGN CHOICE 0 (log 1) -/ heldBit : Bool := false
  /-- 64, 0x101 | R92 | DESIGN CHOICE 0 (log 1) -/ kepc : Word := 0
  /-- 64, 0x102 | R125 | 0 (Table 03-17) -/ fsyn : Word := 0
  /-- 64, 0x103 | R92 | DESIGN CHOICE 0 (log 1) -/ faddr : Word := 0
  /-- [38:12], 0x104 | R92 | DESIGN CHOICE 0 (log 1) -/ kvec : Word := 0
  /-- 0x105 | R92 | DESIGN CHOICE 0 (log 1) -/ ttb1 : Word := 0
  /-- 0x107 | R92 | DESIGN CHOICE 0 (log 1) -/ winb : Word := 0
  /-- 0x108 to 0x10B | R92 | DESIGN CHOICE 0 (log 1) -/ kscr : Vector Word 4 := Vector.replicate 4 0
  /-- the WINB bounds in force, applied at KRET: size in bytes | R104 | 0 -/ winSize : Nat := 0
  /-- the WINB bounds in force, applied at KRET: byte of local store the window begins at | R92, R122 | DESIGN CHOICE 0 (log 1) -/ winAt : Nat := 0
  /-- up to 16 KiB, canonical cell list by offset | R98 | zero (R94) -/ window : List Host.Cell := []
  /-- 256 x 4 granule colours | R86 | 0x1 (R94) -/ colours : Vector (BitVec 4) 256 := Vector.replicate 256 1
  /-- the handle whose refusal raised the last trap, as the kernel reads it from the trapping instruction | R140 | none -/ refusedKey : Option Handle := none
  /-- window stores since the last FENCE with E: offset, length | R141 | empty -/ unfenced : List (Nat × Nat) := []
  /-- T2 to T7 selections, none the identity | R165 | identity -/ xlt : Vector (Option Nat) 6 := Vector.replicate 6 none
deriving DecidableEq, Repr

/-- What a waiting job waits for (Table 02-9). -/
inductive WaitFor where
  | pke | hash (ctx : Fin 4) | reservation | hollow
deriving DecidableEq, Repr

/-- The states of a job (R77); QUEUED is a ring entry, RELEASED a job no longer listed. -/
inductive JobState where
  | admitted | runnable | running | waiting (w : WaitFor) | finished
deriving DecidableEq, Repr

/-- A hash request (R195): an absorb of bytes already read, or a squeeze into the window. -/
inductive HashReq where
  | absorb (bytes : Bytes) (off len : Nat)
  | squeeze (off : Nat) (len : Nat)
deriving DecidableEq, Repr

/-- A hash context (R157, R194). -/
structure HashCtx where
  /-- 8 | R157 | none -/ alg : BitVec 8
  /-- gA [8], customisation first | R157 | none -/ custom : Bool := false
  /-- gA [9], XOF | R157 | none -/ xof : Bool := false
  /-- gA [10], prediction resistance | R157 | none -/ pr : Bool := false
  /-- key of a keyed context | R194 | none -/ key : Option Handle := none
  /-- the key's load is complete | R194 | 1 for a keyless context -/ loaded : Bool := true
  /-- customisation string absorbed | R157 | empty -/ s : Bytes := []
  /-- S not yet absorbed | R157 | as custom -/ wantS : Bool := false
  /-- message absorbed since the context opened | R158 | empty -/ msg : Bytes := []
  /-- output bytes already squeezed | R157 | 0 -/ squeezed : Nat := 0
  /-- length of the first squeeze issued, which fixes the later ones of KMAC without XOF | R157 | none -/ fixed : Option Nat := none
  /-- requests not complete, in issue order | R195 | empty -/ reqs : List HashReq := []
  /-- frame in which it began to wait | R196 | 0 -/ since : Nat := 0
  /-- place among all waits begun | R196 | 0 -/ turn : Nat := 0
  /-- frame it was opened in | R47 | 0 -/ openedAt : Nat := 0
  /-- DRBG instance serving the current squeeze | R202 | none -/ drbg : Option (Fin 8) := none
deriving DecidableEq, Repr

/-- Where a public-key call stands (R160, R218, R241). -/
inductive PkePhase where
  | queued | running | computed | written | latched | aborting | aborted
deriving DecidableEq, Repr

/-- A public-key call and its call record (R159, R219). -/
structure PkeCall where
  /-- 16 | R221 | none -/ op : BitVec 16
  /-- window offset of the call block | R159 | none -/ blockOff : Nat
  /-- CHAIN | R159 | none -/ chain : Bool
  /-- KEYREG's handle with USE_KEY | R159 | none -/ key : Option Handle
  /-- IN0 to IN5: offset, length | R159 | none -/ ins : List (Nat × Nat)
  /-- OUT0, OUT1: offset, length | R159 | none -/ outs : List (Nat × Nat)
  /-- place in the instance's call queue | R215 | none -/ order : Nat
  /-- | R160 | queued -/ phase : PkePhase := .queued
  /-- engine, once started | R219 | none -/ engine : Option (Fin 16) := none
  /-- second engine of a local repeat | R236 | none -/ second : Option (Fin 16) := none
  /-- frame of the start | R219 | 0 -/ start : Nat := 0
  /-- 64 bytes | R227 | none -/ seed : Option Bytes := none
  /-- inputs as read at the start | R218 | empty -/ inputs : List Bytes := []
  /-- status reached | R233 | OK -/ status : BitVec 7 := 0
  /-- outputs held until written | R236 | empty -/ results : List Bytes := []
  /-- secret of a result that becomes a node or the chained key | R226 | none -/ secret : Option Bytes := none
  /-- digest sent by the partner | R239 | none -/ twinDigest : Option Dig := none
  /-- restarted once after a watchdog | R47 | 0 -/ restarted : Bool := false
  /-- local repeat in cross-check mode | R240 | 0 -/ localRepeat : Bool := false
  /-- node index reserved for the secret, PENDING until the commit | R226 | none -/ made : Option Nat := none
  /-- the repeat's digests have matched: frame in which the outputs are written | R239 | none -/ matched : Option Nat := none
  /-- chained private key as read at the start | R214 | none -/ chainKey : Option Bytes := none
  /-- lengths of the outputs written to the window and not yet latched | R242 | empty -/ wrote : List Nat := []
  /-- fenced engine the call is to be started again after | R244 | none -/ movedFrom : Option (Fin 16) := none
deriving DecidableEq, Repr

/-- A job's operand region (R211 to R214). -/
structure Region0 where
  /-- 4 KiB regions held: 2, 4, 8 or 16 | R210 | none -/ size : Nat
  /-- engine holding it, none while spilled | R213 | none -/ engine : Option (Fin 16)
  /-- S0 to S5 | R214 | empty -/ retained : List Bytes := []
  /-- chained private key | R226 | none -/ chained : Option Bytes := none
  /-- last use | R213 | 0 -/ lru : Nat := 0
  /-- discarded when its engine was fenced | R238 | none -/ lost : Option (Fin 16) := none
  /-- S0 to S5 were discarded with it and nothing has replaced them | R238 | 0 -/ stale : Bool := false
  /-- second engine that holds a copy while a repeat runs | R236 | none -/ copy : Option (Fin 16) := none
deriving DecidableEq, Repr

/-- A walk of a scatter-gather list (R59, R60). -/
structure SglWalk where
  /-- entry index within the segment | R60 | 0 -/ index : Nat := 0
  /-- segments begun | R60 | 1 -/ segments : Nat := 1
  /-- buffers found | R60 | empty -/ bufs : List (Word × Nat) := []
  /-- LAST met | R60 | 0 -/ ended : Bool := false
  /-- address of the current segment after a CHAIN | R59 | none -/ seg : Option Word := none
  /-- the read of the next entry is outstanding | R60 | 0 -/ reading : Bool := false
deriving DecidableEq, Repr

/-- The stream ports of a job, held by its DMA mover (R150, R151). -/
structure Ports where
  /-- source bytes the mover has delivered to the read-ahead | R56 | empty -/ src : Bytes := []
  /-- source bytes for which reads were issued | R56 | 0 -/ asked : Nat := 0
  /-- bytes each si cursor has delivered, padding included | R152 | 0 -/ si : Vector Nat 4 := Vector.replicate 4 0
  /-- bytes accepted on so0, so1 | R152 | 0 -/ pushed : Vector Nat 2 := Vector.replicate 2 0
  /-- bytes accepted and not yet written | R153 | empty -/ heldOut : Vector Bytes 2 := Vector.replicate 2 []
  /-- bytes written through so0, so1 | R156 | 0 -/ written : Vector Nat 2 := Vector.replicate 2 0
  /-- SO.FIN done on so0, so1 | R155 | 0 -/ fin : Vector Bool 2 := Vector.replicate 2 false
  /-- source list walk | R60 | start -/ srcWalk : SglWalk := {}
  /-- destination list walk | R60 | start -/ dstWalk : SglWalk := {}
  /-- destination ranges to zero on failure | R72 | empty -/ dirtied : List (Word × Nat) := []
  /-- argument block delivered | R176 | none -/ arg : Option Bytes := none
  /-- the mover the job is bound to at admission (master 80 + n) | R151 | 0 -/ mover : Nat := 0
deriving DecidableEq, Repr

/-- A job in flight (R3, R77). -/
structure Job where
  /-- 14 | R92 | none -/ slot : Nat
  /-- admission order | R28 | none -/ order : Nat
  /-- 10 | R92 | none -/ inst : Nat
  /-- queue pair, none for a network request | R69 | none -/ q : Option (Fin 4)
  /-- session and message of a network request | R492 | none -/ net : Option (BitVec 32 × Nat) := none
  /-- ring index of the descriptor | R62 | none -/ ring : BitVec 16
  /-- the copy made at fetch | R58 | none -/ desc : Descriptor
  /-- admission frame A | R36 | none -/ admittedAt : Nat
  /-- program header and image as admitted | R179 | none -/ header : Header
  /-- ROM program | R168 | none -/ rom : Bool
  /-- | R77 | admitted -/ st : JobState := .admitted
  /-- 7 | R83 | OK -/ status : BitVec 7 := 0
  /-- frame S of a squash | R74 | none -/ squashed : Option Nat := none
  /-- DEADLINE_MISSED | R73 | 0 -/ missed : Bool := false
  /-- 16 | R71 | 0 -/ detail : BitVec 16 := 0
  /-- 128 | R70 | 0 -/ tag : Blk := 0
  /-- TAG_VALID | R70 | 0 -/ tagValid : Bool := false
  /-- frame L of the last slice | R74 | none -/ lastRun : Option Nat := none
  /-- the first slice has begun | R131 | 0 -/ started : Bool := false
  /-- slots used in the previous frame | R21 | 0 -/ used : Nat := 0
  /-- yielded in this frame | R167 | 0 -/ yielded : Bool := false
  /-- reserved invocation numbers by key register 0, 1 | R149 | empty -/ invs : List (Handle × List Nat) := []
  /-- invocations still to be reserved | R79 | 0 -/ invsWanted : List (Handle × Nat) := []
  /-- the keys bound: node index and version | R263 | empty -/ bound : List (Nat × Nat) := []
  /-- context block in DRAM | R87 | zero -/ block : Ctx := {}
  /-- | R151 | unbound -/ ports : Ports := {}
  /-- 4 contexts | R157 | none open -/ hash : Vector (Option HashCtx) 4 := Vector.replicate 4 none
  /-- the outstanding or completed call | R160 | none -/ pke : Option PkeCall := none
  /-- | R211 | none -/ region : Option Region0 := none
  /-- output not yet zeroed after a failure | R72 | 0 -/ zeroing : Bool := false
  /-- the partner must re-run or confirm it: checkpoint it is recorded finished in | R381 | none -/ finishCkpt : Option Nat := none
  /-- re-run after adoption | R392 | 0 -/ rerun : Bool := false
  /-- translation tables as admitted | R328 | empty -/ tables : Table Bytes := []
  /-- record map as admitted | R328 | none -/ map : Option RecMap := none
  /-- measurement of the program as admitted | R178 | none -/ measure : Dig := 0
  /-- image and constants of an owner program as admitted | R179 | none -/ image : Bytes := []
  /-- output of a network request: so0 bytes, result area | R493 | empty -/ netOut : Bytes × Bytes := ([], [])
  /-- OUT_CAP of a network request | R491 | none -/ outCap : Option Nat := none
  /-- nodes whose use block the job waits for | R264 | empty -/ usesWanted : List Nat := []
  /-- highest SEQ of the journal entries its changes made | R406 | 0 -/ journal : Nat := 0
  /-- seeds its calls take again after adoption, in order | R220 | empty -/ seeds : List Bytes := []
  /-- frame of its last progress record | R382 | none -/ progressAt : Option Nat := none
  /-- copy of the context latched for the checkpoint at the last context save | R136 | none -/ saved : Option Ctx := none
  /-- node index a key block import reserved, PENDING until the commit | R286 | none -/ made : Option Nat := none
deriving DecidableEq, Repr

/-- A TLB entry (R102, Table 03-1). -/
structure TlbEntry where
  hollow : Bool
  asid : BitVec 10
  page : Nat
  big : Bool
  ia : Nat
  out : Nat
  perms1 : BitVec 4
  perms2 : BitVec 4
deriving DecidableEq, Repr

/-- An entry of the translation walk cache: an intermediate table entry, by VMID, stage and the address it was read from (Table 03-1). -/
structure WalkEntry where
  vmid : Nat
  stage2 : Bool
  addr : Nat
  value : Nat
deriving DecidableEq, Repr

/-- A grant of contiguous slots on a lane (R18). -/
structure Grant where
  job : Nat
  first : Nat
  last : Nat
deriving DecidableEq, Repr

/-- One lane processor (R85). -/
structure Lane where
  /-- world assigned: Hollow | R96 | lanes 56 to 63 Hollow (R330) -/ hollow : Bool := false
  /-- job slot of the running slice | R133 | none -/ run : Option Nat := none
  /-- first slot of the slice | R92 | 0 -/ slotNow : Nat := 0
  /-- last slot of the slice | R92 | 0 -/ slotLast : Nat := 0
  /-- bank of the running slice | R133 | zero -/ bank : Ctx := {}
  /-- bank filled for the next slice | R133 | zero -/ idle : Ctx := {}
  /-- the bank of the running slice is the second one | R133 | DESIGN CHOICE 0 (log 1) -/ second : Bool := false
  /-- frame cycle the slice has reached at least (the model's own, log 9) | R92 | DESIGN CHOICE 0 (log 1) -/ now : Nat := 0
  /-- the last trap taken and the bank it was raised in, until the handler's first instruction retires | R126 | none -/ entry : Option (Ctx × Trap) := none
  /-- resident slots, least recently run first, 12 at most | R135 | empty -/ resident : List (Nat × Ctx) := []
  /-- grants of this frame | R134 | empty -/ grants : List Grant := []
  /-- 0x106, set by the owner of stage 2 | R92 | DESIGN CHOICE 0 (log 1) -/ ttb2 : Word := 0
  /-- 64 entries | R102 | empty -/ tlb : List TlbEntry := []
  /-- translation walk cache, 32 entries, oldest first | R102 | empty -/ walks : List WalkEntry := []
  /-- data cache: 64-byte lines held, oldest first, 256 at most; it holds no written lines, so their bytes are memory's (log 129) | Table 03-1, R117 | empty -/ dcache : List Nat := []
  /-- colours of the local store's granules outside the running window, by granule, those not 0 listed | R103, Table 03-1 | DESIGN CHOICE 0 (log 1) -/ tags : Table (BitVec 4) := []
  /-- stopped for a debugger | R132 | 0 -/ stopped : Bool := false
  /-- changed world in this frame: slots 10 to 31 only | R138 | 0 -/ changed : Bool := false
  /-- a debugger's single step is due | R358 | 0 -/ stepping : Bool := false
deriving DecidableEq, Repr

/-! ## The frame and the planner (01_frame.md) -/

/-- The five resources under share control (Table 01-4). -/
structure Five where
  lanes : Nat := 0
  cipher : Nat := 0
  pke : Nat := 0
  hash : Nat := 0
  drbg : Nat := 0
deriving DecidableEq, Repr

/-- The frame, the planner and the FRM_ registers (01_frame.md). -/
structure Frame where
  /-- 64, never wraps in the service life | R15 | 0 (Table 01-7) -/ num : Nat := 0
  /-- 14, the frame cycle a phase command stands at | R16 | 0 (DESIGN CHOICE, log 1) -/ cycle : Nat := 0
  /-- frames before any frame tick have no phase: the tick runs | R531 | 0 -/ ticking : Bool := false
  /-- FRM_NUM_HI as latched | R50 | 0x0000_0000 -/ numHi : Reg32 := 0
  /-- FRM_CTRL.LEND_EN | R50 | 1 -/ lendEn : Bool := true
  /-- FRM_CTRL.SHED_IRQ | R50 | 0 -/ shedIrq : Bool := false
  /-- FRM_CTRL.THERM_THRESH | R50 | 0x64 -/ thresh : Nat := 100
  /-- FRM_LEND.PKE_HORIZON | R50 | 0x0040 -/ horizon : Nat := 64
  /-- staged FRM_CTRL: LEND_EN, SHED_IRQ, THERM_THRESH | R50 | none -/ stagedCtrl : Option (Bool × Bool × Nat) := none
  /-- staged FRM_LEND | R50 | none -/ stagedLend : Option Nat := none
  /-- junction reading latched at cycle 0, degrees | R42 | 0 (Table 01-7) -/ tj : Int := 0
  /-- 2, thermal level | R42 | 0 -/ level : Nat := 0
  /-- consecutive cool readings | R42 | 0 -/ cool : Nat := 0
  /-- the level changed at cycle 0 of this frame | R51 | 0 -/ changed : Bool := false
  /-- FRM_STAT.SHED_SEEN | R50 | 0 -/ shedSeen : Bool := false
  /-- FRM_STAT.ALIGN_WARN | R50 | 0 -/ alignWarn : Bool := false
  /-- FRM_STAT.ADMIT_FULL | R50 | 0 -/ admitFull : Bool := false
  /-- FRM_STAT.INFLIGHT_FULL | R50 | 0 -/ inflightFull : Bool := false
  /-- FRM_STAT.FENCE_SEEN | R50 | 0 -/ fenceSeen : Bool := false
  /-- offset measured, ns | R45 | 0 -/ offset : Int := 0
  /-- FRM_ALIGN.LEADER | R50 | 1 -/ leader : Bool := true
  /-- FRM_ALIGN.SYNC_SRC | R50 | 0 -/ syncMarker : Bool := false
  /-- frames with the offset beyond 50 ns | R46 | 0 -/ badAlign : Nat := 0
  /-- a FRAME_SYNC edge or marker arrived in this frame | R45 | 0 -/ syncSeen : Bool := false
  /-- descriptors admitted in this frame | R22 | 0 -/ admitted : Nat := 0
  /-- demand measured per instance | R39 | 0 -/ demand : Table Five := []
  /-- grants of this frame per instance | R39 | 0 -/ grants : Table Five := []
  /-- work done in this frame: cipher dispatches, hash cycles in 288ths of a per-mille, DRBG bytes (the model's own measure, log 30) | R39 | empty -/ worked : Table Five := []
  /-- PKE engines assigned: engine to instance | R216 | none -/ assigned : Vector (Option Nat) 16 := Vector.replicate 16 none
deriving DecidableEq, Repr

/-! ## Cipher fabric, hash engines and random generation (05_cipher_hash_random.md) -/

/-- A raw block operation (Table 04-2). -/
inductive BlkOp where
  | enc | dec | tweak
deriving DecidableEq, Repr

/-- A block request held by the scheduler (R185, R188). -/
structure BlkReq where
  lane : Nat
  job : Nat
  inst : Nat
  op : BlkOp
  key : Handle
  src : Blk
  dst : VReg
  carried : Bool := false
  core : Option (Fin 20) := none
  /-- place among all dispatches, and the frame, in which a core took it | R180, R47 | 0, 0 -/ place : Nat := 0
  takenAt : Nat := 0
deriving DecidableEq, Repr

/-- An entry of the key-schedule store (R183). -/
structure KssEntry where
  hollow : Bool
  inst : Nat
  node : Nat
  version : Nat
  tweak : Bool
  loaded : Bool := false
  pinned : Bool := true
  /-- frame the load began | R47 | none -/ since : Nat := 0
deriving DecidableEq, Repr

/-- The cipher fabric (05_cipher_hash_random.md). -/
structure Cipher where
  /-- requests in issue order, 2,048 at most | R185 | empty -/ reqs : List BlkReq := []
  /-- key-schedule store, 12,288 entries, least recently used first | R183 | empty -/ kss : List KssEntry := []
  /-- cycle of each lane's last dispatch | R186 | 0 -/ lastDispatch : Vector Nat 64 := Vector.replicate 64 0
  /-- dispatch credit per instance | R189 | empty -/ credit : Table Int := []
  /-- dispatches made (the model's own: the order in which a core accepts) | R180 | 0 -/ dispatched : Nat := 0
deriving DecidableEq, Repr

/-- A CTR_DRBG (R201). -/
structure Drbg where
  /-- Key and V, none while not instantiated | R201 | none -/ work : Option (BitVec 384) := none
  /-- generate calls since the last reseed | R201 | 0 -/ calls : Nat := 0
  /-- frame of the last reseed | R201 | 0 -/ reseededAt : Nat := 0
  /-- stopped for want of a seed | R204 | 0 -/ stopped : Bool := false
  /-- the context served: job slot and context | R202 | none -/ busy : Option (Nat × Fin 4) := none
  /-- bytes of the current squeeze already generated | R202 | 0 -/ done : Nat := 0
  /-- its next call waits for credit or for a seed | R203, R204 | 0 -/ held : Bool := false
  /-- frame the squeeze served began | R47 | 0 -/ since : Nat := 0
deriving DecidableEq, Repr

/-- The continuous health tests of an entropy source (R198). -/
structure Health where
  /-- the last bit | R198 | 0 -/ last : Bool := false
  /-- identical bits in a row | R198 | 0 -/ run : Nat := 0
  /-- the first value of the window of 1,024 bits | R198 | 0 -/ first : Bool := false
  /-- bits of the window seen | R198 | 0 -/ pos : Nat := 0
  /-- occurrences of the first value | R198 | 0 -/ same : Nat := 0
deriving DecidableEq, Repr

/-- Hash and random engines (05_cipher_hash_random.md). -/
structure Engines where
  /-- Keccak credit per instance, cycles | R196 | empty -/ keccakCredit : Table Int := []
  /-- SHA-2 credit per instance, cycles | R196 | empty -/ shaCredit : Table Int := []
  /-- DRBG credit per instance, bytes | R203 | empty -/ drbgCredit : Table Int := []
  /-- chunk on each hash engine 0 to 5, 8 to 15: job slot, context, bytes | R195 | none -/ chunk : Vector (Option (Nat × Fin 4 × Nat)) 16 := Vector.replicate 16 none
  /-- frame the chunk on each hash engine was started in | R47 | 0 -/ chunkAt : Vector Nat 16 := Vector.replicate 16 0
  /-- contexts in the cache of 1,024 records, the most recent last: job slot and context | R194 | empty -/ ctxCache : List (Nat × Fin 4) := []
  /-- health tests of the four sources | R198 | as at their start -/ health : Vector Health 4 := Vector.replicate 4 {}
  /-- the source whose turn it is | R200 | DESIGN CHOICE 0 (log 1) -/ nextSource : Nat := 0
  /-- seed pool, 64 of 384 bits | R200 | empty -/ pool : List (BitVec 384) := []
  /-- 8 instances | R201 | uninstantiated -/ drbg : Vector Drbg 8 := Vector.replicate 8 {}
  /-- start of an entropy outage was recorded | R204 | 0 -/ noSource : Bool := false
  /-- waits of hash and random contexts begun (the model's own: it orders equal waits) | R196 | 0 -/ waits : Nat := 0
deriving DecidableEq, Repr

/-- A repeat this unit runs for its partner (R239). -/
structure TwinRepeat where
  /-- call and input record | R240 | none -/ call : CkptCall
  /-- frame of the confirmed checkpoint | R239 | none -/ ckpt : Nat
  /-- engine running it | R239 | none -/ engine : Option (Fin 16) := none
  /-- digest to return | R239 | none -/ digest : Option Dig := none
  /-- regions it takes | R210 | 2 -/ size : Nat := 2
deriving DecidableEq, Repr

/-- The public-key engines (06_pke_engine.md); calls and regions stand in their jobs. -/
structure PkeUnit where
  /-- job slot each engine runs a call for | R216 | none -/ running : Vector (Option Nat) 16 := Vector.replicate 16 none
  /-- repeats run for the partner | R239 | empty -/ twinRepeats : List TwinRepeat := []
  /-- next place in a call queue | R215 | 0 -/ nextOrder : Nat := 0
  /-- calls repeated on a single engine in this frame | R237 | 0 -/ singleRepeats : Nat := 0
  /-- the engine that repeated the last of them | R237 | 0 -/ singleEngine : Nat := 0
  /-- repeats of the partner whose digest has been sent: job slot, frame, engine | R239 | empty -/ repeated : List (Nat × Nat × Fin 16) := []
deriving DecidableEq, Repr

/-! ## The Quarry (07_quarry_keys.md) -/

/-- The states of a node (Table 07-5). -/
inductive NodeState where
  | pending | active | retired | revoked | erased | exhausted
deriving DecidableEq, Repr

/-- Where a node's key comes from (ORIGIN, Table 07-4). -/
inductive Origin where
  | derived | generated | imported | carried
deriving DecidableEq, Repr

/-- A node record and its stored material (R253, R254). -/
structure Node where
  /-- 128 | R254 | none -/ labelDig : BitVec 128
  /-- 34 | R254 | none -/ parent : Nat
  /-- 4 | R254 | none -/ level : Nat
  /-- 2 | R254 | none -/ origin : Origin
  /-- 8 | R254 | none -/ ktype : BitVec 8
  /-- 4 | R254 | none -/ state : NodeState
  /-- 12 | R254 | none -/ allocGen : Nat
  /-- 32 | R254 | none -/ gen : Nat
  /-- 16 | R254 | none -/ usage : BitVec 16
  /-- 16: EXPORT, expiry, CTR_MODE, TDEA_OK, INV_LOG2, USE_LIM | R254 | none -/ policy : BitVec 16
  /-- 40 | R254 | none -/ useCnt : Nat
  /-- 8 | R254 | none -/ bind : Nat
  /-- 48 | R254 | none -/ invBlk : Nat
  /-- 7 | R254 | none -/ useBlk : Nat
  /-- 5 | R254 | none -/ ext : Nat
  /-- 64 | R254 | none -/ created : Nat
  /-- stored form | R259 | empty for a derived node -/ material : Bytes
  /-- public part | R259 | empty -/ pub : Bytes
  /-- next invocation of the current block and its end | R265 | none -/ invCur : Option (Nat × Nat) := none
  /-- block of invocations or leaves requested: the frame of the request, its number | R265 | none -/ asked : Option (Nat × Nat) := none
  /-- use block requested: the frame of the request, its uses | R264 | none -/ askedUse : Option (Nat × Nat) := none
  /-- XMSS: next leaf and end of the reserved leaves | R228 | 0, 0 -/ leaf : Nat × Nat := (0, 0)
deriving DecidableEq, Repr

/-- The index states of a directory entry (R253). -/
inductive IndexState where
  | free | allocated | dead
deriving DecidableEq, Repr

/-- A directory entry and its node (R253). -/
structure DirEntry where
  /-- 4 | R253 | FREE -/ state : IndexState := .free
  /-- 12 | R253 | 0 -/ lastGen : Nat := 0
  /-- record and material of the slot | R253 | none -/ node : Option Node := none
  /-- old versions held by jobs | R268 | none -/ shadows : List Node := []
deriving DecidableEq, Repr

/-- A cut-cache entry's tag and value (R278). -/
structure CutEntry where
  hollow : Bool
  inst : Nat
  node : Nat
  level : Nat
  versions : List Nat
  reachable : Bool
  value : Bytes
deriving DecidableEq, Repr

/-- The address of a reply. -/
inductive Dest where
  | mailbox (inst : Nat)
  | port (c : Fin 2)
deriving DecidableEq, Repr

/-- A journal entry waiting or written (R279). -/
structure Staged where
  seq : Nat
  frame : Nat
  inst : Nat
  kind : Nat
  node : Nat
  chain : BitVec 128
  /-- the 192 bytes of the entry (Table 07-13) -/ bytes : Bytes
deriving DecidableEq, Repr

/-- An entry of the MRAM reservation log (Table 07-9, R281). -/
structure ResEntry where
  inst : Nat
  node : Nat
  gen : Nat
  /-- a block of uses, not of invocations -/ uses : Bool := false
  /-- the block requested: its number; of a use block the USE_CNT left after it (log 149) -/ block : Nat
  /-- SEQ the next journal entry would take when it was written: a later record covers it -/ seq : Nat
deriving DecidableEq, Repr

/-- Reclaim work on an erased subtree or a removed instance (R270, R300). -/
structure Reclaim where
  inst : Nat
  root : Nat
  /-- indices to free -/ todo : List Nat
  /-- indices freed -/ freed : Nat := 0
  /-- the directory of a removed instance, empty while the instance exists -/ orphans : Table DirEntry := []
deriving DecidableEq, Repr

/-- The Quarry: derivation engine, cut cache, journal, reservation log, custody (07_quarry_keys.md). Node directories stand in their instances. -/
structure Quarry where
  /-- 256, L0 | R246 | none, recomputed at each start -/ l0 : Option Dig := none
  /-- 256, L1 | R246 | none -/ l1 : Option Dig := none
  /-- 256, L2 as unwrapped | R247 | none -/ l2 : Option Dig := none
  /-- 256, session root | R251 | none -/ session : Option Dig := none
  /-- owner keys available after a restore | R283 | 0 -/ ownerKeys : Bool := false
  /-- MRAM CURRENT: KW wrap and the HOLLOW_HASH it was sealed for | R272 | none -/ current : Option (Bytes × Dig) := none
  /-- MRAM FORWARD: the same, and valid | R272 | none -/ forward : Option (Bytes × Dig × Bool) := none
  /-- 131,072 entries, least recently used first | R278 | empty -/ cut : List CutEntry := []
  /-- MRAM reservation log, 262,144 entries | R281 | empty -/ resLog : List ResEntry := []
  /-- JID | R279 | 0 -/ jid : BitVec 128 := 0
  /-- next SEQ | R279 | 1 -/ seq : Nat := 1
  /-- CHAIN of the last entry | R279 | 0 -/ chain : BitVec 128 := 0
  /-- journal staging area, 1,048,576 entries | R280 | empty -/ staging : List Staged := []
  /-- entries written to the ring and above the durable SEQ | R284 | empty -/ written : List Staged := []
  /-- ring: base, j, EN | R284 | 0, 0, 0 (not configured) -/ ring : Word × Nat × Bool := (0, 0, false)
  /-- durable SEQ and CHAIN, MRAM | R280 | 0, 0 -/ durable : Nat × BitVec 128 := (0, 0)
  /-- anchors: SEQ and CHAIN of SNAP_BEGIN of the last two durable snapshots | R282 | none -/ anchors : List (Nat × BitVec 128) := []
  /-- JRNL_SNAP requests that wait for the running snapshot | R285 | empty -/ snapAsk : List (Dest × BitVec 16) := []
  /-- replies owed when a SNAP_END is written: its SEQ, its SNAP_BEGIN's, address and TAG | R285 | empty -/ snapOwed : List (Nat × Nat × Dest × BitVec 16) := []
  /-- snapshot running: SNAP_BEGIN SEQ, what is left as instance and 2 x node for a record, 2 x first index + 1 for a directory block | R282 | none -/ snap : Option (Nat × List (Nat × Nat)) := none
  /-- snapshots ended and not yet durable: SNAP_BEGIN SEQ, its CHAIN, SNAP_END SEQ | R282 | empty -/ snapEnds : List (Nat × BitVec 128 × Nat) := []
  /-- CHAIN of the running snapshot's SNAP_BEGIN | R282 | 0 -/ snapChain : BitVec 128 := 0
  /-- restore open: SEQ and CHAIN reached, entries held | R283 | none -/ restore : Option (Nat × BitVec 128 × List JEntry) := none
  /-- frame of the last JRNL_WAIT | R285 | none -/ waitAt : Option Nat := none
  /-- reclaim work | R270 | empty -/ reclaim : List Reclaim := []
  /-- outstanding challenges with their issue frame, oldest first, 64 at most | R291 | empty -/ challenges : List (BitVec 128 × Nat) := []
  /-- custodian register: index, algorithm 1 ML-DSA-65 or 2 ECDSA P-384, public key | R289 | empty -/ custodians : List (Nat × Nat × Bytes) := []
  /-- Q3, Q4 | R289 | 0, 0 (DESIGN CHOICE, log 1; set at commissioning) -/ quorum : Nat × Nat := (0, 0)
  /-- program-signing keys 0 to 7: algorithm and key | R177 | empty -/ progKeys : List (Nat × Nat × Bytes) := []
  /-- record slots in use in the whole key store | R277 | 0 -/ slotsUsed : Nat := 0
deriving DecidableEq, Repr

/-! ## Instances (08_instances.md) -/

/-- A queue pair: rings, doorbells and the Q_ registers (Tables 02-5, 02-6). -/
structure QPair where
  /-- 64, Q_SQ_BASE | R69 | 0 -/ sqBase : Word := 0
  /-- 64, Q_CQ_BASE | R69 | 0 -/ cqBase : Word := 0
  /-- 4, Q_SIZE.SQ_LOG2 | R69 | 6 -/ sqLog : Nat := 6
  /-- 4, Q_SIZE.CQ_LOG2 | R69 | 6 -/ cqLog : Nat := 6
  /-- Q_CTRL.EN | R69 | 0 -/ en : Bool := false
  /-- Q_CTRL.IRQ_EN | R69 | 0 -/ irqEn : Bool := false
  /-- Q_CTRL.COAL_COUNT | R69 | 0 -/ coalCount : Nat := 0
  /-- Q_CTRL.COAL_FRAMES | R69 | 0 -/ coalFrames : Nat := 0
  /-- 16, descriptors taken by admission | R64 | 0 -/ taken : BitVec 16 := 0
  /-- 16, Q_SQ_HEAD | R69 | 0 -/ sqHead : BitVec 16 := 0
  /-- 16, Q_CQ_TAIL | R69 | 0 -/ cqTail : BitVec 16 := 0
  /-- Q_CQ_TAIL.PHASE | R69 | 1 -/ phase : Bool := true
  /-- Q_STAT.ACTIVE | R69 | 0 -/ active : Bool := false
  /-- Q_STAT.QUIESCED | R69 | 1 -/ quiesced : Bool := true
  /-- Q_STAT.RING_ERR | R69 | 0 -/ ringErr : Bool := false
  /-- Q_STAT.CQ_FULL | R69 | 0 -/ cqFull : Bool := false
  /-- Q_STAT.INFLIGHT | R69 | 0 -/ inflight : Nat := 0
  /-- DB_SQ_TAIL last written | R68 | 0 -/ sqTail : BitVec 16 := 0
  /-- DB_SQ_TAIL latched at cycle 0 | R63 | 0 -/ sqLatched : BitVec 16 := 0
  /-- DB_CQ_HEAD | R68 | 0 -/ cqHead : BitVec 16 := 0
  /-- descriptors announced and fetched, from index taken on | R63 | empty -/ fetched : List Descriptor := []
  /-- fetched by the last cycle 0 | R63 | 0 -/ ready : Nat := 0
  /-- a fetch is on the host link | R63 | 0 -/ fetching : Nat := 0
  /-- DB_CANCEL values queued, 16 at most | R82 | empty -/ cancels : List Reg32 := []
  /-- cancels latched at cycle 0 | R82 | empty -/ cancelsNow : List Reg32 := []
  /-- completions written since the last message, without NO_IRQ | R76 | 0 -/ unsignalled : Nat := 0
  /-- frame of the oldest of them | R76 | none -/ oldest : Option Nat := none
  /-- frame the ring was found full with its head unchanged | R47 | none -/ fullSince : Option Nat := none
  /-- frame the host last advanced DB_CQ_HEAD | R48 | none -/ headMoved : Option Nat := none
deriving DecidableEq, Repr

/-- Instance states (Table 08-6). -/
inductive InstState where
  | active | stalled | resetting | frozen | exported | removing | dormant
deriving DecidableEq, Repr

/-- A reply or notice waiting for its tail (R310). -/
structure Reply where
  dest : Dest
  mtype : Nat
  status : BitVec 8
  tag : BitVec 16
  notice : Bool := false
  interim : Bool := false
  body : Bytes
  /-- first frame at whose tail it may be written -/ due : Nat
  /-- highest SEQ of the journal entries of the change it reports (R406) -/ journal : Nat := 0
deriving DecidableEq, Repr

/-- Dirty logging of an instance (R316). -/
structure Dirty where
  /-- EN | R316 | 0 -/ en : Bool := false
  /-- buffers A and B | R316 | 0 -/ a : Word := 0
  /-- | R316 | 0 -/ b : Word := 0
  /-- RANGE_BASE | R316 | 0 -/ base : Nat := 0
  /-- RANGE_LEN | R316 | 0 -/ len : Nat := 0
  /-- the active buffer is B | R316 | 0 -/ onB : Bool := false
  /-- pages marked in the active buffer, rising | R317 | empty -/ marks : List Nat := []
  /-- pages marked in the other buffer | R318 | empty -/ other : List Nat := []
  /-- writes outside the range since the last swap | R317 | 0 -/ outside : Nat := 0
  /-- the same, of the period that the swap ended | R318 | 0 -/ outsideOld : Nat := 0
  /-- swap committed and not complete: its reply | R318 | none -/ swap : Option (Dest × BitVec 16) := none
deriving DecidableEq, Repr

/-- A reset or removal in progress (Table 08-8). -/
structure Reset where
  /-- removal | R300 | 0 -/ remove : Bool
  /-- by function-level reset | R313 | 0 -/ flr : Bool
  /-- frame F of the request | R313 | none -/ at_ : Nat
  /-- step reached: 0 staged, 2 squashed, 5 cleared | R313 | 0 -/ step : Nat := 0
  /-- replies owed at step 6: destination, type, tag | R315 | empty -/ owed : List (Dest × Nat × BitVec 16) := []
  /-- the instance was EXPORTED and stays so | R315 | 0 -/ exported : Bool := false
  /-- INST_REMOVEs that arrived during the reset | R315 | none -/ thenRemove : List (Dest × BitVec 16) := []
deriving DecidableEq, Repr

/-- A migration export in progress (R321). -/
structure Export where
  dest : Dest
  tag : BitVec 16
  /-- I/O virtual address of the next part -/ addr : Word
  /-- parts of the package not yet written: header and encapsulation, chunks, trailer -/ parts : List Bytes
deriving DecidableEq, Repr

/-- An owner program as loaded (R179). -/
structure Program where
  header : Header
  measure : Dig
  slots : Nat
  version : Nat
  image : Bytes
deriving DecidableEq, Repr

/-- An instance (R294). -/
structure Inst where
  /-- Table 08-2 | R297 | from record -/ share : Share
  /-- STATE | R312 | 0x1 ACTIVE -/ state : InstState := .active
  /-- the host port of its function | R299 | 0 -/ port : Nat := 0
  /-- 32-byte creation label, in the MRAM root record | R248 | none -/ label : Bytes := []
  /-- the four queue pairs | R69 | Table 02-6 -/ qs : Vector QPair 4 := Vector.replicate 4 {}
  /-- 16 x 512, MB_REQ | R304 | 0 -/ req : Vector Bytes 16 := Vector.replicate 16 []
  /-- 16 x 512, MB_RSP | R304 | 0 -/ rsp : Vector Bytes 16 := Vector.replicate 16 []
  /-- 8, MB_REQ_TAIL | R304 | 0x00 -/ reqTail : BitVec 8 := 0
  /-- MB_REQ_TAIL latched at cycle 0 | R305 | 0 -/ reqLatched : BitVec 8 := 0
  /-- 8, MB_REQ_HEAD | R304 | 0x00 -/ reqHead : BitVec 8 := 0
  /-- 8, MB_RSP_TAIL | R304 | 0x00 -/ rspTail : BitVec 8 := 0
  /-- 8, MB_RSP_HEAD | R304 | 0x00 -/ rspHead : BitVec 8 := 0
  /-- MB_CTRL.IRQ_EN | R304 | 0 -/ mbIrq : Bool := false
  /-- MB_STAT.ERR | R304 | 0 -/ mbErr : Bool := false
  /-- MB_STAT.RSP_FULL | R304 | 0 -/ rspFull : Bool := false
  /-- MB_STAT.OUTSTANDING | R304 | 0 -/ outstanding : Nat := 0
  /-- node directory by index | R253 | bench only -/ dir : Table DirEntry := []
  /-- binding table: index and measurement | R256 | empty -/ binds : Table Dig := []
  /-- programs by ID | R179 | empty -/ progs : Table Program := []
  /-- record maps by ID | R326 | empty -/ maps : Table RecMap := []
  /-- translation tables by number, 256 bytes | R327 | empty -/ tables : Table Bytes := []
  /-- key-store slots in use | R277 | 0 -/ slotsUsed : Nat := 0
  /-- | R316 | off -/ dirty : Dirty := {}
  /-- | R313 | none -/ reset : Option Reset := none
  /-- MIG_FREEZE awaiting its reply | R319 | none -/ freeze : Option (Dest × BitVec 16) := none
  /-- | R321 | none -/ export_ : Option Export := none
  /-- a shrink pending: its reply | R302 | none -/ shrink : Option (Dest × BitVec 16) := none
  /-- served by the shadow | R391 | 0 -/ shadow : Bool := false
  /-- 1008 events counted this frame | R128 | 0 -/ laneEvents : Nat := 0
  /-- Bus Master Enable of its function | R477 | 0 (PCI Express resets it to 0: PRESUMED, log 1) -/ bme : Bool := false
  /-- open network sessions | R303 | 0 -/ sessions : Nat := 0
  /-- MSI-X: vectors masked | R76 | 1, masked (PRESUMED: PCIe) -/ vecMask : Vector Bool 2 := Vector.replicate 2 true
  /-- MSI-X: pending bits | R76 | 0 -/ vecPend : Vector Bool 2 := Vector.replicate 2 false
  /-- words 0x3000 to 0x302C of the status block as latched at the last tail, by offset; none before it | R312 | from record -/ regs : Table Reg32 := []
  /-- the pair that stalled it and the frame it became STALLED | R47 | none -/ stall : Option (Nat × Nat) := none
  /-- stage-1 tables of the kernel for this instance: base | R131 | DESIGN CHOICE 0 (log 1) -/ stage1 : Word := 0
deriving DecidableEq, Repr

/-- A forwarded request (R309). -/
structure Forward where
  num : Nat
  inst : Nat
  slot : Nat
  tag : BitVec 16
  latched : Nat
deriving DecidableEq, Repr

/-- A kept decapsulation key (R320). -/
structure TargetKey where
  encap : Bytes
  decap : Bytes
deriving DecidableEq, Repr

/-- The mailbox and migration state of the unit (08_instances.md). -/
structure Mail where
  /-- replies and notices waiting | R310 | empty -/ replies : List Reply := []
  /-- requests consumed in this frame | R305 | 0 -/ consumed : Nat := 0
  /-- forwarded requests awaiting an answer | R309 | empty -/ forwards : List Forward := []
  /-- next forward number | R309 | DESIGN CHOICE 0 (log 1) -/ nextForward : Nat := 0
  /-- requests held for the Hollow: source, tag, type, latched frame | R310 | empty -/ hollowWait : List (Src × BitVec 16 × Nat × Nat) := []
  /-- decapsulation keys, four most recent | R320 | empty -/ targets : List TargetKey := []
deriving DecidableEq, Repr

/-! ## Worlds and protection (09_worlds_and_protection.md) -/

/-- A violation report (Table 09-10). -/
structure Violation where
  addr : Nat
  frame : Nat
  kind : Nat
  cause : Nat
  hollow : Bool
  master : Nat
  ctrl : Nat
  region : Option Nat
  expected : BitVec 4
  found : BitVec 4
  inst : Nat
  priv : Bool
  part : Nat
  length : Nat
  job : Option Nat
  suppressed : Nat
deriving DecidableEq, Repr

/-- A protection change staged in the change log (R350, R352). -/
inductive ProtChange where
  | region (ctrl : Fin 4) (i : Fin 16) (r : Region)
  | pot (page count : Nat) (o : PageOwner)
  | tag (page : Nat) (colours : List (BitVec 4))
  | rule (c : Ctxt) (i : Fin 32) (r : Rule)
  | s2 (addr : Nat) (entry : Word)
  | s2root (vmid : Nat) (root : Word)
deriving DecidableEq, Repr

/-- The states of the Hollow (PRT_STAT.HOLLOW_STATE). -/
inductive HollowState where
  | running | restarting | halted
deriving DecidableEq, Repr

/-- A pending gate request (R365). -/
structure Gate where
  domain : Nat
  action : Nat
  tag : BitVec 16
  commit : Nat
  interim : Bool := false
  denied : Bool := false
  /-- something ran in the domain, or the Hollow used it, in the frame before | R365 | 0 -/ busy : Bool := false
deriving DecidableEq, Repr

/-- Protection, worlds, debug enables and gating (09_worlds_and_protection.md). -/
structure Prot where
  /-- 4 x 16 region registers, those ever set listed by 16 x controller + index | R335 | EN 0; Table 09-4 loaded at start -/ regions : Table Region := []
  /-- page owner table, runs of pages with one value, later first | R337 | unowned (0) -/ pot : List (Nat × Nat × PageOwner) := []
  /-- tag table: granule colours of a page with TAGGED 1 | R337 | DESIGN CHOICE 0 (log 1) -/ tags : Table (List (BitVec 4)) := []
  /-- rule table: context, index, rule | R341 | empty -/ rules : List (Ctxt × Nat × Rule) := []
  /-- stage-2 roots by VMID | R351 | DESIGN CHOICE 0 (log 1) -/ s2roots : Table Word := []
  /-- change log, in staging order | R352 | empty -/ log : List ProtChange := []
  /-- WORLD_SET staged: Hollow lanes | R330 | none -/ worldStaged : Option (BitVec 64) := none
  /-- 32, PRT_EPOCH | R353 | 0x0000_0000 -/ epoch : Reg32 := 0
  /-- masters with an old-epoch access outstanding | R354 | empty -/ fence : List Nat := []
  /-- PRT_STAT.HOLLOW_STATE | R368 | 0 running -/ hollow : HollowState := .running
  /-- frames since the Hollow watchdog was served | R360 | 0 -/ watchdog : Nat := 0
  /-- restart due at the next cycle 0: 1 watchdog, 2 core fault | R360 | none -/ restartDue : Option Nat := none
  /-- frame the running restart began | R360 | none -/ restartAt : Option Nat := none
  /-- frames of the restarts since start, latest first | R362 | empty -/ restarts : List Nat := []
  /-- PRT_HOLLOW_RST.FRAMES | R368 | 0 -/ restartFrames : Nat := 0
  /-- PRT_DBG [6:0] | R368 | 0 -/ dbg : BitVec 7 := 0
  /-- frames of validity left; none until reset | R368 | 0 -/ dbgLeft : Option Nat := some 0
  /-- rights whose validity has ended, to clear at the next commit | R356 | 0 -/ dbgEnding : Bool := false
  /-- PRT_VIOL_CNT | R368 | 0 -/ violAll : Nat := 0
  /-- PRT_VIOL_PLAIN | R368 | 0 -/ violPlain : Nat := 0
  /-- violation ring, 256, oldest first | R349 | empty -/ ring : List Violation := []
  /-- PRT_LAST | R349 | none (reads 0) -/ last : Option Violation := none
  /-- masters reported in event 0x2001 in this frame | R349 | empty -/ reported : List Nat := []
  /-- reports suppressed per master | R348 | 0 -/ suppressed : Table Nat := []
  /-- clock-gated domains | R364 | 0 -/ clockGated : BitVec 32 := 0
  /-- power-gated domains | R364 | 0 -/ powerGated : BitVec 32 := 0
  /-- division of domain 22: 0 is 1, 1 is 2, 2 is 4 | R364 | 0 -/ div : Nat := 0
  /-- gate requests pending | R365 | empty -/ gates : List Gate := []
  /-- ungates in power-up: domain, action, tag, frame committed | R367 | empty -/ ungates : List Gate := []
  /-- control cores halted by a debugger | R358 | empty -/ haltedCores : List Nat := []
  /-- boot HOLLOW_HASH | R360 | none -/ bootHash : Option Dig := none
deriving DecidableEq, Repr

/-! ## Twin and passes (10_twin_and_passes.md), links of the twin (13_links.md) -/

/-- TWN_STAT.STATE. -/
inductive PairState where
  | unpaired | pairing | paired | split | solo | resync | silent
deriving DecidableEq, Repr

/-- A network endpoint (R486). -/
structure Endpoint where
  inst : Nat
  vlan : Option Nat
  addr : BitVec 128
deriving DecidableEq, Repr

/-- A request message being reassembled (R491). -/
structure NetMsg where
  msg : Nat
  parts : List (Nat × Bytes)
  whole : Option Bytes := none
  arrived : Nat
  taken : Bool := false
  /-- its response has been queued -/ responded : Bool := false
deriving DecidableEq, Repr

/-- A data datagram sent and not acknowledged: its bytes, the frame of the last sending, sendings repeated (R493). -/
structure Sent where
  seq : Nat
  msg : Nat
  bytes : Bytes
  sentAt : Nat
  tries : Nat := 0
deriving DecidableEq, Repr

/-- A fragment of a response that waits for the window (R490, R493). -/
structure Fragment where
  msg : Nat
  offset : Nat
  payload : Bytes
  first : Bool
  last : Bool
deriving DecidableEq, Repr

/-- A Nernaosh session (R489). -/
structure Session where
  /-- 32 | R489 | none -/ id : BitVec 32
  /-- | R489 | none -/ inst : Nat
  /-- where its last valid datagram came from | R483 | none -/ peer : NetAddr
  /-- the key K: node index | R489 | none -/ node : Nat
  /-- KS | R489 | none -/ ks : Dig
  /-- MSS | R489 | none -/ mss : Nat
  /-- next SEQ expected from the peer | R488 | 1 -/ rxNext : Nat := 1
  /-- highest SEQ acknowledged to the peer | R493 | 0 -/ acked : Nat := 0
  /-- data datagrams held out of order | R490 | empty -/ held : List Datagram := []
  /-- requests | R491 | empty -/ msgs : List NetMsg := []
  /-- next SEQ to send | R488 | 1 -/ txSeq : Nat := 1
  /-- the peer accepts SEQ below this: its ACK plus WINDOW | R490 | 0 -/ limit : Nat := 0
  /-- fragments of responses not yet sent | R493 | empty -/ queue : List Fragment := []
  /-- sent and unacknowledged | R493 | empty -/ unacked : List Sent := []
  /-- frames whose data datagrams are not yet acknowledged, with the highest SEQ in order at the end of each | R493 | empty -/ arrivals : List (Nat × Nat) := []
  /-- frame of the last valid datagram | R494 | 0 -/ lastSeen : Nat
deriving DecidableEq, Repr

/-- What a progress record carries: context record and window, stream-port positions, open hash contexts (Table 10-3). -/
structure Progress where
  ctx : Ctx
  si : Vector Nat 4
  pushed : Vector Nat 2
  written : Vector Nat 2
  hash : Vector (Option HashCtx) 4
deriving DecidableEq, Repr

/-- The record of a public-key operation in flight (R219): job slot, call block, engine, start frame, seed, micro-steps done. -/
structure CallRecord where
  slot : Nat
  op : BitVec 16
  chain : Bool
  key : Option Handle
  ins : List (Nat × Nat)
  outs : List (Nat × Nat)
  engine : Option (Fin 16)
  start : Nat
  seed : Option Bytes
  steps : BitVec 32
deriving DecidableEq, Repr

/-- The records of a checkpoint body in the order of Table 10-3: commit records by their number, replies, sessions, calls, input records, finish, admission and progress records, and the job slots that hold an operand region or have an operation outstanding (log 142). -/
structure BodyRecords where
  commits : List Bytes := []
  replies : List Reply := []
  sessions : List Session := []
  calls : List CallRecord := []
  inputs : List CkptCall := []
  finished : List CkptJob := []
  admitted : List CkptJob := []
  progress : Option (Nat × Progress) := none
  held : List Nat := []
deriving DecidableEq, Repr

/-- What a twin link frame of the unit carries, by channel of Table 13-11; the spec gives no byte layout of the payloads. -/
inductive TwinMsg where
  /-- channel 1 -/
  | marker (frame : Nat)
  /-- channel 2: the body of a checkpoint, with its digest -/
  | body (frame : Nat) (digest : Dig) (records : BodyRecords)
  /-- channel 3 -/
  | exchange (x : Exchange)
  /-- channel 3: the silent marker with its cause (R387) -/
  | silent (cause : Nat)
  /-- channel 4: entries of home commits -/
  | replication (entries : List Staged)
  /-- channel 5: the copy of an instance, all of it -/
  | bulk (inst : Nat) (data : Bytes)
  /-- channel 6: 0 the nonce of a link-up, or a step of the ceremony (Table 10-1) -/
  | pairing (step : Nat) (body : Bytes)
  /-- channel 7 -/
  | retry (channel firstMissing : Nat)
deriving DecidableEq, Repr

/-- A checkpoint this unit sealed (R380). -/
structure Checkpoint where
  frame : Nat
  digest : Dig
  kib : Nat
  finished : List Nat
  admitted : List Nat
  refusals : Nat := 0
  confirmed : Bool := false
  records : BodyRecords := {}
deriving DecidableEq, Repr

/-- A body received from the partner, whole and valid (R383, R390). -/
structure Received where
  frame : Nat
  digest : Dig
  jobs : List CkptJob
  calls : List CkptCall := []
  commits : List (Nat × Bytes) := []
  replies : List (Nat × Bytes) := []
  sessions : List Bytes := []
  entries : Nat := 0
  confirmed : Bool := false
deriving DecidableEq, Repr

/-- A job of the partner as the bodies held tell of it (R220, R382, R390). -/
structure Replica where
  job : CkptJob
  progress : Option Bytes := none
  seeds : List Bytes := []
  /-- it holds an operand region or has an operation outstanding, as the latest body tells -/ held : Bool := false
  /-- the keys bound at its admission: node index and version (R263) -/ bound : List (Nat × Nat) := []
deriving DecidableEq, Repr

/-- The other unit of a ceremony in progress: its encapsulation key, its attestation key, the pair ID drawn (Table 10-1). -/
structure Peer where
  encap : Bytes
  att : Bytes
  pair : BitVec 128 := 0
deriving DecidableEq, Repr

/-- The twin: pairing, checkpoints, fail-over, and the twin link (10_twin_and_passes.md, 13_links.md). -/
structure Twin where
  /-- TWN_STAT.STATE | R408 | 0 UNPAIRED -/ state : PairState := .unpaired
  /-- this unit offered at the pairing: its pairing role is 0 | R499 | 0 -/ offered : Bool := false
  /-- role byte is 0: L2 drawn at commissioning | R373 | 0 (ROLE0 reads 0) -/ role0 : Bool := false
  /-- pairing record, MRAM: pair ID, partner's attestation key digest, partner's JID | R372 | none -/ record : Option (BitVec 128 × Dig × BitVec 128) := none
  /-- TWN_CTRL.XCHECK_EN | R408 | 0 -/ xcheck : Bool := false
  /-- TWN_CTRL.RETURN_EN | R408 | 1 -/ returnEn : Bool := true
  /-- staged TWN_CTRL | R408 | none -/ stagedCtrl : Option (Bool × Bool) := none
  /-- last checkpoint confirmed | R408 | 0 -/ conf : Nat := 0
  /-- the same as latched at the last tail | R408 | 0 -/ confLatch : Nat := 0
  /-- TWN_CONF_HI as latched by a LO read | R408 | 0 -/ confHi : Reg32 := 0
  /-- TWN_CKPT.BODY_KIB | R408 | 0 -/ kib : Nat := 0
  /-- commit records of this frame | R380 | none -/ commits : List Bytes := []
  /-- a body that arrived whole and is not valid: its frame and the cause of event 0x7002 | R383 | none -/ badBody : Option (Nat × Nat) := none
  /-- TWN_CKPT.ADMIT_CAP | R408 | 0x800 -/ admitCap : Nat := 2048
  /-- TWN_REFUSED | R408 | 0 -/ refused : Nat := 0
  /-- TWN_RESYNC.DONE, per-mille | R408 | 0 -/ resync : Nat := 0
  /-- TWN_FAILOVERS.COUNT | R408 | 0 -/ failovers : Nat := 0
  /-- TWN_FAILOVERS.GAP | R408 | 0 -/ gap : Nat := 0
  /-- consecutive frames without a heartbeat | R408 | 0 -/ missed : Nat := 0
  /-- heartbeat received in this frame | R408 | 0 -/ heartbeat : Bool := false
  /-- partner's FRAME_SYNC seen in this frame | R408 | 0 -/ partnerSync : Bool := false
  /-- frames without partner FRAME_SYNC | R388 | 0 -/ syncMissed : Nat := 0
  /-- the silent marker arrived | R388 | 0 -/ marker : Bool := false
  /-- adoption due at the next cycle 0: 1 heartbeat, 2 marker | R388 | none -/ adoptDue : Option Nat := none
  /-- checkpoints sealed and not yet settled, oldest first | R383 | empty -/ sent : List Checkpoint := []
  /-- bodies received from the partner, oldest first | R390 | empty -/ got : List Received := []
  /-- digests received with exchanges: frame, digest | R383 | empty -/ gotDigests : List (Nat × Dig) := []
  /-- parts of the body being received | R374 | empty -/ parts : List BodyPart := []
  /-- answers owed to the partner: frame, confirmed | R383 | none -/ answer : Option (Nat × Bool) := none
  /-- digest of the last body sealed | R380 | 0 -/ lastDigest : Dig := 0
  /-- reservation entries to send, 256 per exchange | R375 | empty -/ resOut : List ResEntry := []
  /-- consecutive heartbeats in SPLIT | R389 | 0 -/ beats : Nat := 0
  /-- frames of self-diagnosed failures | R387 | empty -/ failures : List Nat := []
  /-- silent until the next power cycle | R387 | 0 -/ stuck : Bool := false
  /-- the unit is fail-silent | R387 | 0 -/ silent : Bool := false
  /-- the pair enters an in-service test of the link | R384 | 0 -/ pathTest : Bool := false
  /-- instances this unit holds as shadows, with their doorbell stores | R378 | empty -/ shadows : Table Inst := []
  /-- instances adopted and not yet returned | R396 | empty -/ adopted : List Nat := []
  /-- returned instances: instance and frame of return, whose doorbells are forwarded | R396 | empty -/ returned : List (Nat × Nat) := []
  /-- the partner is repaired and resynchronised | R395 | 0 -/ partnerBack : Bool := false
  /-- doorbells to forward in the next exchange: instance, pair, value | R396 | empty -/ fwdDoorbells : List (Nat × Nat × BitVec 16) := []
  /-- cancels to forward | R396 | empty -/ fwdCancels : List (Nat × Nat × Reg32) := []
  /-- PAIR_OFFER or PAIR_ACCEPT in progress: offering, tag, step | R371 | none -/ ceremony : Option (Bool × BitVec 16 × Nat) := none
  /-- the unit being paired with | R371 | none -/ peer : Option Peer := none
  /-- frame of the last release of this unit or the partner's last heartbeat | R392 | 0 -/ lastBeat : Nat := 0
  /-- TWN_LINK.UP | R497 | 0 -/ up : Bool := false
  /-- corrected symbols, uncorrectable codewords | R500 | 0, 0 -/ errs : Nat × Nat := (0, 0)
  /-- next SEQ to send | R498 | 0 -/ txSeq : Nat := 0
  /-- next SEQ expected | R499 | 0 -/ rxSeq : Nat := 0
  /-- refusals of the same SEQ in a row | R500 | 0 -/ refusals : Nat := 0
  /-- frames kept for a retry: frame, content, payload as sent | R500 | empty -/ kept : List (LinkFrame × TwinMsg × Bytes) := []
  /-- link-up nonces sent and received | R499 | none -/ nonces : Option (BitVec 128) × Option (BitVec 128) := (none, none)
  /-- the link is keyed: frames go under its key | R499 | 0 -/ keyed : Bool := false
  /-- replication entries of the partner held and not yet applied | R383 | empty -/ replica : List JEntry := []
  /-- the partner's jobs in flight | R390 | empty -/ jobs : List Replica := []
  /-- reservation entries of the partner | R266 | empty -/ resIn : List ResEntry := []
  /-- sessions and endpoints of the partner's instances as its bodies tell | R394 | empty -/ sessions : List Session := []
  /-- | R394 | empty -/ endpoints : List Endpoint := []
  /-- bytes of an instance's copy received so far | R371 | empty -/ bulkIn : Table Bytes := []
  /-- instances being copied | R371 | empty -/ copying : Table Inst := []
  /-- own instances whose shadow is whole | R371 | empty -/ copied : List Nat := []
  /-- frame number to take at the next frame boundary | R371 | none -/ jump : Option Nat := none
  /-- completion entries to write at the tail of an adoption: instance, pair, ring index, entry | R390 | empty -/ rewrites : List (Nat × Nat × BitVec 16 × Bytes) := []
  /-- instances whose home this unit is and that the partner serves | R395 | empty -/ homes : List Nat := []
  /-- this unit failed in SPLIT: its instances were not adopted | R389 | 0 -/ unserved : Bool := false
  /-- frame the resynchronisation began | R395 | 0 -/ resyncAt : Nat := 0
  /-- frame the return of instances began, and how many have returned | R396 | none -/ returning : Option (Nat × Nat) := none
  /-- repeats of the partner aborted in the next exchange | R241 | empty -/ aborts : List Nat := []
  /-- job slots whose digests did not match, told in the next exchange | R239 | empty -/ mismatches : List Nat := []
deriving DecidableEq, Repr

/-- The key of an SA: SAK, and for XPN its SSCI and salt (R206). -/
structure SaKey where
  sak : Bytes
  ssci : BitVec 32
  salt : BitVec 96
deriving DecidableEq, Repr

/-- A transmit SA: its key and next PN (R206, R207). -/
structure TxSa where
  next : Nat
  key : SaKey
deriving DecidableEq, Repr

/-- A receive SA: channel, AN, lowest acceptable PN, key, integrity and replay failures (R206, R207). -/
structure RxSa where
  sci : Nat
  an : Fin 4
  low : Nat
  key : SaKey
  fails : Nat := 0
deriving DecidableEq, Repr

/-- A change of an SA: installation, or removal where no key is given (R206). -/
structure SaChange where
  key : Option SaKey
  tx : Bool
  sci : Nat
  an : Fin 4
deriving DecidableEq, Repr

/-- One pass (10_twin_and_passes.md, 13_links.md). -/
structure Pass where
  /-- the link is up | R397 | 0 -/ up : Bool := false
  /-- no condition met | R408 | 0 -/ healthy : Bool := false
  /-- in a test window | R408 | 0 -/ test : Bool := false
  /-- frame the window began | R401 | 0 -/ testAt : Nat := 0
  /-- errors of the running window | R401 | 0 -/ testErrs : Nat := 0
  /-- PASS_CLEAN | R408 | 0 -/ clean : Nat := 0
  /-- PASS_FAULT cause | R408 | 0 -/ cause : Nat := 0
  /-- loss of lock latched | R398 | 0 -/ lockLost : Bool := false
  /-- frames in a row with fault ordered sets | R398 | 0 -/ faultSets : Nat := 0
  /-- uncorrectable codewords of the last 100 frames | R398 | 0 -/ fecBad : Nat := 0
  /-- corrected symbols above 1 in 10^5 over 10,000 frames | R398 | 0 -/ fecHigh : Bool := false
  /-- frame of each MACsec failure of the last 100 frames | R398 | empty -/ macFail : List Nat := []
  /-- frame of the last MKPDU from a peer | R398 | 0 -/ mkaSeen : Nat := 0
  /-- an MKA peer is live | R485 | 0 -/ mkaPeer : Bool := false
  /-- live peers, 16 at most, and the frame each was last heard in | R485 | empty -/ peers : List (Nat × Nat) := []
  /-- lost control to a fault | R403 | 0 -/ lostControl : Bool := false
  /-- 48, MAC address | R487 | 0 -/ mac : BitVec 48 := 0
  /-- CAK and CKN configured | R486 | none -/ cak : Option (Bytes × Bytes) := none
  /-- transmit SAs AN 0 to 3: key and next PN | R206 | none -/ txSa : Vector (Option TxSa) 4 := Vector.replicate 4 none
  /-- active transmit AN | R206 | none -/ txAn : Option (Fin 4) := none
  /-- receive SAs of 16 channels | R206 | empty -/ rxSa : List RxSa := []
  /-- SA changes staged | R206 | empty -/ staged : List SaChange := []
  /-- frames dropped for PN exhaustion | R207 | 0 -/ dropped : Nat := 0
  /-- MKA message number | R485 | 0 -/ mkaMn : Nat := 0
  /-- frames received and accepted | R487 | 0 -/ rx : Nat := 0
  /-- frames dropped on receive | R487 | 0 -/ rxDrop : Nat := 0
  /-- XPN in use | R205 | 0 -/ xpn : Bool := false
deriving DecidableEq, Repr

/-- The passes A and B and their registers (10_twin_and_passes.md). -/
structure Passes where
  /-- Pass A | R397 | down -/ a : Pass := {}
  /-- Pass B | R397 | down -/ b : Pass := {}
  /-- PASS_STAT.ACTIVE: B | R408 | 0 -/ activeB : Bool := false
  /-- an active pass was chosen since start | R397 | 0 -/ chosen : Bool := false
  /-- PASS_STAT.BOTH_DOWN | R408 | 0 -/ bothDown : Bool := false
  /-- frames with both unhealthy | R399 | 0 -/ downFrames : Nat := 0
  /-- PASS_CTRL.REVERT_EN | R408 | 1 -/ revert : Bool := true
  /-- staged REVERT_EN | R408 | none -/ revertStaged : Option Bool := none
  /-- PASS_CTRL.SWAP_NOW | R408 | 0 -/ swapNow : Bool := false
  /-- PASS_SWAP_PERIOD | R408 | 0x0001_5180 -/ period : Nat := 86400
  /-- staged period | R408 | none -/ periodStaged : Option Nat := none
  /-- frame of the last switch | R402 | 0 -/ switchedAt : Nat := 0
  /-- switch staged: cause of Table 10-13 event 0x7011 | R399 | none -/ switchDue : Option Nat := none
  /-- the old pass still receives until this frame | R399 | none -/ oldUntil : Option Nat := none
  /-- PASS_SWITCHES.FAULT | R408 | 0 -/ faults : Nat := 0
  /-- PASS_SWITCHES.PLANNED | R408 | 0 -/ planned : Nat := 0
deriving DecidableEq, Repr

/-! ## Life-cycle, firmware, debug, tamper (11_lifecycle_and_tamper.md) -/

/-- The life-cycle states (Table 11-1). -/
inductive Lcs where
  | raw | tested | sealed | owned (e : Nat) | released (e : Nat) | returned | scrapped
deriving DecidableEq, Repr

/-- The OTP fields the unit reads (Table 11-3), each as the majority of its three copies. -/
structure Otp where
  /-- 64 x 32, TRIM | R414 | 0, unburnt (DESIGN CHOICE, log 11) -/ trim : Vector Reg32 64 := Vector.replicate 64 0
  /-- 4, LC_BASE | R414 | 0, unburnt -/ lcBase : BitVec 4 := 0
  /-- 32, LC_EPOCH | R414 | 0, unburnt -/ lcEpoch : BitVec 32 := 0
  /-- 32, SVN_H | R414 | 0, unburnt -/ svnH : BitVec 32 := 0
  /-- 32, SVN_P | R414 | 0, unburnt -/ svnP : BitVec 32 := 0
  /-- 32, TAMPER_CNT | R414 | 0, unburnt -/ tamperCnt : BitVec 32 := 0
  /-- 32, TAMPER_REC | R414 | 0, unburnt -/ tamperRec : BitVec 32 := 0
  /-- 8, VKEY_REVOKE | R414 | 0, unburnt -/ vkeyRevoke : BitVec 8 := 0
  /-- 256, L0_SEED | R414 | 0, unburnt -/ l0Seed : Dig := 0
  /-- 8 x 256, VKEY_HASH | R414 | 0, unburnt -/ vkeyHash : Vector Dig 8 := Vector.replicate 8 0
  /-- 8 x 4, VKEY_USE | R414 | 0, slots empty -/ vkeyUse : Vector (BitVec 4) 8 := Vector.replicate 8 0
  /-- 64 x 3 words, TLOG: INTENT, STEP, DONE | R416 | 0, unburnt -/ tlog : Vector (Reg32 × Reg32 × Reg32) 64 := Vector.replicate 64 (0, 0, 0)
deriving DecidableEq, Repr

/-- The BBRAM check word (R535). -/
inductive CheckWord where
  | valid | empty | invalid
deriving DecidableEq, Repr

/-- A firmware slot of MRAM (R426). -/
structure FwSlot where
  image : FwImage
  valid : Bool
deriving DecidableEq, Repr

/-- An attestation tree (R423). -/
structure Tree where
  /-- next leaf | R423 | 0 -/ next : Nat
  /-- end of the reserved leaves | R424 | 0 -/ reserved : Nat
  /-- public key, 68 bytes | R423 | none -/ pub : Bytes
  /-- private material drawn at its generation | R423 | none -/ secret : Bytes
  /-- owner certificate stored, as MRAM holds it | R422 | none -/ cert : Option Bytes := none
deriving DecidableEq, Repr

/-- Tamper configuration: INPUT_EN, POLARITY, MESH_EN (R437). -/
structure TamperCfg where
  inputEn : BitVec 8 := 0
  polarity : BitVec 8 := 0
  meshEn : BitVec 2 := 0
deriving DecidableEq, Repr

/-- A life-cycle transition whose authorisation has passed (R419). -/
structure Transition where
  code : Nat
  epoch : Nat
  record : Option CommRecord
  dest : Option (Dest × BitVec 16)
  committed : Bool := false
  /-- the commissioning challenge (R421) -/ nonce : Bytes := []
deriving DecidableEq, Repr

/-- Life-cycle, OTP, BBRAM, firmware, tamper and attestation (11_lifecycle_and_tamper.md). -/
structure Life where
  /-- OTP | R413 | unburnt (DESIGN CHOICE, log 11) -/ otp : Otp := {}
  /-- LCS_OTP.CORRECTED | R445 | 0 -/ corrected : Nat := 0
  /-- LCS_OTP.FAULT | R445 | 0 -/ fault : Bool := false
  /-- BBRAM secret | R246 | zero -/ bbram : Dig := 0
  /-- check word | R535 | EMPTY once sealed; DESIGN CHOICE EMPTY (log 11) -/ check : CheckWord := .empty
  /-- battery latch: code and seconds | R438 | none -/ latch : Option (Nat × Nat) := none
  /-- the TAMPER_CNT bit of the latched tamper is burnt | R439 | 0 -/ burnt : Bool := false
  /-- LCS_TAMPER.LAST_CODE and LCS_TAMPER_SEC | R445 | from latch: 0, 0 -/ lastTamper : Nat × Nat := (0, 0)
  /-- LCS_TAMPER.VBAT_LOW | R445 | 0 -/ vbatLow : Bool := false
  /-- battery seconds counter | R536 | 0 -/ batSeconds : Nat := 0
  /-- Hollow CURRENT and NEXT | R426 | none (DESIGN CHOICE, log 11) -/ hollowCur : Option FwSlot := none
  /-- | R426 | none -/ hollowNext : Option FwSlot := none
  /-- Plain CURRENT and NEXT | R426 | none (DESIGN CHOICE, log 11) -/ plainCur : Option FwSlot := none
  /-- | R426 | none -/ plainNext : Option FwSlot := none
  /-- images in the recovery flash: Hollow, Plain | R506 | none, absent reads as ones (DESIGN CHOICE, log 11) -/ flash : Option FwImage × Option FwImage := (none, none)
  /-- LCS_FW_SVN.FLASH_BOOT | R445 | 0 -/ flashBoot : Bool := false
  /-- VERSION of the running images | R445 | from image: 0 -/ running : Reg32 × Reg32 := (0, 0)
  /-- running Hollow HOLLOW_HASH | R246 | none -/ hollowHash : Option Dig := none
  /-- owner certification key, MRAM | R420 | none -/ ock : Option (Nat × Bytes) := none
  /-- tamper configuration in force | R437 | disabled -/ cfg : TamperCfg := {}
  /-- attestation trees of the epoch | R423 | none -/ trees : List Tree := []
  /-- ATTEST_TREE requests in generation: reply, OUT_ADDR, the frame generation is done | R423 | empty -/ treeGen : List (Dest × BitVec 16 × Word × Nat) := []
  /-- transition staged or running | R419 | none -/ trans : Option Transition := none
  /-- FW_ACTIVATE committed: frame, reply | R433 | none -/ activate : Option (Nat × BitVec 16) := none
  /-- DBG_STAT.LAST_STATUS | R445 | 0 -/ dbgLast : BitVec 8 := 0
  /-- DBG_STAT.ACCEPTED | R445 | 0 -/ dbgAccepted : Nat := 0
deriving DecidableEq, Repr

/-! ## Strata, counters, in-service test (12_strata_counters_test.md) -/

/-- A Strata record (Table 12-1), without its CHECK, which is computed when it passes to MRAM. -/
structure Event where
  code : BitVec 16
  severity : BitVec 4
  level : BitVec 3
  hollow : Bool
  power : BitVec 24
  seconds : Reg32
  frameIdx : BitVec 17
  seq : Reg32
  p1 : Reg32
  p2 : Reg32
  p3 : Reg32
  check : BitVec 16
  /-- frame cycle at which it was raised (not stored; it orders SEQ, R449) -/ cycle : Nat
deriving DecidableEq, Repr

/-- Strata (12_strata_counters_test.md). -/
structure Strata where
  /-- on-die buffer, 2,048 records, in order of raising | R452 | empty -/ buffer : List Event := []
  /-- ring of 65,536 records by position | R452 | empty (MRAM; DESIGN CHOICE, log 11) -/ ring : Table Event := []
  /-- sticky area, 1,024 records | R453 | empty -/ sticky : List Event := []
  /-- sticky records refused | R453 | 0 -/ stickyRefused : Nat := 0
  /-- next SEQ | R449 | 0 (From MRAM) -/ seq : Reg32 := 0
  /-- EVR_LOST | R465 | 0 -/ lost : Nat := 0
  /-- lost in this frame: all, security merged | R455 | 0, 0 -/ lostNow : Nat × Nat := (0, 0)
  /-- power-cycle count | R448 | 0 (From MRAM) -/ power : Nat := 0
  /-- operating seconds | R448 | 0 (From MRAM) -/ seconds : Nat := 0
  /-- FRAME_IDX | R448 | 0 -/ frameIdx : Nat := 0
  /-- counters area of MRAM: SECONDS and frame number stored, none until stored | R448 | none -/ stored : Option (Nat × Nat) := none
  /-- EVR_STAT.CHECK_ERR | R465 | 0 -/ checkErr : Bool := false
  /-- freeze running: frame Z, events lost during it | R456 | none -/ frozen : Option (Nat × Nat) := none
  /-- side buffer of 16 | R456 | empty -/ side : List Event := []
  /-- THAW written | R457 | 0 -/ thaw : Bool := false
  /-- a security event found the side buffer full | R457 | none -/ sideFull : List Event := []
  /-- EVR_WIN_BASE | R465 | 0 -/ winBase : Reg32 := 0
  /-- EVR_WIN_SEL.AREA | R465 | 0 -/ winSel : Bool := false
deriving DecidableEq, Repr

/-- A performance counter (R459). -/
structure Ctr where
  /-- 48 | R459 | 0 -/ live : BitVec 48 := 0
  /-- SAT | R459 | 0 -/ sat : Bool := false
  /-- snapshot of value and SAT | R459 | 0 -/ snap : BitVec 48 × Bool := (0, false)
  /-- LO write held | R465 | none -/ loHeld : Option Reg32 := none
  /-- HI latched by a LO read | R465 | 0 -/ hiLatch : Reg32 := 0
deriving DecidableEq, Repr

/-- Performance counters and sampling (12_strata_counters_test.md). -/
structure Pmc where
  /-- 64 x 8 lane counters by 8 x lane + counter, those not at reset listed | R461 | 0 -/ lane : Table Ctr := []
  /-- 64 global counters | R463 | 0 -/ glob : Table Ctr := []
  /-- 1,024 x 16 instance counters by 16 x instance + counter | R462 | 0 -/ inst : Table Ctr := []
  /-- 64 x 64, PMC_LSEL, those not at reset listed | R465 | 0x0807_0605_0403_0201 -/ lsel : Table (BitVec 64) := []
  /-- PMC_CTRL.CLR_LANE pending | R465 | 0 -/ clrLane : Bool := false
  /-- PMC_CTRL.CLR_GLOBAL pending | R465 | 0 -/ clrGlobal : Bool := false
  /-- PMC_STAT.SMP_LOST | R465 | 0 -/ smpLost : Nat := 0
  /-- PMC_SMP_CTRL.EN | R465 | 0 -/ smpEn : Bool := false
  /-- PMC_SMP_CTRL.COUNTER | R465 | 0 -/ smpCounter : BitVec 3 := 0
  /-- PMC_SMP_CTRL.VECTOR | R465 | 0 -/ smpVector : BitVec 6 := 0
  /-- PMC_SMP_CTRL.WATERMARK | R465 | 0x0001 -/ watermark : BitVec 16 := 1
  /-- PMC_SMP_PERIOD | R465 | 0x0001_0000 -/ period : Nat := 65536
  /-- PMC_SMP_BASE | R465 | 0 -/ smpBase : Word := 0
  /-- PMC_SMP_SIZE.LOG2 | R465 | 0x6 -/ smpLog : Nat := 6
  /-- PMC_SMP_TAIL | R465 | 0x0000 -/ smpTail : BitVec 16 := 0
  /-- PMC_SMP_HEAD | R465 | 0x0000 -/ smpHead : BitVec 16 := 0
deriving DecidableEq, Repr

/-- An element of the in-service test (Tables 12-9, 12-11). -/
structure Elem where
  /-- fenced | R49 | 0 -/ fenced : Bool := false
  /-- held fenced by FENCE_HOLD | R471 | 0 -/ held : Bool := false
  /-- PASSES | R470 | 0 -/ passes : Nat := 0
  /-- CAUSE of the last failure | R470 | 0 -/ cause : Nat := 0
  /-- KAT_AGE | R470 | 0 -/ katAge : Nat := 0
  /-- FULL_AGE | R470 | 0 -/ fullAge : Nat := 0
  /-- FAILS | R470 | 0 -/ fails : Nat := 0
  /-- FORCED | R470 | 0 -/ forced : Nat := 0
  /-- a forced test runs: full | R467 | none -/ forcing : Option Bool := none
  /-- frame it was fenced | R49 | 0 -/ since : Nat := 0
  /-- frame of the last full test passed towards its return | R49 | 0 -/ passedAt : Nat := 0
deriving DecidableEq, Repr

/-- The in-service test (12_strata_counters_test.md). -/
structure Test where
  /-- 158 elements in the order of Table 12-10 | R470 | in service -/ elems : Vector Elem 158 := Vector.replicate 158 {}
  /-- 16 x 16 regions: seconds since the last march | R468 | 0 -/ march : Table Nat := []
  /-- 4,096, the health report as latched at the last tail | R470 | empty, read as zeros (DESIGN CHOICE, log 1) -/ report : Bytes := []
deriving DecidableEq, Repr

/-! ## Links (13_links.md) -/

/-- What the unit has put out: to the host, the links, the ports and the test access port, oldest first (log 6). -/
inductive Output where
  | hostWrite (inst : Nat) (addr : Word) (bytes : Bytes)
  | hostRead (inst : Nat) (addr : Word) (len : Nat)
  | completion (inst : Nat) (q : Nat) (index : BitVec 16) (bytes : Bytes)
  | msix (inst : Nat) (vector : Nat)
  | regData (value : Word)
  | unsupported
  | discarded
  | mailbox (inst : Nat) (slot : Nat) (bytes : Bytes)
  | portFrame (c : Fin 2) (kind seq : Nat) (payload : Bytes)
  | twin (link : LinkFrame) (msg : TwinMsg) (payload : Bytes)
  | ether (passB : Bool) (ethertype : Nat) (payload : Bytes)
  | nernaosh (inst : Nat) (peer : NetAddr) (datagram : Bytes)
  | secured (clear : Output) (an : Fin 4) (pn : Nat) (cipher : Bytes) (icv : BitVec 128)
  | sample (index : BitVec 16) (bytes : Bytes)
  | gateNotice (domain : Nat)
  | tdo (value : Reg32)
  | debug (value : Word)
  | flush (inst : Nat)
deriving DecidableEq, Repr

/-- A host port (R481). -/
structure Port where
  /-- UP | R481 | 0 -/ up : Bool := false
  /-- RATE | R481 | 0 -/ rate : Nat := 0
  /-- WIDTH | R481 | 0 -/ width : Nat := 0
  /-- PF_BME | R481 | 0 -/ bme : Bool := false
  /-- VF Enable | R477 | 0 (PRESUMED: PCIe resets VF Enable) -/ vfEnable : Bool := false
  /-- 16, NumVFs | R473 | 0 (PRESUMED: PCIe) -/ numVfs : Nat := 0
  /-- function-level reset of the PF in progress | R474 | 0 -/ flr : Bool := false
  /-- PERSTn_N low | R521 | 0 (held low until 100 us after PWR_GOOD) -/ perst : Bool := true
  /-- CTO, BAD_CPL | R481 | 0, 0 -/ errs : Nat × Nat := (0, 0)
  /-- MSI-X vectors of the PF, masked | R480 | masked (PRESUMED: PCIe) -/ mask : BitVec 64 := BitVec.allOnes 64
  /-- pending bits | R480 | 0 -/ pend : BitVec 64 := 0
deriving DecidableEq, Repr

/-- The host links (13_links.md). -/
structure Host_ where
  /-- the two ports | R472 | down -/ ports : Vector Port 2 := Vector.replicate 2 {}
  /-- FN_CTRL.PF_PORT | R481 | 0 -/ pfPort : Bool := false
  /-- staged FN_CTRL | R481 | none -/ pfStaged : Option Bool := none
  /-- the port instance 0 uses: port 1 | R474 | 0 -/ inUse1 : Bool := false
  /-- FN_MEM_STAT: CH_OK, TOTAL_GB, SPEED, POP_ERR | R481 | 0 -/ mem : BitVec 4 × Nat × Nat × Bool := (0, 0, 0, false)
  /-- FN_MEM_CE | R481 | 0 -/ memCe : Nat := 0
  /-- vector 2 is due: pair state or active pass changed | R480 | 0 -/ vec2 : Bool := false
  /-- writes that wait for a function whose port or Bus Master Enable is down: instance and write, oldest first | R475, R477 | empty -/ waiting : List (Nat × Output) := []
deriving DecidableEq, Repr

/-- A staged NET_ENDPOINT: the instance, its endpoint or none to disable it, and the reply's address and TAG (R486). -/
structure EndpointSet where
  inst : Nat
  ep : Option Endpoint
  dest : Dest
  tag : BitVec 16
deriving DecidableEq, Repr

/-- A staged NET_MKA (R486). -/
structure MkaSet where
  cak : Handle
  ckn : Bytes
  priority : Nat
  passA : Bool
  passB : Bool
  xpn : Bool
  dest : Dest
  tag : BitVec 16
deriving DecidableEq, Repr

/-- The network side of the unit (13_links.md). -/
structure Net where
  /-- endpoints | R486 | none -/ endpoints : List Endpoint := []
  /-- key-server priority | R485 | DESIGN CHOICE 0 (log 1) -/ priority : Nat := 0
  /-- sessions, by instance and ID | R489 | none -/ sessions : List Session := []
  /-- PASS_UDP | R487 | 0x1D28 -/ udp : Nat := 0x1D28
  /-- PASS_REPLAY | R487 | 0x0040 -/ replay : Nat := 0x40
  /-- staged PASS_MAC, PASS_UDP, PASS_REPLAY | R487 | none -/ regStaged : Option (BitVec 48) × Option Nat × Option Nat := (none, none, none)
  /-- PASS_DROPS | R487 | 0 -/ drops : Nat := 0
  /-- TWN_LINK.RETRIES | R487 | 0 -/ retries : Nat := 0
  /-- TWN_LATENCY | R487 | 0 -/ latency : Nat := 0
deriving DecidableEq, Repr

/-- A frame sent on a custodian port and not acknowledged (R502). -/
structure CustSent where
  seq : Nat
  kind : Nat
  /-- payload and check as sent -/ payload : Bytes
  tries : Nat := 1
deriving DecidableEq, Repr

/-- A custodian port (R501 to R504). -/
structure CustPort where
  /-- keyed session: H, keys | R503 | none -/ session : Option (Dig × Bytes) := none
  /-- logged-in custodian | R503 | none (0x1F) -/ custodian : Option Nat := none
  /-- FRAME_ERRS | R481 | 0 -/ errs : Nat := 0
  /-- SEQ expected from the terminal | R501 | 0 -/ rxSeq : Nat := 0
  /-- SEQ to send | R501 | 0 -/ txSeq : Nat := 0
  /-- encrypted frames sent in the session: the counter of its IV | R503 | 0 -/ txCount : Nat := 0
  /-- encrypted frames taken in the session: the counter of their IV | R503 | 0 -/ rxCount : Nat := 0
  /-- frames not acknowledged, 4 at most | R502 | empty -/ unacked : List CustSent := []
  /-- frames waiting for a place | R502 | empty -/ waiting : List (Nat × Bytes) := []
  /-- message stream received | R504 | empty -/ stream : Bytes := []
  /-- frame of the last frame | R503 | 0 -/ lastSeen : Nat := 0
deriving DecidableEq, Repr

/-- A clear-component export in progress (R505). -/
structure CompExport where
  port : Fin 2
  tag : BitVec 16
  /-- index, custodian, component not yet delivered -/ parts : List (Nat × Nat × Bytes)
  ktype : BitVec 8
  at_ : Nat
deriving DecidableEq, Repr

/-- A clear-component import in progress (R505). -/
structure CompImport where
  id : Nat
  count : Nat
  len : Nat
  creation : Creation
  /-- index, custodian, component -/ got : List (Nat × Nat × Bytes)
  port : Fin 2
  tag : BitVec 16
  at_ : Nat
deriving DecidableEq, Repr

/-- The custodian ports (13_links.md). -/
structure Cust where
  /-- two ports | R501 | no session -/ ports : Vector CustPort 2 := Vector.replicate 2 {}
  /-- | R505 | none -/ exports : List CompExport := []
  /-- | R505 | none -/ imports : List CompImport := []
deriving DecidableEq, Repr

/-! ## Balls, power, clocks, start-up (14_balls_power_startup.md) -/

/-- Where the unit stands between cold reset and running (R519 to R532). -/
inductive Run where
  | coldReset | running | stopped | halted | failing | quiescent
deriving DecidableEq, Repr

/-- Power, resets, clocks and pins (14_balls_power_startup.md). -/
structure Power where
  /-- | R519 | cold reset -/ run : Run := .coldReset
  /-- RESET_N high | R508 | 0, pulled down -/ resetN : Bool := false
  /-- PWR_GOOD high | R508 | 0, pulled down -/ pwrGood : Bool := false
  /-- POWER_FAIL_N high | R508 | 1, pulled up -/ powerFailN : Bool := true
  /-- THERM_TRIP_N low | R528 | 0 -/ thermTrip : Bool := false
  /-- FAULT_N low | R509 | 1 in cold reset -/ faultN : Bool := true
  /-- TEST_EN | R508 | 0, pulled down -/ testEn : Bool := false
  /-- FRAME_SYNC_OUT high in this frame | R517 | 0 (R509) -/ syncOut : Bool := false
  /-- READY | R533 | 0 -/ ready : Bool := false
  /-- HALT | R533 | 0 -/ halt : Nat := 0
  /-- LAST_TRIGGER | R533 | 0 (From MRAM) -/ lastTrigger : Nat := 0
  /-- HOLDOVER | R533 | 0 -/ holdover : Bool := false
  /-- frame SYS_CLK was lost | R518 | none -/ holdoverAt : Option Nat := none
  /-- START_MS | R533 | 0 -/ startMs : Nat := 0
  /-- power-fail sequence: frame P, trigger 1 input or 2 detector, frame cycle of the trigger | R404 | none -/ fail : Option (Nat × Nat × Nat) := none
  /-- quiescent until RESET_N or power is cycled | R518 | 0 -/ needsReset : Bool := false
  /-- 16, PWR_TOTAL.PEAK | R533 | 0 -/ peak : Nat := 0
  /-- Tj maximum since start | R533 | 0 -/ tjMax : Int := 0
  /-- battery domain runs from VBAT | R515 | DESIGN CHOICE 0 (log 1) -/ onBattery : Bool := false
  /-- VDD_IO above its detector threshold | R515 | DESIGN CHOICE 1 (log 1) -/ vddIo : Bool := true
  /-- TAP instruction: IDCODE or BYPASS | R508 | IDCODE (PRESUMED: IEEE 1149.1) -/ tapBypass : Bool := false
  /-- physical core temperature in range | R529 | 1 (DESIGN CHOICE, log 1) -/ inRange : Bool := true
deriving DecidableEq, Repr

/-! ## The unit -/

/-- A change staged under the commit rule (Table 01-3), apart from those that stand in the register blocks they change. -/
inductive Change where
  | custodians (n q3 q4 : Nat) (list : List (Nat × Nat × Bytes)) (dest : Dest) (tag : BitVec 16)
  | keyCreate (inst index : Nat) (reply : Option (Dest × BitVec 16 × Nat))
  | keyMode (inst node mode : Nat) (dest : Dest) (tag : BitVec 16)
  | keyReplace (inst index : Nat) (node : Node) (dest : Dest) (tag : BitVec 16)
  | keyNarrow (inst index : Nat) (bits : BitVec 4) (dest : Dest) (tag : BitVec 16)
  | progSet (inst id : Nat) (prog : Program) (dest : Dest) (tag : BitVec 16) (mtype : Nat)
  | progRemove (inst id : Nat) (dest : Dest) (tag : BitVec 16)
  | bindAdd (inst index : Nat) (measure : Dig) (dest : Dest) (tag : BitVec 16)
  | mapInstall (inst : Nat) (map : RecMap) (tables : List (Nat × Bytes)) (dest : Dest) (tag : BitVec 16)
  | mapRemove (inst id : Nat) (dest : Dest) (tag : BitVec 16)
  | instReset (inst : Nat)
  | migFreeze (inst : Nat) (dest : Dest) (tag : BitVec 16)
  | migThaw (inst : Nat) (dest : Dest) (tag : BitVec 16)
  | migImport (inst : Nat) (made : Inst) (dest : Dest) (tag : BitVec 16)
  | instCreate (inst : Nat) (made : Inst) (dest : Dest) (tag : BitVec 16)
  | shareSet (inst : Nat) (share : Share) (dest : Dest) (tag : BitVec 16)
  | dirtySet (inst : Nat) (d : Dirty) (dest : Dest) (tag : BitVec 16)
  | dirtySwap (inst : Nat) (dest : Dest) (tag : BitVec 16)
  | netEndpoint (e : EndpointSet)
  | netMka (m : MkaSet)
  | jrnlSet (base : Word) (j : Nat) (en : Bool) (dest : Dest) (tag : BitVec 16)
  | fenceHold (elem : Nat) (hold : Bool) (dest : Dest) (tag : BitVec 16)
  | tamperCfg (cfg : TamperCfg) (dest : Dest) (tag : BitVec 16)
  | debugRights (rights : BitVec 7) (frames : Option Nat) (dest : Dest) (tag : BitVec 16)
  | imageReady (kind : Nat) (dest : Dest) (tag : BitVec 16)
  | fwCancel (kind : Nat) (dest : Dest) (tag : BitVec 16)
  | fwActivate (dest : Dest) (tag : BitVec 16)
  | unpair (dest : Dest) (tag : BitVec 16)
  | transition
deriving DecidableEq, Repr


/-- What stood staged at cycle 0 of the frame, which alone commits in it (R31): how many changes of each list, and the value of each single staged setting. -/
structure Cut where
  /-- changes of `State.staged` | R31 | 0 -/ changes : Nat := 0
  /-- changes of the protection log | R31 | 0 -/ log : Nat := 0
  /-- security associations of Pass A, Pass B | R31 | 0, 0 -/ sas : Nat × Nat := (0, 0)
  /-- WORLD_SET | R31 | none -/ world : Option (BitVec 64) := none
  /-- FRM_CTRL | R31 | none -/ ctrl : Option (Bool × Bool × Nat) := none
  /-- FRM_LEND | R31 | none -/ lend : Option Nat := none
  /-- TWN_CTRL | R31 | none -/ twin : Option (Bool × Bool) := none
  /-- PASS_CTRL.REVERT_EN | R31 | none -/ revert : Option Bool := none
  /-- PASS_SWAP_PERIOD | R31 | none -/ period : Option Nat := none
  /-- PASS_CTRL.SWAP_NOW | R31 | 0 -/ swapNow : Bool := false
  /-- switch of the active pass | R31 | none -/ switchDue : Option Nat := none
  /-- FN_CTRL | R31 | none -/ pf : Option Bool := none
  /-- PASS_MAC, PASS_UDP, PASS_REPLAY | R31 | none -/ regs : Option (BitVec 48) × Option Nat × Option Nat := (none, none, none)
deriving DecidableEq, Repr

/-- The whole state of the unit. -/
structure State where
  /-- physical memory: DRAM usable space, MRAM, control partitions, staging pools, canonical cells | R334 | nothing listed; an unlisted byte reads 0 (R530) -/ mem : List Host.Cell := []
  /-- | R15 | Table 01-7 -/ frame : Frame := {}
  /-- jobs in flight in admission order | R3 | none -/ jobs : List Job := []
  /-- next admission order | R28 | 0 -/ nextJob : Nat := 0
  /-- instances that exist, by ID | R294 | instance 0 alone (R295) -/ insts : Table Inst
  /-- the 64 lanes | R85 | lanes 56 to 63 Hollow (R330) -/ lanes : Vector Lane 64
  /-- | R180 | empty -/ cipher : Cipher := {}
  /-- | R193 | empty -/ engines : Engines := {}
  /-- | R209 | idle -/ pke : PkeUnit := {}
  /-- | R245 | empty -/ quarry : Quarry := {}
  /-- | R304 | empty -/ mail : Mail := {}
  /-- staged changes of order 1, 4, 5 and 6 of R33, in staging order | R31 | empty -/ staged : List Change := []
  /-- what stood staged at cycle 0 of this frame | R31 | nothing -/ cut : Cut := {}
  /-- | R329 | Table 09-18 -/ prot : Prot := {}
  /-- | R370 | Table 10-11 -/ twin : Twin := {}
  /-- | R397 | Table 10-11 -/ passes : Passes := {}
  /-- | R411 | Table 11-13 -/ life : Life := {}
  /-- | R447 | Table 12-8 -/ strata : Strata := {}
  /-- | R459 | Table 12-8 -/ pmc : Pmc := {}
  /-- | R466 | Table 12-11 -/ test : Test := {}
  /-- | R472 | Table 13-4 -/ host : Host_ := {}
  /-- | R486 | Table 13-7 -/ net : Net := {}
  /-- | R501 | Table 13-4 -/ cust : Cust := {}
  /-- | R507 | Table 14-10 -/ power : Power := {}
  /-- read-only register words of the physical function as latched at the last tail, by BAR0 offset; a word not listed reads 0 | R51, R368, R408, R445, R465, R481, R487, R533 | Tables 01-7, 09-18, 10-11, 11-13, 12-8, 13-4, 13-7, 14-10 -/ regs : Table Reg32
  /-- outputs, oldest first | R475 | empty (the model's own, log 6) -/ out : List Output := []
  /-- draws made of the free values (the model's own, log 9) | R201 | DESIGN CHOICE 0 (log 9) -/ free : Nat := 0
  /-- commands waiting, first in, first out (the model's own, log 3) | R31 | empty -/ pending : List Instr := []
deriving DecidableEq, Repr

/-- The share record of instance 0 on a single unit with no other instance (R298). -/
def managerShare : Share :=
  { jobSlots := 16384, sessions := 65535, qpairs := 4, vectors := 2, pmcUser := true, personality := 1,
    ksSlots := 1610612736, mins := [1000, 1000, 1000, 1000, 1000], maxs := [1000, 1000, 1000, 1000, 1000], rsv := false }

/-- The read-only words that do not reset to zero (Tables 01-7, 09-18, 10-11, 11-13, 13-4). -/
def resetRegs : Table Reg32 :=
  [(0x000000, 0x20101440), (0x000004, 0x0AF02EE0), (0x000014, 0x00108000), (0x00001C, 0x00010000), (0x010000, 0x02401400),
   (0x010030, 0x0000003E), (0x010034, 0x0000003E), (0x400010, 0x08000000), (0x500000, 0x00000001), (0x70000C, 0xFF000000)]

/-- The unit in cold reset (R509, R519): every register at its reset value, OTP unburnt (log 11). -/
def State.reset : State :=
  { insts := [(0, { share := managerShare })],
    regs := resetRegs,
    lanes := Vector.ofFn (fun n => { hollow := decide (56 ≤ n.val) }) }

end Sys2Proof.Machine
end

