-- ==== Sys2Proof/Machine/Operands.lean ====
section
/-! DEFINITION. Operand forms: byte strings, pointers, immediates, and the register files of a lane. -/

namespace Sys2Proof.Machine

/-! ## Byte strings -/

/-- The n low bytes of a number, little-endian (R6). -/
def leBytes : Nat → Nat → Bytes
  | 0, _ => []
  | n + 1, v => BitVec.ofNat 8 v :: leBytes n (v / 256)

/-- The n low bytes of a number, big-endian (R488). -/
def beBytes (n v : Nat) : Bytes := (leBytes n v).reverse

/-- The number a little-endian byte string spells. -/
def leNat : Bytes → Nat
  | [] => 0
  | b :: bs => b.toNat + 256 * leNat bs

/-- The number a big-endian byte string spells. -/
def beNat (bs : Bytes) : Nat := leNat bs.reverse

/-- n zero bytes. -/
def zeros (n : Nat) : Bytes := List.replicate n 0

/-- A byte string cut or zero-filled on the right to n bytes. -/
def padTo (n : Nat) (bs : Bytes) : Bytes := (bs ++ zeros n).take n

/-- The characters of an ASCII label as bytes. -/
def ascii (t : String) : Bytes := t.toList.map (fun c => BitVec.ofNat 8 c.toNat)

/-- A block register of the first 16 bytes of a string: byte i in bits [8i + 7:8i] (R89). -/
def blkOf (bs : Bytes) : Blk := BitVec.ofNat 128 (leNat (padTo 16 bs))

/-- The 16 bytes of a block register, byte 0 first (R89). -/
def blkBytes (b : Blk) : Bytes := leBytes 16 b.toNat

/-- Byte i of a block register (R89). -/
def blkByte (b : Blk) (i : Nat) : Byte := (b >>> (8 * i)).setWidth 8

/-- Exclusive or of two byte strings, of the length of the shorter. -/
def xorBytes (a b : Bytes) : Bytes := List.zipWith (· ^^^ ·) a b

/-! ## Canonical byte memories: sparse lists of cells, addresses rising, no cell 0 (R530, log 7) -/

/-- The byte at an address; an unlisted byte reads 0. -/
def Memory.read : List Host.Cell → Nat → Byte
  | [], _ => 0
  | (k, b) :: m, a => if k = a then b else Memory.read m a

/-- Put a cell in its place by address. -/
def Memory.put : List Host.Cell → Nat → Byte → List Host.Cell
  | [], a, b => [(a, b)]
  | (k, c) :: m, a, b => if a < k then (a, b) :: (k, c) :: m else (k, c) :: Memory.put m a b

/-- Write one byte, keeping the canonical form: a byte 0 is not listed. -/
def Memory.write (m : List Host.Cell) (a : Nat) (b : Byte) : List Host.Cell :=
  if b = 0 then m.filter (fun e => e.1 != a) else Memory.put (m.filter (fun e => e.1 != a)) a b

/-- Addresses above a bound, rising, and no cell 0. -/
def Memory.wfFrom : Nat → List Host.Cell → Bool
  | _, [] => true
  | lo, (k, b) :: m => decide (lo ≤ k) && decide (b ≠ 0) && Memory.wfFrom (k + 1) m

/-- The canonical form of a byte memory. -/
def Memory.wf (m : List Host.Cell) : Bool := Memory.wfFrom 0 m

/-- n bytes from an address. -/
def Memory.readBytes (m : List Host.Cell) (a : Nat) : Nat → Bytes
  | 0 => []
  | n + 1 => Memory.read m a :: Memory.readBytes m (a + 1) n

/-- A byte string written from an address. -/
def Memory.writeBytes (m : List Host.Cell) (a : Nat) : Bytes → List Host.Cell
  | [] => m
  | b :: bs => Memory.writeBytes (Memory.write m a b) (a + 1) bs

/-! ## Sparse tables -/

/-- The entry of a key. -/
def tget {α : Type} (t : Table α) (k : Nat) : Option α := (t.find? (fun e => e.1 == k)).map (·.2)

/-- Replace or insert an entry, keys rising. -/
def tset {α : Type} : Table α → Nat → α → Table α
  | [], k, v => [(k, v)]
  | (j, w) :: t, k, v =>
    if k < j then (k, v) :: (j, w) :: t else if k = j then (k, v) :: t else (j, w) :: tset t k v

/-- Remove an entry. -/
def tdel {α : Type} (t : Table α) (k : Nat) : Table α := t.filter (fun e => e.1 != k)

/-- Change an entry that is there. -/
def tmod {α : Type} (t : Table α) (k : Nat) (f : α → α) : Table α :=
  t.map (fun e => if e.1 = k then (e.1, f e.2) else e)

/-- Merge two sums of counts, key by key. -/
def tnat (t : Table Nat) (k : Nat) : Nat := (tget t k).getD 0

/-! ## Immediates and pointers -/

/-- A 16-bit immediate, sign-extended (R116, R117). -/
def sx16 (i : BitVec 16) : Word := i.signExtend 64

/-- A 16-bit immediate, zero-extended (R116). -/
def zx16 (i : BitVec 16) : Word := i.setWidth 64

/-- The byte displacement of a branch offset in words (R119). -/
def branchOff {w : Nat} (off : BitVec w) : Word := 4 * off.signExtend 64

/-- The must-be-zero fields of a pointer are zero: bits [63:60] and [55:39] (R97). -/
def ptrOk (p : Word) : Bool := p.extractLsb' 60 4 == 0 && p.extractLsb' 39 17 == 0

/-- The COLOUR field of a pointer (R97). -/
def ptrColour (p : Word) : BitVec 4 := p.extractLsb' 56 4

/-- A pointer with its COLOUR field replaced (R118). -/
def ptrWith (p : Word) (c : BitVec 4) : Word :=
  (p &&& ~~~((0xF : Word) <<< 56)) ||| (c.setWidth 64 <<< 56)

/-- The kernel half (R97). -/
def ptrK (p : Word) : Bool := p.getLsbD 38

/-- The 39-bit virtual address of a pointer (R97, R99). -/
def ptrVa (p : Word) : Nat := (p.extractLsb' 0 39).toNat

/-- First address of the window (R98). -/
def winBase : Nat := 0x10000

/-- A virtual address inside the range the window may occupy (R98). -/
def inWin (va : Nat) : Bool := winBase ≤ va && va < winBase + 0x4000

/-! ## Register files -/

/-- Read a general register: g0 is 0 (R88). -/
def Ctx.rg (c : Ctx) (r : GReg) : Word := if r = 0 then 0 else c.g[r]

/-- Write a general register: a write to g0 is discarded (R88). -/
def Ctx.wg (c : Ctx) (r : GReg) (v : Word) : Ctx := if r = 0 then c else { c with g := c.g.set r.val v r.isLt }

/-- Read a block register (R89). -/
def Ctx.rv (c : Ctx) (r : VReg) : Blk := c.v[r]

/-- Write a block register (R89). -/
def Ctx.wv (c : Ctx) (r : VReg) (v : Blk) : Ctx := { c with v := c.v.set r.val v r.isLt }

/-- Read a key register (R90). -/
def Ctx.rk (c : Ctx) (r : KReg) : Option Handle := c.k[r]

/-- Write a key register (R90). -/
def Ctx.wk (c : Ctx) (r : KReg) (v : Option Handle) : Ctx := { c with k := c.k.set r.val v r.isLt }

/-- Read a counter register (R91). -/
def Ctx.rc (c : Ctx) (r : CReg) : Counter := c.c[r]

/-- Write a counter register (R91). -/
def Ctx.wc (c : Ctx) (r : CReg) (v : Counter) : Ctx := { c with c := c.c.set r.val v r.isLt }

/-! ## Key handles (Table 07-1) -/

/-- INSTANCE [63:54] of a handle (R252). -/
def hInst (h : Handle) : Nat := (h.extractLsb' 54 10).toNat

/-- NODE [53:20] of a handle (R252). -/
def hNode (h : Handle) : Nat := (h.extractLsb' 20 34).toNat

/-- VERSION [19:8] of a handle (R252). -/
def hVer (h : Handle) : Nat := (h.extractLsb' 8 12).toNat

/-- TYPE [7:0] of a handle (R252). -/
def hType (h : Handle) : BitVec 8 := h.extractLsb' 0 8

/-- The handle of a node (R252). -/
def mkHandle (inst node ver : Nat) (t : BitVec 8) : Handle :=
  BitVec.ofNat 64 (inst * 2 ^ 54 + node % 2 ^ 34 * 2 ^ 20 + ver % 2 ^ 12 * 2 ^ 8 + t.toNat)

end Sys2Proof.Machine
end

