-- ==== Sys2Proof/Machine/Ops.lean ====
section
/-! DEFINITION. The named operations every meaning is built from: free values, memory, events, counters, replies, jobs and their ends, fencing, and the parts of the state they change. -/

namespace Sys2Proof.Machine

/-- The outcome of a command whose effect is a next state. -/
def ok (s : State) : Host.Outcome State Fault Refusal := .next s

/-! ## Free values (log 9) -/

/-- Make one draw of w bits. -/
def State.take (s : State) (w : Nat) : BitVec w × State := (Config.draw w s.free, { s with free := s.free + 1 })

/-- Make one draw of n bytes. -/
def State.takeBytes (s : State) (n : Nat) : Bytes × State :=
  (leBytes n (Config.draw (8 * n) s.free).toNat, { s with free := s.free + 1 })

/-! ## Status codes (Table 02-11) -/

namespace St
abbrev ok : BitVec 7 := 0x00
abbrev squashed : BitVec 7 := 0x01
abbrev aborted : BitVec 7 := 0x02
abbrev deadlineMissed : BitVec 7 := 0x03
abbrev descInvalid : BitVec 7 := 0x10
abbrev programUnknown : BitVec 7 := 0x11
abbrev accessFault : BitVec 7 := 0x12
abbrev colourMismatch : BitVec 7 := 0x13
abbrev keyUnknown : BitVec 7 := 0x20
abbrev keyStale : BitVec 7 := 0x21
abbrev keyGone : BitVec 7 := 0x22
abbrev keyUseExhausted : BitVec 7 := 0x23
abbrev keyAttrDenied : BitVec 7 := 0x24
abbrev counterExhausted : BitVec 7 := 0x30
abbrev lengthInvalid : BitVec 7 := 0x31
abbrev padInvalid : BitVec 7 := 0x32
abbrev authFail : BitVec 7 := 0x33
abbrev operandRange : BitVec 7 := 0x40
abbrev pointInvalid : BitVec 7 := 0x41
abbrev resultZero : BitVec 7 := 0x42
abbrev faultDetected : BitVec 7 := 0x43
abbrev modulusInvalid : BitVec 7 := 0x44
abbrev quota : BitVec 7 := 0x50
abbrev instanceReset : BitVec 7 := 0x51
abbrev stepLimit : BitVec 7 := 0x52
abbrev mbxTimeout : BitVec 7 := 0x53
abbrev shrinkPending : BitVec 7 := 0x54
abbrev quorumMissing : BitVec 7 := 0x60
abbrev hollowUnavailable : BitVec 7 := 0x61
abbrev pendingSecure : BitVec 7 := 0x62
abbrev twinMismatch : BitVec 7 := 0x70
abbrev deviceHalted : BitVec 7 := 0x7F
end St

/-! ## Lanes, jobs, instances -/

/-- A lane. -/
def State.lane (s : State) (l : LaneId) : Lane := s.lanes[l]

/-- Put a lane back. -/
def State.setLane (s : State) (l : LaneId) (x : Lane) : State := { s with lanes := s.lanes.set l.val x l.isLt }

/-- Change a lane. -/
def State.modLane (s : State) (l : LaneId) (f : Lane → Lane) : State := s.setLane l (f (s.lane l))

/-- The job of a slot in flight. -/
def State.job (s : State) (slot : Nat) : Option Job := s.jobs.find? (fun j => j.slot == slot)

/-- Change the job of a slot. -/
def State.modJob (s : State) (slot : Nat) (f : Job → Job) : State :=
  { s with jobs := s.jobs.map (fun j => if j.slot = slot then f j else j) }

/-- An instance that exists. -/
def State.inst (s : State) (i : Nat) : Option Inst := tget s.insts i

/-- Change an instance that exists. -/
def State.modInst (s : State) (i : Nat) (f : Inst → Inst) : State := { s with insts := tmod s.insts i f }

/-- Change a queue pair of an instance. -/
def State.modQ (s : State) (i : Nat) (q : Fin 4) (f : QPair → QPair) : State :=
  s.modInst i (fun x => { x with qs := x.qs.set q.val (f x.qs[q]) q.isLt })

/-- A job has ended its work and waits for release. -/
def Job.finished (j : Job) : Bool := match j.st with | .finished => true | _ => false

/-- Jobs of an instance in flight. -/
def State.inflightOf (s : State) (i : Nat) : Nat := (s.jobs.filter (fun j => j.inst == i)).length

/-- The job's world is the Hollow: its program header says so (R96). -/
def Job.hollow (j : Job) : Bool := j.header.hollow

/-- Admission frame A + step budget B - 1 is the last frame of the budget; 0 means 100,000 (R80). -/
def Job.budget (j : Job) : Nat := if j.desc.stepBudget = 0 then 100000 else j.desc.stepBudget.toNat

/-- The deadline D in frames: 1 is treated as 2, none when 0 (R36). -/
def Job.deadline (j : Job) : Option Nat :=
  if j.desc.deadline = 0 then none else some (max 2 j.desc.deadline.toNat)

/-- The frame A + D - 1 of a job's deadline (R36). -/
def Job.deadlineFrame (j : Job) : Option Nat := j.deadline.map (fun d => j.admittedAt + d - 1)

/-! ## Events (R447 to R457) -/

/-- Codes of severity SECURITY (Table 12-2). -/
def isSecurity (code : Nat) : Bool :=
  0x8000 ≤ code && code < 0x9000 ||
  [0x2001, 0x2002, 0x2003, 0x2006, 0x2008, 0x3001, 0x3007, 0x300A, 0x4001, 0x5010, 0x5011, 0x5013].contains code

/-- Severity of a code (Table 12-2). -/
def severity (code : Nat) : BitVec 4 :=
  if isSecurity code then 4
  else if [0x1003, 0x1007, 0x4002, 0x5001, 0x5003, 0x5014, 0x5021, 0x7002, 0x7005, 0x7012, 0x7013, 0x9001, 0x9004].contains code then 3
  else if [0x0004, 0x1001, 0x1002, 0x1004, 0x1005, 0x1008, 0x2004, 0x3004, 0x3005, 0x4005, 0x4006, 0x5002, 0x5020, 0x6001, 0x9002].contains code then 2
  else 1

/-- Level of a code (Table 12-2); for 0x2001 the level of the master P1 (R450). -/
def eventLevel (code p1 : Nat) : BitVec 3 :=
  if code = 0x1003 then 2
  else if code = 0x1004 || code = 0x1007 || code = 0x1008 then 3
  else if code = 0x1005 || code = 0x1006 then 4
  else if code = 0x2001 then (if p1 < 64 then 3 else if p1 < 96 then 2 else if p1 = 104 || p1 = 105 then 2 else 5)
  else if code / 0x1000 = 3 || code / 0x1000 = 4 || code / 0x1000 = 5 then 2
  else if code / 0x1000 = 6 then 4
  else if code / 0x1000 = 9 then (if p1 = 10 then 3 else 2)
  else 5

/-- HOLLOW of a record: always for 0x8xxx and 0x2004 to 0x2006 (R450). -/
def eventHollow (code : Nat) (hollow : Bool) : Bool :=
  hollow || code / 0x1000 = 8 || (0x2004 ≤ code && code ≤ 0x2006)

/-- The record of an event, before SEQ and CHECK (R447, R448). -/
def State.event (s : State) (code : Nat) (hollow : Bool) (p1 p2 p3 : Nat) : Event :=
  { code := BitVec.ofNat 16 code, severity := severity code, level := eventLevel code p1,
    hollow := eventHollow code hollow, power := BitVec.ofNat 24 s.strata.power,
    seconds := BitVec.ofNat 32 s.strata.seconds, frameIdx := BitVec.ofNat 17 s.strata.frameIdx, seq := 0,
    p1 := BitVec.ofNat 32 p1, p2 := BitVec.ofNat 32 p2, p3 := BitVec.ofNat 32 p3, check := 0, cycle := s.frame.cycle }

/-- The order of R449 within one frame cycle: LEVEL ascending, then CODE ascending. -/
def Event.before (a b : Event) : Bool :=
  decide (a.level.toNat < b.level.toNat) || (a.level == b.level && decide (a.code.toNat < b.code.toNat))

/-- Frame cycles at which several events share one cycle: the phase points of Table 01-1 (R449). -/
def exactCycles : List Nat := [0, 11200, 11372, 11920]

/-- Two events of the same frame and the same phase point (R449). -/
def Event.tied (a b : Event) : Bool :=
  a.cycle == b.cycle && a.seconds == b.seconds && a.frameIdx == b.frameIdx && exactCycles.contains a.cycle

/-- Put an event behind the earlier ones, in the order of R449 (list newest first). -/
def placeEvent (e : Event) : List Event → List Event
  | [] => [e]
  | x :: xs => if e.tied x && e.before x then x :: placeEvent e xs else e :: x :: xs

/-- Drop the newest non-security record of a list kept newest first; none when all are security records (R455). -/
def dropNewestPlain : List Event → Option (List Event)
  | [] => none
  | x :: xs => if x.severity = 4 then (dropNewestPlain xs).map (x :: ·) else some xs

/-- Gather one event: into the buffer of 2,048, or during a freeze into the side buffer of 16 or the count (R452, R455, R456). -/
def Strata.gather (t : Strata) (e : Event) : Strata :=
  match t.frozen with
  | some (z, n) =>
    if e.severity = 4 then
      (if t.sideFull ≠ [] then { t with sideFull := t.sideFull ++ [e] }
       else if t.side.length < 16 then { t with side := t.side ++ [e] }
       else { t with sideFull := [e] })
    else { t with frozen := some (z, n + 1), lost := min (t.lost + 1) (2 ^ 32 - 1) }
  | none =>
    if t.buffer.length < 2048 then { t with buffer := (placeEvent e t.buffer.reverse).reverse }
    else if e.severity = 4 then
      (match dropNewestPlain t.buffer.reverse with
       | some r => { t with buffer := (placeEvent e r).reverse, lost := min (t.lost + 1) (2 ^ 32 - 1),
                            lostNow := (t.lostNow.1 + 1, t.lostNow.2) }
       | none => { t with lost := min (t.lost + 1) (2 ^ 32 - 1), lostNow := (t.lostNow.1 + 1, t.lostNow.2 + 1) })
    else { t with lost := min (t.lost + 1) (2 ^ 32 - 1), lostNow := (t.lostNow.1 + 1, t.lostNow.2) }

/-- Raise an event (R447). -/
def State.raise (s : State) (code : Nat) (hollow : Bool) (p1 p2 p3 : Nat) : State :=
  { s with strata := s.strata.gather (s.event code hollow p1 p2 p3) }

/-- A signed parameter in two's complement, 32 bits (Table 12-3). -/
def tc32 (n : Int) : Nat := (BitVec.ofInt 32 n).toNat

/-! ## Counters (R459 to R464) -/

/-- Add to a counter, saturating at 2^48 - 1 and setting SAT (R459). -/
def Ctr.add (c : Ctr) (n : Nat) : Ctr :=
  if c.live.toNat + n < 2 ^ 48 then { c with live := BitVec.ofNat 48 (c.live.toNat + n) }
  else { c with live := BitVec.allOnes 48, sat := true }

/-- Add n to entry k of a counter table whose unlisted entries are at reset. -/
def ctrAdd (t : Table Ctr) (k n : Nat) : Table Ctr :=
  if n = 0 then t else tset t k (((tget t k).getD {}).add n)

/-- Count in an accounting counter of an instance (R462). -/
def State.countInst (s : State) (i c n : Nat) : State :=
  { s with pmc := { s.pmc with inst := ctrAdd s.pmc.inst (16 * i + c) n } }

/-- Count in a global counter (R463). -/
def State.countGlob (s : State) (g n : Nat) : State :=
  { s with pmc := { s.pmc with glob := ctrAdd s.pmc.glob g n } }

/-- Measure work of an instance in this frame (R39). -/
def State.work (s : State) (i : Nat) (f : Five → Five) : State :=
  { s with frame := { s.frame with worked := tset s.frame.worked i (f ((tget s.frame.worked i).getD {})) } }

/-- The select byte of a lane's counter (R461). -/
def State.laneSel (s : State) (l : LaneId) (k : Nat) : Nat :=
  ((((tget s.pmc.lsel l.val).getD 0x0807060504030201) >>> (8 * k)).setWidth 8).toNat

/-- The sample record of R464 (Table 12-7). -/
def sampleBytes (frame : Nat) (pc : Word) (inst job lane : Nat) (klevel : Bool) (fcyc : Nat) (value : Nat) : Bytes :=
  leBytes 8 (pc &&& 0x007FFFFFFFFFFFFF).toNat ++ leBytes 8 frame ++
  leBytes 4 (inst % 1024 + job % 16384 * 2 ^ 10 + lane % 64 * 2 ^ 24 + (if klevel then 2 ^ 30 else 0)) ++
  leBytes 4 (fcyc % 16384) ++ leBytes 4 value ++ leBytes 4 0

/-- Take one sample on a lane: into the ring, or dropped when the ring is full (R464). -/
def State.sample (s : State) (l : LaneId) (pc : Word) (value : Nat) : State :=
  let x := s.lane l
  if (s.pmc.smpTail - s.pmc.smpHead).toNat < 2 ^ s.pmc.smpLog then
    let j := (x.run.bind s.job)
    let (fc, s1) := s.take 14
    { s1 with
      pmc := { s1.pmc with smpTail := s1.pmc.smpTail + 1 }
      out := s1.out ++ [.sample s.pmc.smpTail (sampleBytes s.frame.num pc ((j.map (·.inst)).getD 0) ((j.map (·.slot)).getD 0) l.val
        (decide (x.bank.level = .k)) fc.toNat value)] }
  else { s with pmc := { s.pmc with smpLost := min (s.pmc.smpLost + 1) (2 ^ 32 - 1) } }

/-- Count an event of Table 12-4 in one of a lane's counters, sampling where it passes a multiple of the period (R461, R464). -/
def State.countLaneAt (s : State) (l : LaneId) (sel n : Nat) (pc : Word) (k : Nat) : State :=
  if s.laneSel l k = sel then
    let old := (((tget s.pmc.lane (8 * l.val + k)).getD {}).live).toNat
    let s1 := { s with pmc := { s.pmc with lane := ctrAdd s.pmc.lane (8 * l.val + k) n } }
    if s.pmc.smpEn && s.pmc.smpCounter.toNat == k && decide (old / s.pmc.period < (old + n) / s.pmc.period) then
      s1.sample l pc (old + n)
    else s1
  else s

/-- Count a lane event in every counter that selects it; nothing is counted on a Hollow slice (R461). -/
def State.countLane (s : State) (l : LaneId) (sel n : Nat) (pc : Word) : State :=
  if (s.lane l).hollow then s
  else (List.range 8).foldl (fun s k => s.countLaneAt l sel n pc k) s

/-! ## Outputs, replies and notices (R307, R310) -/

/-- Put out one thing. -/
def State.emit (s : State) (o : Output) : State := { s with out := s.out ++ [o] }

/-- Where replies to a source go. -/
def srcDest : Src → Dest
  | .fn n => .mailbox n
  | .port c => .port c

/-- A reply that is complete in this frame: written at the next frame's tail (R310). -/
def State.reply (s : State) (dest : Dest) (mtype : Nat) (status : BitVec 7) (tag : BitVec 16) (body : Bytes) : State :=
  { s with mail := { s.mail with replies := s.mail.replies ++
    [{ dest := dest, mtype := mtype, status := status.setWidth 8, tag := tag, body := body, due := s.frame.num + 1 }] } }

/-- An interim reply (R302, R365). -/
def State.interim (s : State) (dest : Dest) (mtype : Nat) (status : BitVec 7) (tag : BitVec 16) : State :=
  { s with mail := { s.mail with replies := s.mail.replies ++
    [{ dest := dest, mtype := mtype, status := status.setWidth 8, tag := tag, interim := true, body := [], due := s.frame.num + 1 }] } }

/-- A notice of the unit (R310). -/
def State.notice (s : State) (dest : Dest) (mtype : Nat) (body : Bytes) : State :=
  { s with mail := { s.mail with replies := s.mail.replies ++
    [{ dest := dest, mtype := mtype, status := 0, tag := 0, notice := true, body := body, due := s.frame.num + 1 }] } }

/-- The notice of a change of instance state, to the instance and to instance 0 (type 0xF3, R312). -/
def stateCode : InstState → Nat
  | .active => 1 | .stalled => 2 | .resetting => 3 | .frozen => 4 | .exported => 5 | .removing => 6 | .dormant => 7

/-- Change an instance's STATE and tell it and the manager (R312). -/
def State.setInstState (s : State) (i : Nat) (st : InstState) (shadow : Bool) : State :=
  let body := leBytes 2 (stateCode st + 16 * i + (if shadow then 2 ^ 14 else 0))
  let s1 := s.modInst i (fun x => { x with state := st, shadow := shadow })
  let s2 := s1.notice (.mailbox i) 0xF3 body
  if i = 0 then s2 else s2.notice (.mailbox 0) 0xF3 body

/-! ## Fencing elements (R49, R127, R469) -/

/-- First element number of each kind in the order of Table 12-10. -/
def elemOf : ElemKind → Nat → Nat
  | .core, n => n
  | .keccak, n => 20 + n
  | .sha2, n => 26 + (n - 8)
  | .drbg, n => 34 + n
  | .entropy, n => 42 + n
  | .pke, n => 46 + n
  | .deriv, n => 62 + n
  | .protector, n => 70 + n
  | .mover, n => 74 + n
  | .lane, n => 90 + n
  | .macsec, n => 154 + n

/-- Kind code and index of an element number (Table 12-11). -/
def elemKind (e : Nat) : Nat × Nat :=
  if e < 20 then (1, e) else if e < 26 then (2, e - 20) else if e < 34 then (3, e - 26 + 8)
  else if e < 42 then (4, e - 34) else if e < 46 then (5, e - 42) else if e < 62 then (6, e - 46)
  else if e < 70 then (7, e - 62) else if e < 74 then (8, e - 70) else if e < 90 then (9, e - 74)
  else if e < 154 then (10, e - 90) else (11, e - 154)

/-- An element's record. -/
def State.elem (s : State) (e : Nat) : Elem := s.test.elems.toList.getD e {}

/-- An element is fenced. -/
def State.fenced (s : State) (e : Nat) : Bool := (s.elem e).fenced

/-- Change an element's record. -/
def State.modElem (s : State) (e : Nat) (f : Elem → Elem) : State :=
  if h : e < 158 then { s with test := { s.test with elems := s.test.elems.set e (f s.test.elems[e]) h } } else s

/-- Fence an element with the CAUSE of Table 12-11; FRM_STAT.FENCE_SEEN is set (R49, R50). -/
def State.fence (s : State) (e cause : Nat) : State :=
  let t := s.modElem e (fun x =>
    { x with
      fenced := true, cause := cause, passes := 0
      since := if x.fenced then x.since else s.frame.num
      fails := min (x.fails + 1) 0xFFFF })
  { t with frame := { t.frame with fenceSeen := true } }

/-! ## Gateable domains (Table 09-16) -/

/-- The domain of a lane's cluster. -/
def laneDomain (n : Nat) : Nat := n / 8
/-- The domain of a cipher core. -/
def coreDomain (n : Nat) : Nat := 8 + n / 4
/-- The domain of a hash engine: Keccak 0 to 5, SHA-2 8 to 15. -/
def hashDomain (n : Nat) : Nat := if n < 8 then 13 + n / 2 else 16 + (n - 8) / 4
/-- The domain of a public-key engine. -/
def pkeDomain (n : Nat) : Nat := 18 + n / 4

/-- A domain is gated, or a committed gate request keeps new work from it (R364, R365). -/
def State.shut (s : State) (d : Nat) : Bool :=
  s.prot.clockGated.getLsbD d || s.prot.powerGated.getLsbD d ||
    s.prot.gates.any (fun g => g.domain == d && decide (g.commit ≤ s.frame.num) && (g.action == 1 || g.action == 2))

/-! ## The end of a job (R72, R77, R81) -/

/-- Stop the job's public-key work: a call that has started and is not latched is aborted, its region cleared once the abort is complete; a queued or latched one is dropped and the region cleared with it (R81, R130, R241 to R243). -/
def Job.stopPke (j : Job) : Job :=
  match j.pke with
  | some c => if c.phase = .running || c.phase = .computed || c.phase = .written || c.phase = .aborting then { j with pke := some { c with phase := .aborting } }
              else { j with pke := none, region := none }
  | none => { j with region := none }

/-- The slice a job holds on a lane ends and its context there is discarded. -/
def Lane.drop (x : Lane) (slot : Nat) : Lane :=
  { x with run := if x.run = some slot then none else x.run,
           bank := if x.run = some slot then {} else x.bank,
           resident := x.resident.filter (fun e => e.1 != slot),
           grants := x.grants.filter (fun g => g.job != slot) }

/-- Take a job off every lane. -/
def State.dropContext (s : State) (slot : Nat) : State := { s with lanes := s.lanes.map (fun x => x.drop slot) }

/-- Block requests of a job are discarded (R130). -/
def State.dropBlocks (s : State) (slot : Nat) : State :=
  { s with cipher := { s.cipher with reqs := s.cipher.reqs.filter (fun r => r.job != slot) } }

/-- The chunk a hash engine or DRBG serves for a job is dropped. -/
def State.dropHash (s : State) (slot : Nat) : State :=
  { s with engines := { s.engines with
      chunk := s.engines.chunk.map (fun c => match c with | some (j, x, n) => if j = slot then none else some (j, x, n) | none => none)
      drbg := s.engines.drbg.map (fun d => match d.busy with | some (j, _) => if j = slot then { d with busy := none, done := 0 } else d | none => d) } }

/-- The work of a job ends with a status: its context block, block requests, hash contexts and public-key work end with it, its held output is discarded (R72, R130, R155). -/
def Job.close (j : Job) (status : BitVec 7) (detail : BitVec 16) : Job :=
  let k := j.stopPke
  { k with st := .finished, status := status, detail := detail, block := {}, saved := none,
           hash := Vector.replicate 4 none, ports := { k.ports with heldOut := Vector.replicate 2 [] },
           zeroing := decide (status ≠ St.ok) }

/-- A job ends its work with a status (R77). -/
def State.endJob (s : State) (slot : Nat) (status : BitVec 7) (detail : BitVec 16) : State :=
  (((s.modJob slot (fun j => j.close status detail)).dropContext slot).dropBlocks slot).dropHash slot

/-- Squash a job: no later squash overrides it, save DEVICE_HALTED (R81); S is the frame of R74. -/
def State.squash (s : State) (slot : Nat) (status : BitVec 7) (detail : BitVec 16) (atTail : Bool) : State :=
  match s.job slot with
  | none => s
  | some j =>
    if j.squashed.isSome && status ≠ St.deviceHalted then s
    else
      let s1 := s.endJob slot status detail
      s1.modJob slot (fun x => { x with squashed := some (if atTail then s.frame.num + 1 else s.frame.num) })

/-- Squash every job a test picks, in admission order. -/
def State.squashAll (s : State) (p : Job → Bool) (status : BitVec 7) (detail : Job → BitVec 16) (atTail : Bool) : State :=
  s.jobs.foldl (fun t j => if p j then t.squash j.slot status (detail j) atTail else t) s

/-- A WAITING job is signalled and becomes RUNNABLE (R77). -/
def Job.signal (j : Job) : Job := match j.st with | .waiting _ => { j with st := .runnable } | _ => j

/-- KMAC256 with the fixed-length form (R245). -/
def kmac256 (key input : Bytes) (n : Nat) (label : Bytes) : Bytes := Config.kmac true key input n label false

/-! ## The Hollow and the rotating order -/

/-- The Hollow serves requests: the unit runs and the Hollow is neither restarting nor halted (R310, R361). -/
def State.hollowUp (s : State) : Bool := decide (s.prot.hollow = .running)

/-- The unit runs its frames. -/
def State.running (s : State) : Bool := decide (s.power.run = .running)

/-- Indices 0 to m - 1 in the rotating order of frame f (R26). -/
def rotated (m f : Nat) : List Nat := (List.range m).map (fun k => (f + k) % m)

/-- Existing instances in rotating order (R26, R27). -/
def State.instOrder (s : State) : List Nat :=
  let ids := s.insts.map (·.1)
  let f := s.frame.num % 1024
  ids.filter (fun i => decide (f ≤ i)) ++ ids.filter (fun i => decide (i < f))

end Sys2Proof.Machine
end

