-- ==== Sys2Proof/Machine/Access.lean ====
section
/-! DEFINITION. Physical memory, translation and the protection checks (03_geing_architecture.md R97 to R105, 09_worlds_and_protection.md R334 to R349). -/

namespace Sys2Proof.Machine

/-! ## The physical address map (Table 09-2) -/

/-- End of the usable DRAM: seven eighths of the installed memory, in 10^9 bytes (R4, R337, Table 13-10). -/
def State.usableEnd (s : State) : Nat := s.host.mem.2.1 * 10 ^ 9 * 7 / 8

/-- The controller of a physical address, none where no range covers it (R334). -/
def State.ctrlOf (s : State) (a : Nat) : Option Nat :=
  if a < s.usableEnd then some 0
  else if 0x8000000000 ≤ a && a < 0x8004000000 then some 1
  else if 0xC000000000 ≤ a && a < 0xC001000000 then some 2
  else if 0xC002000000 ≤ a && a < 0xC002800000 then some 2
  else if 0xC003000000 ≤ a && a < 0xC004000000 then some 2
  else if 0xC001000000 ≤ a && a < 0xC001100000 then some 3
  else none

/-- Physical address of byte off of a lane's local store (Table 09-2). -/
def localAddr (l : LaneId) (off : Nat) : Nat := 0xC000000000 + 0x40000 * l.val + off

/-! ## An access and its check (R339 to R345) -/

/-- The five kinds of permission an access needs. -/
inductive AccKind where
  | read | write | exec | atomic
deriving DecidableEq, Repr

/-- An access as the protection unit sees it (R340). -/
structure Acc where
  ctx : Ctxt
  master : Nat
  kind : AccKind
  report : Nat
  user : Bool
  priv : Bool
  hollow : Bool
  inst : Nat
  cls : Nat
  mover : Bool := false
  reserved : Bool := false
  colour : Option (BitVec 4) := none
  job : Option Nat := none
deriving DecidableEq, Repr

/-- The permission bit a kind of access needs. -/
def permits (k : AccKind) (r w x a : Bool) : Bool :=
  match k with | .read => r | .write => w | .exec => x | .atomic => a

/-- What a check refuses: CAUSE, region matched, expected and found colour. -/
structure Refused where
  cause : Nat
  region : Option Nat := none
  expected : BitVec 4 := 0
  found : BitVec 4 := 0
  overlap : Option (Nat × Nat) := none
deriving DecidableEq, Repr

/-- The page owner entry of a page: the latest run covering it, unowned where none does (R337, R339). -/
def State.owner (s : State) (page : Nat) : PageOwner :=
  match s.prot.pot.find? (fun r => decide (r.1 ≤ page) && decide (page < r.1 + r.2.1)) with
  | some r => r.2.2
  | none => { world := 0, inst := 0, read := false, write := false, exec := false, atomic := false, user := false, dma := false,
              defColour := 0, tagged := false, anyInst := false, kind := 0 }

/-- The default map of Table 09-9. -/
def State.defaultMap (s : State) (a : Acc) (addr : Nat) : Bool :=
  match a.ctx with
  | .kernel h =>
    (0xC000000000 + 0x40000 * a.master ≤ addr && addr < 0xC000000000 + 0x40000 * (a.master + 1)) ||
    (a.kind == .read && decide ((s.owner (addr / 4096)).kind = 0 ∧ (s.owner (addr / 4096)).inst = a.inst ∧
      (s.owner (addr / 4096)).world = (if h then 2 else 1)))
  | .core true true =>
    (0xC002000000 ≤ addr && addr < 0xC002400000) ||
    ((a.kind == .read || a.kind == .write) &&
      ((0x8000000000 ≤ addr && addr < 0x8004000000) || decide ((s.owner (addr / 4096)).kind = 6 ∧ (s.owner (addr / 4096)).world ≠ 0)))
  | .core false true =>
    (0xC002400000 ≤ addr && addr < 0xC002800000) ||
    (a.kind == .read && decide ((s.owner (addr / 4096)).kind = 2 ∧ (s.owner (addr / 4096)).world = 1))
  | _ => false

/-- The rule checks of Table 09-8, causes 2 and 3 (R341 to R344). -/
def State.checkRules (s : State) (a : Acc) (addr : Nat) : Option Refused :=
  let page := addr / 4096
  match s.prot.rules.filter (fun r => r.1 == a.ctx && r.2.2.en && decide (r.2.2.base.toNat ≤ page) && decide (page ≤ r.2.2.limit.toNat)) with
  | [] => if s.defaultMap a addr then none else some { cause := 2 }
  | [r] => if permits a.kind r.2.2.read r.2.2.write r.2.2.exec r.2.2.atomic && (!a.user || r.2.2.user) then none else some { cause := 2 }
  | r :: _ => some { cause := 3, overlap := some (0xFF, r.2.1) }

/-- The enabled regions of a controller that cover a page (R335). -/
def State.regionsAt (s : State) (ctrl page : Nat) : List (Nat × Region) :=
  s.prot.regions.filter (fun e => e.1 / 16 == ctrl && e.2.en && decide (e.2.base.toNat ≤ page) && decide (page ≤ e.2.limit.toNat))

/-- A region admits an access: its WORLD, CLASS and rights (R335). -/
def regionAdmits (r : Region) (a : Acc) : Bool :=
  r.world.getLsbD (if a.hollow then 1 else 0) && r.cls.getLsbD a.cls && permits a.kind r.read r.write r.exec r.atomic

/-- The page owner checks, causes 5 to 7 (R339). -/
def State.checkOwner (s : State) (a : Acc) (addr : Nat) (region : Option Nat) : Option Refused :=
  let o := s.owner (addr / 4096)
  if o.world = 0 then some { cause := 5, region := region }
  else if o.world = 3 && !(a.reserved || decide (a.ctx = .core true true)) then some { cause := 5, region := region }
  else if o.world ≠ 3 && decide (o.world ≠ (if a.hollow then 2 else 1)) then some { cause := 5, region := region }
  else if o.world ≠ 3 && !o.anyInst && !a.priv && decide (o.inst ≠ a.inst) then some { cause := 6, region := region }
  else if !(permits a.kind o.read o.write o.exec o.atomic) || (a.user && !o.user) || (a.mover && !o.dma) ||
      (a.kind == .write && (o.kind == 2 || o.kind == 6)) then some { cause := 7, region := region }
  else none

/-- The lane whose local store holds a physical address, and the byte of the store (Table 09-2). -/
def localOf (addr : Nat) : Option (LaneId × Nat) :=
  if 0xC000000000 ≤ addr ∧ addr < 0xC001000000 then some (Fin.ofNat 64 ((addr - 0xC000000000) / 0x40000), (addr - 0xC000000000) % 0x40000)
  else none

/-- The offset in the running window of a byte of local store (R92, R98). -/
def Lane.windowOff (x : Lane) (off : Nat) : Option Nat :=
  if x.run.isSome && decide (x.bank.winAt ≤ off) && decide (off < x.bank.winAt + 0x4000) then some (off - x.bank.winAt) else none

/-- The colour of a window granule. -/
def Ctx.colourAt (c : Ctx) (off : Nat) : BitVec 4 := c.colours.toList.getD (off / 64) 0

/-- A granule of local store takes a colour, kept where it is not 0 (R103, R107). -/
def Lane.retag (x : Lane) (off : Nat) (v : BitVec 4) : Lane :=
  { x with tags := if v = 0 then tdel x.tags (off / 64) else tset x.tags (off / 64) v }

/-- The colour of a granule of local store: the window's, or the lane's own tag (R103, R107). -/
def Lane.granule (x : Lane) (off : Nat) : BitVec 4 :=
  match x.windowOff off with
  | some o => x.bank.colourAt o
  | none => (tget x.tags (off / 64)).getD 0

/-- The colour of a granule of local store or of DRAM (R103, R338, R345). -/
def State.granule (s : State) (addr : Nat) : BitVec 4 :=
  match localOf addr with
  | some (l, off) => (s.lane l).granule off
  | none =>
    let o := s.owner (addr / 4096)
    if o.tagged then ((tget s.prot.tags (addr / 4096)).getD []).getD (addr % 4096 / 64) 0 else o.defColour

/-- The colour check, cause 8 (R103, R345): where the region is TAGGED, or the default map stands in for a region, and the access carries a colour. -/
def State.checkColour (s : State) (a : Acc) (addr : Nat) (region : Option Nat) : Option Refused :=
  match a.colour with
  | none => none
  | some c => if s.granule addr = c then none else some { cause := 8, region := region, expected := c, found := s.granule addr }

/-- The checks of Table 09-8 from rule match on, for one part of an access (R342). -/
def State.checkPart (s : State) (a : Acc) (addr : Nat) : Option Refused :=
  match s.checkRules a addr with
  | some r => some r
  | none =>
    match s.ctrlOf addr with
    | none => some { cause := 4 }
    | some ctrl =>
      match s.regionsAt ctrl (addr / 4096) with
      | [] =>
        if s.defaultMap a addr then ((if ctrl < 2 then s.checkOwner a addr none else none).or (s.checkColour a addr none)) else some { cause := 4 }
      | [e] =>
        if !(regionAdmits e.2 a) then some { cause := 4, region := some (e.1 % 16) }
        else
          match (if e.2.paged then s.checkOwner a addr (some (e.1 % 16)) else none) with
          | some r => some r
          | none => if e.2.tagged then s.checkColour a addr (some (e.1 % 16)) else none
      | e :: _ => some { cause := 4, region := some (e.1 % 16), overlap := some (ctrl, e.1 % 16) }

/-- The parts of an access: its start and the first byte of each further granule it touches (R346). -/
def parts (addr len : Nat) : List Nat :=
  addr :: ((List.range (len / 64 + 1)).map (fun k => (addr / 64 + 1 + k) * 64)).filter (fun b => decide (b < addr + len))

/-- The first failing part of an access: its number, address and refusal (R346). -/
def State.checkAccess (s : State) (a : Acc) (addr len : Nat) : Option (Nat × Nat × Refused) :=
  ((parts addr len).zipIdx.findSome? (fun (b, k) => (s.checkPart a b).map (fun r => (k, b, r))))

/-! ## The violation report (R348, R349) -/

/-- Deliver a report: the ring of 256, the counts, PRT_LAST for a Plain master, event 0x2001 once per master and frame, event 0x2002 at an overlap. -/
def State.violate (s : State) (v : Violation) (overlap : Option (Nat × Nat)) : State :=
  let again := s.prot.reported.contains v.master
  let v := { v with suppressed := tnat s.prot.suppressed v.master }
  let p := s.prot
  let s1 := { s with
    prot := { p with
      ring := (p.ring ++ [v]).drop (p.ring.length + 1 - 256)
      last := if v.hollow then p.last else some v
      violAll := min (p.violAll + 1) (2 ^ 32 - 1)
      violPlain := if v.hollow then p.violPlain else min (p.violPlain + 1) (2 ^ 32 - 1)
      reported := if again then p.reported else v.master :: p.reported
      suppressed := tset p.suppressed v.master (if again then min (tnat p.suppressed v.master + 1) (2 ^ 32 - 1) else 0) } }
  let s2 := s1.countGlob 62 1
  let s3 := if again then s2 else s2.raise 0x2001 v.hollow v.master v.cause (v.addr % 2 ^ 32)
  match overlap with
  | some (c, i) => s3.raise 0x2002 v.hollow c 2 i
  | none => s3

/-- The report of a refused access. -/
def Acc.report_ (a : Acc) (frame ctrl addr len part : Nat) (r : Refused) : Violation :=
  { addr := addr, frame := frame, kind := a.report, cause := r.cause, hollow := a.hollow, master := a.master, ctrl := ctrl,
    region := r.region, expected := r.expected, found := r.found,
    inst := match a.ctx with | .user _ i => i | _ => 0
    priv := a.priv, part := part, length := len, job := a.job, suppressed := 0 }

/-! ## Two-stage translation (R99 to R102) -/

/-- What a walk gives: a page with its output and permissions R W X U, or a refusal at stage 1 or stage 2. -/
inductive Walk where
  | page (out : Nat) (big : Bool) (perms : BitVec 4)
  | bad
  | bad2 (ia : Nat)
deriving DecidableEq, Repr

/-- An entry breaks a rule of R101 at either stage; USER is must-be-zero at stage 2. -/
def pteBad (e : Nat) (stage2 : Bool) : Bool :=
  !(e.testBit 0) || (e / 64) % 64 != 0 || e / 2 ^ 40 != 0 || (e.testBit 3 && e.testBit 4) || (stage2 && e.testBit 5)

/-- The output address of an entry. -/
def pteOut (e : Nat) : Nat := e % 2 ^ 40 / 4096 * 4096

/-- Permissions of an entry: bit 0 read, 1 write, 2 execute, 3 user. -/
def ptePerms (e : Nat) : BitVec 4 := BitVec.ofNat 4 (e / 4)

/-- Walk three levels; rd gives a table entry or the stage-2 refusal met in reading it (R99, R100, R101). With the outcome: the intermediate entries the walk went through, by address. -/
def walk (rd : Nat → Nat ⊕ Nat) (stage2 : Bool) (base i0 i1 i2 : Nat) : Walk × List (Nat × Nat) :=
  let a0 := base + 8 * i0
  match rd a0 with
  | .inr ia => (.bad2 ia, [])
  | .inl e0 =>
    if pteBad e0 stage2 || e0.testBit 1 then (.bad, [])
    else
      let a1 := pteOut e0 + 8 * i1
      match rd a1 with
      | .inr ia => (.bad2 ia, [(a0, e0)])
      | .inl e1 =>
        if pteBad e1 stage2 then (.bad, [(a0, e0)])
        else if e1.testBit 1 then (if pteOut e1 % 2 ^ 21 = 0 then .page (pteOut e1) true (ptePerms e1) else .bad, [(a0, e0)])
        else
          match rd (pteOut e1 + 8 * i2) with
          | .inr ia => (.bad2 ia, [(a0, e0), (a1, e1)])
          | .inl e2 =>
            (if pteBad e2 stage2 || !(e2.testBit 1) then .bad else .page (pteOut e2) false (ptePerms e2), [(a0, e0), (a1, e1)])

/-- A table entry of physical memory. -/
def State.pte (s : State) (a : Nat) : Nat := leNat (Memory.readBytes s.mem a 8)

/-- The VMID of a TTB2 value (Table 03-2). -/
def vmidOf (ttb2 : Word) : Nat := (ttb2.extractLsb' 40 11).toNat

/-- An entry of a lane's walk cache (R102, Table 03-1). -/
def Lane.cached (x : Lane) (stage2 : Bool) (a : Nat) : Option Nat :=
  (x.walks.find? (fun e => e.vmid == vmidOf x.ttb2 && e.stage2 == stage2 && e.addr == a)).map (·.value)

/-- Stage 2 of an intermediate address on a lane, under its TTB2 (R92, R99). -/
def State.stage2 (s : State) (x : Lane) (ia : Nat) : Walk × List (Nat × Nat) :=
  if x.ttb2.getLsbD 0 then
    walk (fun a => .inl ((x.cached true a).getD (s.pte a))) true ((x.ttb2.extractLsb' 12 28).toNat * 4096) (ia / 2 ^ 30 % 1024) (ia / 2 ^ 21 % 512)
      (ia / 4096 % 512)
  else (.bad, [])

/-- An address within a page. -/
def within (out : Nat) (big : Bool) (a : Nat) : Nat := if big then out + a % 2 ^ 21 else out + a % 4096

/-- A stage-1 table entry, read through stage 2. The read of a table needs no READ permission of stage 2 and is not checked by the protection unit: the spec asks neither (DESIGN CHOICE, log 130). -/
def State.pte1 (s : State) (x : Lane) (ia : Nat) : Nat ⊕ Nat :=
  match x.cached false ia with
  | some v => .inl v
  | none =>
    match (s.stage2 x ia).1 with
    | .page out big _ => .inl (s.pte (within out big ia))
    | _ => .inr ia

/-- Stage 1 of a virtual address on a lane under TTB1 (R99). -/
def State.stage1 (s : State) (x : Lane) (ttb1 : Word) (va : Nat) : Walk × List (Nat × Nat) :=
  if ttb1.getLsbD 0 then
    walk (s.pte1 x) false ((ttb1.extractLsb' 12 28).toNat * 4096) (va / 2 ^ 30 % 512) (va / 2 ^ 21 % 512) (va / 4096 % 512)
  else (.bad, [])

/-- The walk cache takes the intermediate entries of a walk, the oldest of 32 leaving (Table 03-1; log 14). -/
def Lane.keepWalks (x : Lane) (stage2 : Bool) (es : List (Nat × Nat)) : Lane :=
  let new := (es.filter (fun e => (x.cached stage2 e.1).isNone)).map (fun e => { vmid := vmidOf x.ttb2, stage2 := stage2, addr := e.1, value := e.2 : WalkEntry })
  { x with walks := (x.walks ++ new).drop (x.walks.length + new.length - 32) }

/-- The ASID of TTB1 (R92). -/
def asidOf (ttb1 : Word) : BitVec 10 := ttb1.extractLsb' 40 10

/-- The TLB entry of a virtual address (R102). -/
def Lane.hit (x : Lane) (asid : BitVec 10) (va : Nat) : Option TlbEntry :=
  x.tlb.find? (fun e => e.hollow == x.hollow && e.asid == asid && (if e.big then va / 2 ^ 21 * 512 == e.page else va / 4096 == e.page))

/-- Translate a virtual address on a lane: through the TLB, else by a walk of both stages that fills it; 64 entries, the oldest replaced (log 14). -/
def State.translate (s : State) (l : LaneId) (c : Ctx) (va : Nat) : State × (TlbEntry ⊕ Walk) :=
  let x := s.lane l
  match x.hit (asidOf c.ttb1) va with
  | some e => (s, .inl e)
  | none =>
    let s := s.countLane l 0x06 1 c.pc
    let x := s.lane l
    let (w1, t1) := s.stage1 x c.ttb1 va
    let x1 := x.keepWalks false t1
    match w1 with
    | .page out1 big1 p1 =>
      let ia := within out1 big1 va
      let (w2, t2) := s.stage2 x1 ia
      let x2 := x1.keepWalks true t2
      match w2 with
      | .page out2 big2 p2 =>
        let big := big1 && big2
        let e : TlbEntry :=
          { hollow := x.hollow, asid := asidOf c.ttb1, page := if big then va / 2 ^ 21 * 512 else va / 4096, big := big,
            ia := ia, out := if big then out2 else within out2 big2 ia / 4096 * 4096, perms1 := p1, perms2 := p2 }
        (s.setLane l { x2 with tlb := (x.tlb ++ [e]).drop (x.tlb.length + 1 - 64) }, .inl e)
      | _ => (s.setLane l x2, .inr (.bad2 ia))
    | w => (s.setLane l x1, .inr w)

/-- The permission bit of R W X for a kind; an atomic reads and writes (R101). -/
def hasPerm (p : BitVec 4) (k : AccKind) : Bool :=
  match k with
  | .read => p.getLsbD 0
  | .write => p.getLsbD 1
  | .exec => p.getLsbD 2
  | .atomic => p.getLsbD 0 && p.getLsbD 1

/-! ## Lane accesses (R97 to R105) -/

/-- Where a lane access goes: a window offset or a physical address. -/
inductive Loc where
  | window (off : Nat)
  | phys (addr : Nat)
deriving DecidableEq, Repr

/-- What a lane access meets: its place, a trap, or a wait for an outstanding request on the granule (R141). -/
inductive AccRes where
  | at_ (loc : Loc)
  | trap (t : Trap)
  | wait
deriving DecidableEq, Repr

/-- FSYN.KIND of an access (Table 03-17). -/
def fsynKind (k : AccKind) (tag : Bool) : BitVec 3 :=
  if tag then 4 else match k with | .read => 0 | .write => 1 | .exec => 2 | .atomic => 3

/-- KIND of a violation report of a lane access (Table 09-10). -/
def reportKind (k : AccKind) : Nat := match k with | .read => 0 | .write => 1 | .exec => 2 | .atomic => 5

/-- Two ranges share a 64-byte granule. -/
def sameGranule (a n b m : Nat) : Bool := decide (0 < n ∧ 0 < m ∧ a / 64 ≤ (b + m - 1) / 64 ∧ b / 64 ≤ (a + n - 1) / 64)

/-- The window ranges named by outstanding hash and public-key requests of a job (R141). -/
def Job.busyRanges (j : Job) : List (Nat × Nat) :=
  (j.hash.toList.flatMap (fun h => match h with
    | some x => x.reqs.map (fun r => match r with | .absorb _ o n => (o, n) | .squeeze o n => (o, n))
    | none => [])) ++
  (match j.pke with
   | some p => if p.phase = .latched || p.phase = .aborted then [] else (p.blockOff, 64) :: (p.ins ++ p.outs)
   | none => [])

/-- An access touches a granule of an outstanding request's range (R141). -/
def Job.busyAt (j : Job) (off n : Nat) : Bool := j.busyRanges.any (fun r => sameGranule r.1 r.2 off n)

/-- The access descriptor of a lane's running job (Table 09-6). -/
def laneAcc (l : LaneId) (x : Lane) (j : Job) (c : Ctx) (k : AccKind) (colour : Option (BitVec 4)) : Acc :=
  { ctx := if c.level = .u then .user x.hollow j.inst else .kernel x.hollow
    master := l.val, kind := k, report := reportKind k, user := decide (c.level = .u), priv := decide (c.level = .k),
    hollow := x.hollow, inst := j.inst, cls := if c.level = .u then 0 else 1, colour := colour, job := some j.slot }

/-- The lane trap of a refused check (Table 09-8). -/
def refusedTrap (k : AccKind) (tag : Bool) (p : Word) (r : Refused) : Trap :=
  if r.cause = 8 then { cause := 0x09, kind := some (fsynKind k tag), found := r.found, expected := r.expected, faddr := some p }
  else { cause := 0x08, kind := some (fsynKind k tag), faddr := some p }

/-- A refusal inside the window: beyond WINB (its CAUSE is left open, log 9) or of another colour (R103, R104). -/
def State.windowRefuse (s : State) (l : LaneId) (j : Job) (c : Ctx) (k : AccKind) (tag : Bool) (p : Word) (off n : Nat)
    (colour : Option (BitVec 4 × BitVec 4)) : State × AccRes :=
  let a := laneAcc l (s.lane l) j c k none
  let (open_, s1) := s.take 4
  let r : Refused := match colour with
    | some (e, f) => { cause := 8, expected := e, found := f }
    | none => { cause := open_.toNat }
  let s2 := s1.violate (a.report_ s.frame.num 2 (localAddr l (c.winAt + off)) n 0 r) none
  (s2, .trap (match colour with
    | some (e, f) => { cause := 0x09, kind := some (fsynKind k tag), found := f, expected := e, faddr := some p }
    | none => { cause := 0x08, kind := some (fsynKind k tag), faddr := some p }))

/-- An atomic or TAGW of U level outside the window: trap 0x08; the report's ADDR and CAUSE are left open (R118, log 9). -/
def State.outsideRefuse (s : State) (l : LaneId) (j : Job) (c : Ctx) (k : AccKind) (tag : Bool) (p : Word) (n : Nat) : State × AccRes :=
  let a := laneAcc l (s.lane l) j c k none
  let (cause, s1) := s.take 4
  let (addr, s2) := s1.take 40
  (s2.violate (a.report_ s.frame.num 0 addr.toNat n 0 { cause := cause.toNat }) none,
   .trap { cause := 0x08, kind := some (fsynKind k tag), faddr := some p })

/-- An access inside the window range: WINB, to which TAGR is bound at U alone, outstanding requests, colour (R103, R104, R118, R141). -/
def State.windowAccess (s : State) (l : LaneId) (j : Job) (c : Ctx) (k : AccKind) (tag check : Bool) (p : Word) (n : Nat) : State × AccRes :=
  let off := ptrVa p - winBase
  if decide (c.winSize < off + n) && !(tag && !check && decide (c.level = .k)) then s.windowRefuse l j c k tag p off n none
  else if j.busyAt off n then (s, .wait)
  else if check && c.colourAt off != ptrColour p then s.windowRefuse l j c k tag p off n (some (ptrColour p, c.colourAt off))
  else (s, .at_ (.window off))

/-- The U ranges of Table 03-5 outside the window. -/
def uMapped (va : Nat) : Bool :=
  (0x400000 ≤ va && va < 0x500000) || (0x800000 ≤ va && va < 0xC00000) || (0x40000000 ≤ va && va < 0x80000000)

/-- A refusal of stage 2: report of CAUSE 1 with the intermediate address, trap 0x07 with FSYN.STAGE 1, for a walk that fails as R101 states it and for a permission as Table 03-17 does (log 15). -/
def State.stage2Refuse (s : State) (l : LaneId) (j : Job) (c : Ctx) (k : AccKind) (tag : Bool) (p : Word) (ia n : Nat) : State × AccRes :=
  let a := laneAcc l (s.lane l) j c k none
  (s.violate (a.report_ s.frame.num 0 ia n 0 { cause := 1 }) none,
   .trap { cause := 0x07, kind := some (fsynKind k tag), stage := some true, faddr := some p })

/-- The place of a physical address: the running window where it falls into it (R92, R98). -/
def Lane.placeOf (x : Lane) (l : LaneId) (pa : Nat) : Loc :=
  match localOf pa with
  | some (m, off) => if m = l then (match x.windowOff off with | some o => .window o | none => .phys pa) else .phys pa
  | none => .phys pa

/-- A load of translated memory goes through the data cache: a miss is counted and takes the line, the oldest of 256 leaving (Tables 03-1, 12-4; log 129). -/
def State.cacheLine (s : State) (l : LaneId) (pa : Nat) (pc : Word) : State :=
  let x := s.lane l
  if (localOf pa).isSome || x.dcache.contains (pa / 64) then s
  else (s.setLane l { x with dcache := (x.dcache ++ [pa / 64]).drop (x.dcache.length + 1 - 256) }).countLane l 0x05 1 pc

/-- A translated access: both stages, then the protection unit (R99 to R103). -/
def State.translated (s : State) (l : LaneId) (j : Job) (c : Ctx) (k : AccKind) (tag check : Bool) (p : Word) (n : Nat) : State × AccRes :=
  let (s, r) := s.translate l c (ptrVa p)
  match r with
  | .inr (.bad2 ia) => s.stage2Refuse l j c k tag p ia n
  | .inr _ => (s, .trap { cause := 0x05, kind := some (fsynKind k tag), faddr := some p })
  | .inl e =>
    if !(hasPerm e.perms1 k) || (c.level == .u && !(e.perms1.getLsbD 3)) then
      (s, .trap { cause := 0x06, kind := some (fsynKind k tag), faddr := some p })
    else if !(hasPerm e.perms2 k) then s.stage2Refuse l j c k tag p (e.ia / 4096 * 4096 + ptrVa p % 4096) n
    else
      let pa := within e.out e.big (ptrVa p)
      let a := laneAcc l (s.lane l) j c k (if check then some (ptrColour p) else none)
      match s.checkPart a pa with
      | some r => (s.violate (a.report_ s.frame.num ((s.ctrlOf pa).getD 0) pa n 0 r) r.overlap, .trap (refusedTrap k tag p r))
      | none => (if k = .read && !tag then s.cacheLine l pa c.pc else s, .at_ ((s.lane l).placeOf l pa))

/-- What the fetch from a mapped page meets: USER and EXEC of stage 1, stage 2, the protection unit, with the violation report; a page that no table maps is the kernel's to map (R101, R103, R128, Table 03-18; log 13). -/
def State.fetchPage (s : State) (l : LaneId) (j : Job) (c : Ctx) : Option (Trap × Option Violation) :=
  let x := s.lane l
  let t (cause : BitVec 8) : Trap := { cause := cause, kind := some 2, faddr := some c.pc }
  let report (ctrl addr : Nat) (r : Refused) : Violation := (laneAcc l x j c .exec none).report_ s.frame.num ctrl addr 4 0 r
  match (s.stage1 x c.ttb1 (ptrVa c.pc)).1 with
  | .page out big p1 =>
    let ia := within out big (ptrVa c.pc)
    if c.level == .u && !(p1.getLsbD 3) then some (t 0x06, none)
    else if !(hasPerm p1 .exec) then some (t 0x0A, none)
    else match (s.stage2 x ia).1 with
      | .page out2 big2 p2 =>
        if !(hasPerm p2 .exec) then some ({ t 0x07 with stage := some true }, some (report 0 ia { cause := 1 }))
        else
          let pa := within out2 big2 ia
          (s.checkPart (laneAcc l x j c .exec none) pa).map (fun r => (t 0x08, some (report ((s.ctrlOf pa).getD 0) pa r)))
      | _ => some ({ t 0x07 with stage := some true }, some (report 0 ia { cause := 1 }))
  | _ => none

/-- Any data access of a lane: pointer, alignment, level, then window or translation (R97, R98, R105, R117, R118). `tag` marks TAGR and TAGW, `check` an access that carries its colour. -/
def State.laneAccess (s : State) (l : LaneId) (j : Job) (c : Ctx) (k : AccKind) (tag check : Bool) (p : Word) (n : Nat) : State × AccRes :=
  if !(ptrOk p) then (s, .trap { cause := 0x04, kind := some (fsynKind k tag), faddr := some p })
  else if !tag && p.toNat % n ≠ 0 then (s, .trap { cause := 0x03, kind := some (fsynKind k tag), faddr := some p })
  else if c.level = .u && ptrK p then (s, .trap { cause := 0x06, kind := some (fsynKind k tag), faddr := some p })
  else if inWin (ptrVa p) then s.windowAccess l j c k tag check p n
  else if c.level = .u && (k = .atomic || (tag && k = .write)) then
    s.outsideRefuse l j c k tag p n
  else if c.level = .u && k = .write then (s, .trap { cause := 0x06, kind := some (fsynKind k tag), faddr := some p })
  else if c.level = .u && !(uMapped (ptrVa p)) then (s, .trap { cause := 0x05, kind := some (fsynKind k tag), faddr := some p })
  else s.translated l j c k tag check p n

/-- Read n bytes at a place. -/
def State.readLoc (s : State) (c : Ctx) (loc : Loc) (n : Nat) : Bytes :=
  match loc with
  | .window off => Memory.readBytes c.window off n
  | .phys a => Memory.readBytes s.mem a n

/-- Write bytes at a place: a window store is remembered until FENCE with E (R141). -/
def State.writeLoc (s : State) (c : Ctx) (loc : Loc) (bs : Bytes) : State × Ctx :=
  match loc with
  | .window off => (s, { c with window := Memory.writeBytes c.window off bs, unfenced := (off, bs.length) :: c.unfenced })
  | .phys a => ({ s with mem := Memory.writeBytes s.mem a bs }, c)

end Sys2Proof.Machine
end

