-- ==== Sys2Proof/Machine/Flags.lean ====
section
/-! DEFINITION. Status words and flags: FSYN, KSTAT and the other control registers as words, DETAIL of a completion, the guarded counter's flags, and padding checks. -/

namespace Sys2Proof.Machine

/-- FSYN as a word, from a trap with its open fields filled (Table 03-17). -/
def fsynWord (cause : BitVec 8) (kind : BitVec 3) (stage : Bool) (found expected : BitVec 4) (info : BitVec 16) : Word :=
  BitVec.ofNat 64 (cause.toNat + kind.toNat * 2 ^ 8 + stage.toNat * 2 ^ 11 + found.toNat * 2 ^ 12 + expected.toNat * 2 ^ 16 +
    info.toNat * 2 ^ 20)

/-- CAUSE of an FSYN word. -/
def fsynCause (w : Word) : BitVec 8 := w.setWidth 8

/-- INFO of an FSYN word. -/
def fsynInfo (w : Word) : BitVec 16 := w.extractLsb' 20 16

/-- Bits of FSYN a write reaches; [63:36] read 0 (Table 03-17, R93). -/
def fsynMask : Word := 0xFFFFFFFFF

/-- A level as the bit of KSTAT.PL. -/
def levelBit : Level → Bool
  | .u => false
  | .k => true

/-- KSTAT as a word: PL, IE, HELD, BANK (Table 03-2). -/
def Ctx.kstat (c : Ctx) : Word :=
  BitVec.ofNat 64 ((levelBit c.pl).toNat + c.ie.toNat * 2 + (c.held.isSome || c.heldBit).toNat * 4 + c.bankBit.toNat * 8)

/-- A write of KSTAT: PL, IE, HELD and BANK are taken; a 0 in HELD discards a held trap, and a 1 with none held reads back and holds none. BANK shows the bank the slice runs in (takeLane); a write stores the bit and swaps nothing (R92, R93, R126, R133; DEDUCED, log 18). -/
def Ctx.setKstat (c : Ctx) (w : Word) : Ctx :=
  { c with
    pl := if w.getLsbD 0 then .k else .u
    ie := w.getLsbD 1
    held := if w.getLsbD 2 then c.held else none
    heldBit := w.getLsbD 2 && c.held.isNone
    bankBit := w.getLsbD 3 }

/-- DETAIL of a lane trap that ended a job (R71, R128). -/
def trapDetail (cause : BitVec 8) : BitVec 16 := 0x4000 ||| cause.setWidth 16

/-- DETAIL of an engine or port refusal (R71, R140). -/
def engineDetail (reason : BitVec 8) : BitVec 16 := 0x8000 ||| reason.setWidth 16

/-- A KEY_ status (R71). -/
def isKeyStatus (st : BitVec 7) : Bool :=
  [St.keyUnknown, St.keyStale, St.keyGone, St.keyUseExhausted, St.keyAttrDenied, St.counterExhausted, St.quorumMissing].contains st

/-- KEY0 of a job: its descriptor's, or its record map's (R172). -/
def Job.keyZero (j : Job) : Handle := j.map.elim j.desc.key0 (·.key0)

/-- KEY1 of a job: its descriptor's, or its record map's (R172). -/
def Job.keyOne (j : Job) : Handle := j.map.elim j.desc.key1 (·.key1)

/-- DETAIL of a refusal of cause 0x0D by its status, reason and the handle concerned: KEY1 only when the handle is KEY1's alone (R71, R140). -/
def refusalDetail (j : Job) (st : BitVec 7) (reason : BitVec 8) (key : Option Handle) : BitVec 16 :=
  if st = St.accessFault ∨ st = St.colourMismatch then engineDetail reason
  else if st = St.descInvalid then 0x38
  else if isKeyStatus st then (match key with | some h => if h ≠ j.keyZero && h = j.keyOne then 1 else 0 | none => 0)
  else 0

/-- DETAIL of a job that END finished with a status of its own (R71, R130). -/
def endDetail (st : BitVec 7) : BitVec 16 := if st = St.descInvalid then 0x38 else 0

/-- The statuses END may give (R130). -/
def endStatuses : List (BitVec 7) :=
  [St.ok, St.aborted, St.descInvalid, St.lengthInvalid, St.padInvalid, St.authFail, St.operandRange, St.keyAttrDenied]

/-! ## Padding (R153, R155) -/

/-- Length of PKCS #7 padding at the end of a block, none where the check fails. -/
def pkcs7 (b : Nat) (block : Bytes) : Option Nat :=
  match block.reverse with
  | [] => none
  | x :: xs =>
    if x.toNat = 0 || b < x.toNat then none
    else if ((x :: xs).take x.toNat).all (· == x) then some x.toNat else none

/-- Length of method-2 padding: 0x80 then zeros. -/
def method2 : Bytes → Nat → Option Nat
  | [], _ => none
  | x :: xs, n => if x = 0 then method2 xs (n + 1) else if x = 0x80 then some (n + 1) else none

/-- Length of the padding a decrypted final block carries under mode 1 or 2 (Table 04-7). -/
def padLength (mode : BitVec 8) (b : Nat) (block : Bytes) : Option Nat :=
  if mode = 1 then pkcs7 b block else method2 block.reverse 0

/-- The padding an encryption adds after LENGTH bytes (Table 04-7). -/
def padBytes (mode : BitVec 8) (b len : Nat) : Bytes :=
  let r := len % b
  if mode = 1 then List.replicate (b - r) (BitVec.ofNat 8 (b - r))
  else if mode = 2 then 0x80 :: zeros (b - r - 1)
  else if mode = 3 then (if r = 0 then [] else zeros (b - r))
  else []

/-! ## The guarded counter (R146 to R148) -/

/-- Bits of the counting field. -/
def CWidth.bits : CWidth → Nat
  | .w32 => 32 | .w64 => 64 | .w128 => 128

/-- VALUE as the 128-bit big-endian number its bytes spell (R146). -/
def blkNat (b : Blk) : Nat := beNat (blkBytes b)

/-- A 128-bit number as a block, big-endian. -/
def natBlk (n : Nat) : Blk := blkOf (beBytes 16 n)

/-- The counting field: the last WIDTH/8 bytes, big-endian (R146). -/
def Counter.field (c : Counter) : Nat := blkNat c.value % 2 ^ c.width.bits

/-- LIMIT as it bounds the field: at most 2^WIDTH - 1 for WIDTH 32 and 64 (R148). -/
def Counter.bound (c : Counter) : Nat := min c.limit.toNat (2 ^ c.width.bits - 1)

/-- The value now in the register is the last the guard allows (R148). -/
def Counter.atLast (c : Counter) : Bool :=
  match c.width with
  | .w128 => decide (c.limit.toNat ≤ c.delivered ∨ c.field = 2 ^ 128 - 1)
  | _ => decide (c.field = c.bound)

/-- VALUE with 1 added to the counting field (R148). -/
def Counter.step (c : Counter) : Counter :=
  let n := blkNat c.value
  let m := 2 ^ c.width.bits
  { c with value := natBlk (n / m * m + (n % m + 1) % m) }

/-- Deliver VALUE and advance, or mark SPENT at the last value (R148). -/
def Counter.next (c : Counter) : Counter :=
  if c.atLast then { c with spent := true, delivered := c.delivered + 1 }
  else { c.step with delivered := c.delivered + 1 }

/-- LIMIT as it is taken: at most 2^WIDTH - 1 for WIDTH 32 and 64 (R148). -/
def limitTaken (limit : Word) (w : CWidth) : Word :=
  match w with
  | .w128 => limit
  | _ => BitVec.ofNat 64 (min limit.toNat (2 ^ w.bits - 1))

/-- Arming an unarmed register: a field already above LIMIT sets SPENT (R148). -/
def Counter.armNew (c : Counter) (limit : Word) (w : CWidth) : Counter :=
  let d : Counter := { c with limit := limitTaken limit w, width := w, armed := true, spent := false, delivered := 0 }
  { d with spent := match w with | .w128 => false | _ => decide (d.bound < d.field) }

/-- A lower LIMIT of an armed register: one below what was delivered, or below the field, sets SPENT (R148; the field's case DEDUCED, log 19). -/
def Counter.lower (c : Counter) (limit : Word) : Counter :=
  let d : Counter := { c with limit := limitTaken limit c.width }
  { d with spent := d.spent || (match c.width with | .w128 => decide (d.limit.toNat < d.delivered) | _ => decide (d.bound < d.field)) }

/-- Arm, or lower an armed LIMIT; none where it would change WIDTH or raise LIMIT (R148). -/
def Counter.arm (c : Counter) (limit : Word) (w : CWidth) : Option Counter :=
  if c.armed then
    (if w ≠ c.width || c.limit.toNat < (limitTaken limit w).toNat then none else some (c.lower limit))
  else some (c.armNew limit w)

/-- Values the register may still deliver, saturating at 2^64 - 1 (Table 04-4). -/
def Counter.remaining (c : Counter) : Nat :=
  if !c.armed || c.spent then 0
  else match c.width with
    | .w128 => min (min (c.limit.toNat + 1 - c.delivered) (2 ^ 128 - c.field)) (2 ^ 64 - 1)
    | _ => min (c.bound + 1 - c.field) (2 ^ 64 - 1)

end Sys2Proof.Machine
end

