-- ==== Sys2Proof/Machine/KeyOps.lean ====
section
/-! DEFINITION. The Quarry's shared operations: key types, nodes and their paths, key values, handle checks, uses and invocations, journal entries (07_quarry_keys.md). -/

namespace Sys2Proof.Machine

/-! ## The life-cycle state and the epoch (R415) -/

/-- The highest set bit of a word below n. -/
def highBit (w : Nat) : Nat → Option Nat
  | 0 => none
  | n + 1 => if w.testBit n then some n else highBit w n

/-- The decoded life-cycle state (R415). -/
def Otp.lcs (o : Otp) : Lcs :=
  if o.lcBase.getLsbD 3 then .scrapped
  else if o.lcBase.getLsbD 2 then .returned
  else match highBit o.lcEpoch.toNat 32 with
    | some k => if k % 2 = 0 then .owned (k / 2) else .released (k / 2)
    | none => if o.lcBase.getLsbD 1 then .sealed else if o.lcBase.getLsbD 0 then .tested else .raw

/-- EPOCH: the ownership epoch last entered, 0 before any (R246). -/
def State.epoch (s : State) : Nat := ((highBit s.life.otp.lcEpoch.toNat 32).getD 0) / 2

/-- The unit is in OWNED. -/
def State.isOwned (s : State) : Bool := match s.life.otp.lcs with | .owned _ => true | _ => false

/-! ## Key types (Table 07-3) -/

/-- The assigned types. -/
def typeKnown (t : BitVec 8) : Bool :=
  [0x01, 0x10, 0x11, 0x12, 0x13, 0x18, 0x19, 0x21, 0x22, 0x23, 0x24, 0x25, 0x26, 0x2A, 0x2B, 0x30, 0x41, 0x42, 0x43, 0x44, 0x45, 0x46,
   0x51, 0x52, 0x53, 0x54, 0x61, 0x62, 0x63, 0x71, 0x72, 0x73, 0x81].contains t.toNat

/-- The symmetric types, which may be derived. -/
def derivable (t : BitVec 8) : Bool := decide (0 < t.toNat) && decide (t.toNat < 0x30) && typeKnown t

/-- AES types. -/
def isAes (t : BitVec 8) : Bool := t == 0x10 || t == 0x11 || t == 0x12

/-- TDEA types. -/
def isTdea (t : BitVec 8) : Bool := t == 0x18 || t == 0x19

/-- The XTS type. -/
def isXts (t : BitVec 8) : Bool := t == 0x13

/-- HMAC types. -/
def isHmac (t : BitVec 8) : Bool := decide (0x21 ≤ t.toNat ∧ t.toNat ≤ 0x26)

/-- KMAC types. -/
def isKmac (t : BitVec 8) : Bool := t == 0x2A || t == 0x2B

/-- Types a cipher core serves. -/
def isCipher (t : BitVec 8) : Bool := isAes t || isTdea t || isXts t

/-- Bytes of KMAC output for a type: 32 or 64. -/
def outLen (t : BitVec 8) : Nat :=
  if t = 0x13 ∨ t = 0x23 ∨ t = 0x24 ∨ t = 0x25 ∨ t = 0x26 ∨ t = 0x2B then 64 else 32

/-- Bytes of the key value of a symmetric type. -/
def keyLen (t : BitVec 8) : Nat :=
  if t = 0x10 ∨ t = 0x18 then 16 else if t = 0x11 ∨ t = 0x19 then 24 else outLen t

/-- Each byte set to odd parity. -/
def oddParity (b : Byte) : Byte :=
  let n := ((List.range 7).filter (fun i => b.getLsbD (i + 1))).length
  (b &&& 0xFE) ||| (if n % 2 = 0 then 1 else 0)

/-- The value a type takes from its KMAC output. -/
def valueOf (t : BitVec 8) (out : Bytes) : Bytes :=
  let v := out.take (keyLen t)
  if isTdea t then v.map oddParity else v

/-! ## Usage and policy bits (Tables 07-4, 07-6) -/

/-- Usage bit numbers. -/
def uEncrypt : Nat := 0
def uDecrypt : Nat := 1
def uWrap : Nat := 2
def uUnwrap : Nat := 3
def uMacGen : Nat := 4
def uMacVer : Nat := 5
def uSign : Nat := 6
def uAgree : Nat := 7
def uDerive : Nat := 8
def uPin : Nat := 9
def uBdk : Nat := 10
def uKbpk : Nat := 11
def uRecord : Nat := 12

/-- A usage bit of a node. -/
def Node.may (n : Node) (bit : Nat) : Bool := n.usage.getLsbD bit

/-- EXPORT. -/
def Node.exportBits (n : Node) : BitVec 4 := n.policy.setWidth 4
/-- EXP_IRESET. -/
def Node.expIreset (n : Node) : Bool := n.policy.getLsbD 4
/-- EXP_URESET. -/
def Node.expUreset (n : Node) : Bool := n.policy.getLsbD 5
/-- CTR_MODE. -/
def Node.ctrMode (n : Node) : Bool := n.policy.getLsbD 6
/-- TDEA_OK. -/
def Node.tdeaOk (n : Node) : Bool := n.policy.getLsbD 7
/-- USE_LIM. -/
def Node.useLim (n : Node) : Bool := n.policy.getLsbD 14
/-- The invocation limit: 2^INV_LOG2, 2^64 for 0. -/
def Node.invLimit (n : Node) : Nat :=
  let k := (n.policy.extractLsb' 8 6).toNat
  if k = 0 then 2 ^ 64 else 2 ^ k

/-! ## States of a node (Table 07-5) -/

/-- The order in which a node's state moves. -/
def NodeState.rank : NodeState → Nat
  | .pending => 0 | .active => 1 | .exhausted => 2 | .retired => 3 | .revoked => 4 | .erased => 5

/-- A node's state moves towards ERASED; a change towards an earlier state is ignored (Table 07-5). -/
def Node.advance (n : Node) (st : NodeState) : Node := if n.state.rank < st.rank then { n with state := st } else n

/-! ## Nodes and their paths -/

/-- The directory entry of an index; an unlisted index is FREE and was never used. -/
def State.dirOf (s : State) (inst idx : Nat) : DirEntry := (((s.inst inst).map (·.dir)).bind (fun d => tget d idx)).getD {}

/-- The current node of an index. -/
def State.node (s : State) (inst idx : Nat) : Option Node := (s.dirOf inst idx).node

/-- The version of a node a job holds: the current one or a shadow (R268). -/
def State.nodeAt (s : State) (inst idx ver : Nat) : Option Node :=
  let e := s.dirOf inst idx
  match e.node with
  | some n => if n.gen = ver then some n else e.shadows.find? (fun x => x.gen == ver)
  | none => e.shadows.find? (fun x => x.gen == ver)

/-- The version of an index in a binding list, else the current generation. -/
def State.verOf (s : State) (inst : Nat) (bound : List (Nat × Nat)) (idx : Nat) : Nat :=
  match bound.find? (fun b => b.1 == idx) with
  | some b => b.2
  | none => (s.node inst idx).elim 0 (·.gen)

/-- Change a directory entry. -/
def State.modDir (s : State) (inst idx : Nat) (f : DirEntry → DirEntry) : State :=
  s.modInst inst (fun x => { x with dir := tset x.dir idx (f ((tget x.dir idx).getD {})) })

/-- Change the current node of an index. -/
def State.modNode (s : State) (inst idx : Nat) (f : Node → Node) : State :=
  s.modDir inst idx (fun e => { e with node := e.node.map f })

/-- An index and its ancestors, nearest first, the bench last: at most nine levels (Table 07-1). -/
def State.pathFrom (s : State) (inst : Nat) : Nat → Nat → List Nat
  | 0, _ => []
  | k + 1, idx => if idx = 0 then [0] else idx :: s.pathFrom inst k ((s.node inst idx).elim 0 (·.parent))

/-- The path of an index. -/
def State.path (s : State) (inst idx : Nat) : List Nat := s.pathFrom inst 9 idx

/-- An index is at or below another. -/
def State.below (s : State) (inst root idx : Nat) : Bool := (s.path inst idx).contains root

/-- The versions a job admitted now binds to for one key: the node and every ancestor (R263). -/
def State.bindPath (s : State) (inst idx : Nat) : List (Nat × Nat) :=
  (s.path inst idx).map (fun i => (i, (s.node inst i).elim 0 (·.gen)))

/-- The bindings of an index and its ancestors, as measurements; an entry that is gone binds to nothing that runs (R256). -/
def State.bindings (s : State) (inst idx : Nat) : List (Option Dig) :=
  (s.path inst idx).filterMap (fun i => match s.node inst i with
    | some n => if n.bind = 0 then none else some (((s.inst inst).map (·.binds)).bind (fun t => tget t n.bind))
    | none => none)

/-- The node is bound to a program (R256). -/
def State.isBound (s : State) (inst idx : Nat) : Bool := (s.bindings inst idx).any (fun _ => true)

/-! ## Key values (R245 to R250) -/

/-- The root above the benches: L2 in OWNED with L2 available, else the session root (R251). -/
def State.rootKey (s : State) : Bytes :=
  match s.quarry.l2 with
  | some k => leBytes 32 k.toNat
  | none => leBytes 32 (s.quarry.session.getD 0).toNat

/-- The attribute digest AD of a node (R255). -/
def attrDigest (n : Node) (idx : Nat) (measure : Dig) : Bytes :=
  leBytes 32 (Config.sha3 (leBytes 1 n.ktype.toNat ++ leBytes 2 n.usage.toNat ++ leBytes 2 (n.policy &&& 0x7FF0).toNat ++
    leBytes 1 n.level ++ leBytes 5 idx ++ leBytes 4 n.gen ++ leBytes 32 measure.toNat)).toNat

/-- The derivation input X: label digest, attribute digest, the parent's GENERATION (R245). -/
def derivInput (n : Node) (idx : Nat) (measure : Dig) (genP : Nat) : Bytes :=
  leBytes 16 n.labelDig.toNat ++ attrDigest n idx measure ++ leBytes 4 genP

/-- The string S of R245. -/
def quarryLabel : Bytes := ascii "WL9640 QUARRY"

/-- The bound measurement of a node, zero when BIND is 0 (R255). -/
def State.measureOf (s : State) (inst : Nat) (n : Node) : Dig :=
  if n.bind = 0 then 0 else ((((s.inst inst).map (·.binds)).bind (fun t => tget t n.bind))).getD 0

/-- The bench of an instance as a node: BRANCH, DERIVE only, node 0, GENERATION 1, L3 (R248). -/
def benchNode (labelDig : BitVec 128) (origin : Origin) (material : Bytes) : Node :=
  { labelDig := labelDig, parent := 0, level := 3, origin := origin, ktype := 0x01, state := .active, allocGen := 1, gen := 1,
    usage := 0x0100, policy := 0, useCnt := 0, bind := 0, invBlk := 0, useBlk := 0, ext := 0, created := 0,
    material := material, pub := [] }

/-- The label digest: the first 16 bytes of SHA3-256 of a label (R254). -/
def labelDigest (label : Bytes) : BitVec 128 := (Config.sha3 label).setWidth 128

/-- The key of a bench: carried material, or derived under R245 from the root with GEN_P 1 (R248). -/
def State.benchKey (s : State) (inst : Nat) : Bytes :=
  match s.node inst 0 with
  | some n =>
    if n.material ≠ [] then n.material.take 32
    else (kmac256 s.rootKey (derivInput n 0 0 1) 32 quarryLabel)
  | none => zeros 32

/-- The key value of a node along a path of bound versions: stored material, or derived from the parent's value (R245). -/
def State.keyAlong (s : State) (inst : Nat) (bound : List (Nat × Nat)) : List Nat → Bytes
  | [] => s.benchKey inst
  | idx :: up =>
    if idx = 0 then s.benchKey inst
    else
      match s.nodeAt inst idx (s.verOf inst bound idx) with
      | none => zeros 32
      | some n =>
        match n.origin with
        | .derived =>
          valueOf n.ktype (kmac256 (s.keyAlong inst bound up) (derivInput n idx (s.measureOf inst n) (s.verOf inst bound n.parent))
            (outLen n.ktype) quarryLabel)
        | _ => if derivable n.ktype then n.material.take (keyLen n.ktype) else n.material

/-- The key value a job bound to versions receives for a handle (R263, R269). -/
def State.keyValue (s : State) (bound : List (Nat × Nat)) (h : Handle) : Bytes :=
  s.keyAlong (hInst h) bound (s.path (hInst h) (hNode h))

/-- The node a job bound to versions uses for a handle. -/
def State.keyNode (s : State) (bound : List (Nat × Nat)) (h : Handle) : Option Node :=
  s.nodeAt (hInst h) (hNode h) (s.verOf (hInst h) bound (hNode h))

/-- The version tag of a cut-cache entry: the versions along the path (R269). -/
def State.pathVersions (s : State) (inst : Nat) (bound : List (Nat × Nat)) (idx : Nat) : List Nat :=
  (s.path inst idx).map (s.verOf inst bound)

/-! ## Handle checks (Table 07-8) -/

/-- Owner keys serve an instance: they are available, or the session root serves instance 0 (R251, R274). -/
def State.keysOpen (s : State) (inst : Nat) : Bool := s.quarry.ownerKeys || (inst == 0 && s.quarry.l2.isNone)

/-- Rank 4: KEY_UNKNOWN. -/
def State.keyUnknown (s : State) (who : Nat) (h : Handle) : Bool :=
  let e := s.dirOf (hInst h) (hNode h)
  hInst h != who || !(s.keysOpen who) || hVer h == 0 ||
    (match e.node with
     | some n => n.state == .pending || n.ktype != hType h || decide (n.gen < hVer h)
     | none => decide (e.lastGen < hVer h))

/-- Rank 5 on the node alone: KEY_GONE. -/
def State.keyGoneNode (s : State) (h : Handle) : Bool :=
  match s.node (hInst h) (hNode h) with
  | some n => n.state == .revoked || n.state == .erased || decide (hVer h < n.allocGen)
  | none => true

/-- The states of the ancestors of an index. -/
def State.ancestorStates (s : State) (inst idx : Nat) : List NodeState :=
  ((s.path inst idx).drop 1).filterMap (fun i => (s.node inst i).map (·.state))

/-- Rank 5: KEY_GONE, the node first and then its ancestors. -/
def State.keyGone (s : State) (h : Handle) : Bool :=
  s.keyGoneNode h || (s.ancestorStates (hInst h) (hNode h)).any (fun t => t == .revoked || t == .erased)

/-- Rank 6: KEY_STALE. -/
def State.keyStale (s : State) (h : Handle) : Bool :=
  (match s.node (hInst h) (hNode h) with
   | some n => n.state == .retired || decide (hVer h < n.gen)
   | none => false) || (s.ancestorStates (hInst h) (hNode h)).any (· == .retired)

/-- The handle of a request for a mode: ranks 4 and 5 on the node alone, its state apart (R267). -/
def State.checkModeHandle (s : State) (who : Nat) (h : Handle) : Option (BitVec 7) :=
  if s.keyUnknown who h then some St.keyUnknown
  else match s.node (hInst h) (hNode h) with
    | none => some St.keyGone
    | some n => if hVer h < n.allocGen then some St.keyGone else none

/-- Ranks 4 to 6 of a handle (R262). -/
def State.checkHandle (s : State) (who : Nat) (h : Handle) : Option (BitVec 7) :=
  if s.keyUnknown who h then some St.keyUnknown
  else if s.keyGone h then some St.keyGone
  else if s.keyStale h then some St.keyStale
  else none

/-! ## Journal entries (R279, R280) -/

/-- Nodes under the session root produce no entries; entries exist while L2 is held (R279). -/
def State.journals (s : State) : Bool := s.quarry.l2.isSome

/-- The key of a journal: that of a JID under L2 (R279). -/
def State.journalKey (s : State) (jid : BitVec 128) : Bytes :=
  kmac256 s.rootKey (ascii "JOURNAL" ++ leBytes 1 s.epoch ++ leBytes 16 jid.toNat) 32 (ascii "WL9640 J")

/-- The IV of an entry: SEQ, the unit's role byte, 3 zero bytes (R279). -/
def journalIv (seq : Nat) (role0 : Bool) : Bytes := leBytes 8 seq ++ leBytes 1 (if role0 then 0 else 1) ++ zeros 3

/-- The 32-byte header of an entry (Table 07-13). -/
def journalHead (seq frame inst kind part node : Nat) : Bytes :=
  leBytes 8 seq ++ leBytes 8 frame ++ leBytes 2 inst ++ leBytes 1 kind ++ leBytes 1 part ++ leBytes 5 node ++ zeros 7

/-- CHAIN: the first 16 bytes of SHA3-256 of the previous CHAIN and bytes 0x00 to 0xAF (Table 07-13). -/
def chainOf (prev : BitVec 128) (bytes : Bytes) : BitVec 128 := (Config.sha3 (leBytes 16 prev.toNat ++ bytes)).setWidth 128

/-- Journal kinds (Table 07-13). -/
def jRecord : Nat := 1
def jFull : Nat := 2
def jFree : Nat := 3
def jSnapBegin : Nat := 4
def jSnapEnd : Nat := 5
def jRoot : Nat := 6
def jDir : Nat := 7

/-- Slots a stored form takes: one for 64 bytes, 128 bytes a further slot (R253). -/
def slotsOf (material : Bytes) : Nat := 1 + (material.length - 64 + 127) / 128

/-- ORIGIN codes (Table 07-4). -/
def originCode : Origin → Nat
  | .derived => 0 | .generated => 1 | .imported => 2 | .carried => 3

/-- STATE codes (Table 07-5). -/
def nodeStateCode : NodeState → Nat
  | .pending => 1 | .active => 2 | .retired => 3 | .revoked => 4 | .erased => 5 | .exhausted => 6

/-- The 64 bytes of a node record (Table 07-4). -/
def recordBytes (n : Node) : Bytes :=
  leBytes 16 n.labelDig.toNat ++ leBytes 5 (n.parent % 2 ^ 34 + n.level % 16 * 2 ^ 34 + originCode n.origin * 2 ^ 38) ++
  leBytes 1 n.ktype.toNat ++ leBytes 2 (nodeStateCode n.state + n.allocGen % 4096 * 16) ++ leBytes 4 n.gen ++
  leBytes 2 n.usage.toNat ++ leBytes 2 n.policy.toNat ++ leBytes 5 n.useCnt ++ leBytes 1 n.bind ++ zeros 2 ++
  leBytes 6 n.invBlk ++ zeros 2 ++ leBytes 8 (n.useBlk % 128 + n.ext % 32 * 256) ++ leBytes 8 n.created

/-- One resource's word of a share record (Table 08-2). -/
def shareWord (x : Share) (r : Nat) : Bytes := leBytes 4 (x.mins.getD r 0 + x.maxs.getD r 0 * 2 ^ 16)

/-- Bytes 0x00 to 0x2F of a share record (Table 08-2). -/
def shareBytes (x : Share) : Bytes :=
  leBytes 2 x.jobSlots ++ leBytes 2 x.sessions ++
  leBytes 1 (x.qpairs % 8 + x.vectors % 4 * 8 + (if x.pmcUser then 32 else 0) + x.personality % 4 * 64) ++ zeros 3 ++
  leBytes 4 x.ksSlots ++ zeros 4 ++ (List.range 5).flatMap (shareWord x) ++ zeros 12

/-- Index state codes: FREE, ALLOCATED, DEAD in the order R253 names them. -/
def indexCode : IndexState → Nat
  | .free => 0 | .allocated => 1 | .dead => 2

/-- The 8 bytes of a directory entry (R253). -/
def State.dirBytes (s : State) (inst idx : Nat) : Bytes :=
  let e := s.dirOf inst idx
  leBytes 8 (Config.dirSlot inst idx e.lastGen % 2 ^ 31 + e.lastGen % 4096 * 2 ^ 31 + indexCode e.state * 2 ^ 43)

/-- Stage one journal entry with its body in clear (R279, R280); event 0x3005 when staging passes 75%. -/
def State.journal (s : State) (inst kind part node : Nat) (body : Bytes) : State :=
  if !s.journals then s
  else
    let q := s.quarry
    let head := journalHead q.seq s.frame.num inst kind part node
    let g := Config.gcm (s.journalKey q.jid) (journalIv q.seq s.twin.role0) head (padTo 128 body)
    let b := head ++ g.1 ++ leBytes 16 g.2.toNat
    let c := chainOf q.chain b
    let e : Staged := { seq := q.seq, frame := s.frame.num, inst := inst, kind := kind, node := node, chain := c, bytes := b ++ leBytes 16 c.toNat }
    let s1 := { s with quarry := { q with seq := q.seq + 1, chain := c, staging := q.staging ++ [e] } }
    if q.staging.length = 786432 then s1.raise 0x3005 false (q.staging.length + 1) (q.durable.1 % 2 ^ 32) 0 else s1

/-- The entry of a changed node record (Table 07-13). -/
def State.journalRec (s : State) (inst idx : Nat) : State :=
  match s.node inst idx with
  | some n => s.journal inst jRecord 0 idx (recordBytes n)
  | none => s.journal inst jFree 0 idx []

/-- The entries of a node with its material: one per slot (Table 07-13). -/
def State.journalFull (s : State) (inst idx : Nat) : State :=
  match s.node inst idx with
  | some n =>
    if n.material = [] then s.journal inst jRecord 0 idx (recordBytes n)
    else
      let all := recordBytes n ++ n.material
      (List.range (slotsOf n.material)).foldl (fun t k => t.journal inst jFull k idx ((all.drop (128 * k)).take 128)) s
  | none => s.journal inst jFree 0 idx []

/-- The entry of the directory block of an index (Table 07-13). -/
def State.journalDir (s : State) (inst idx : Nat) : State :=
  let b := idx / 16 * 16
  s.journal inst jDir 0 b ((List.range 16).flatMap (fun k => s.dirBytes inst (b + k)))

/-- The entries of a node created, replaced or freed: its record, its material, its directory block. -/
def State.journalNode (s : State) (inst idx : Nat) : State := (s.journalFull inst idx).journalDir inst idx

/-- The entry of a changed root record (R279, R294). -/
def State.journalRoot (s : State) (inst : Nat) : State :=
  match s.inst inst with
  | some x => s.journal inst jRoot 0 0 (Config.rootBody x.label (shareBytes x.share) x.port)
  | none => s.journal inst jRoot 0 0 []

/-! ## Uses and invocations (R264, R265, Table 07-9) -/

/-- Places of the MRAM reservation log (R281). -/
def logSize : Nat := 262144

/-- Write an entry of the reservation log, sent to the partner in a pair; event 0x3004 when the log passes 75% (R265, R281, R375, Table 07-17). -/
def State.logBlock (s : State) (e : ResEntry) : State :=
  let s1 := { s with
    quarry := { s.quarry with resLog := s.quarry.resLog ++ [e] }
    twin := if s.twin.state = .paired then { s.twin with resOut := s.twin.resOut ++ [e] } else s.twin }
  if s.quarry.resLog.length = 196608 then s1.raise 0x3004 false (s.quarry.resLog.length + 1) 0 0 else s1

/-- Request the next use block of a node: the DRAM record advances, the log takes the entry (Table 07-9). -/
def State.askUses (s : State) (inst idx : Nat) : State :=
  match s.node inst idx with
  | none => s
  | some n =>
    if n.askedUse.isSome || n.useCnt = 0 then s
    else
      let k := min 64 n.useCnt
      let s1 := s.modNode inst idx (fun n => { n with useCnt := n.useCnt - k, askedUse := some (s.frame.num, k) })
      s1.logBlock { inst := inst, node := idx, gen := n.gen, uses := true, block := n.useCnt - k, seq := s.quarry.seq }

/-- A node with one use fewer: with none left in the block and none to come it becomes EXHAUSTED, unless its state is a later one (R264, Table 07-5). -/
def Node.takeUse (n : Node) : Node :=
  if !n.useLim then n
  else
    let m := { n with useBlk := n.useBlk - 1 }
    if m.useBlk = 0 ∧ m.useCnt = 0 ∧ m.askedUse = none then m.advance .exhausted else m

/-- Take one use of a node (R264). -/
def State.takeUse (s : State) (inst idx : Nat) : State := s.modNode inst idx Node.takeUse

/-- A node gives a use now. -/
def Node.hasUse (n : Node) : Bool := !n.useLim || decide (0 < n.useBlk)

/-- Numbers left in the current invocation block. -/
def Node.invLeft (n : Node) : Nat := match n.invCur with | some (a, b) => b - a | none => 0

/-- Numbers in a block: 16 leaves of an XMSS key, else 65,536 invocations (R228, R265). -/
def Node.blockSize (n : Node) : Nat := if n.ktype = 0x81 then 16 else 65536

/-- The numbers a node gives in all: the 65,536 leaves of an XMSS key, else its invocation limit (R228, R265). -/
def Node.numbers (n : Node) : Nat := if n.ktype = 0x81 then 65536 else n.invLimit

/-- Every block of a node has been reserved (R228, R265). -/
def Node.allReserved (n : Node) : Bool := decide (n.numbers ≤ n.invBlk * n.blockSize)

/-- Request the next block of invocations or leaves of a node, unless one is on its way or none is left; INV_BLK counts the blocks of either (R228, R265, log 149). -/
def State.askInvs (s : State) (inst idx : Nat) : State :=
  match s.node inst idx with
  | none => s
  | some n =>
    if n.asked.isSome || n.allReserved then s
    else
      let s1 := s.modNode inst idx (fun n => { n with invBlk := n.invBlk + 1, asked := some (s.frame.num, n.invBlk) })
      s1.logBlock { inst := inst, node := idx, gen := n.gen, block := n.invBlk, seq := s.quarry.seq }

/-- Take up to k invocation numbers of the current block: the numbers and the node after. -/
def Node.takeInvs (n : Node) (k : Nat) : List Nat × Node :=
  match n.invCur with
  | none => ([], n)
  | some (a, b) =>
    let m := min k (b - a)
    ((List.range m).map (fun i => a + i), { n with invCur := some (a + m, b) })

/-- The numbers of a node's block b: its first, and the end at which the limit truncates it (R265). -/
def Node.blockRange (n : Node) (b : Nat) : Nat × Nat := (n.blockSize * b, min (n.blockSize * (b + 1)) n.numbers)

/-- Invocations left below the limit: in the block, in the block requested, and still to reserve (rank 11). -/
def Node.invRemaining (n : Node) : Nat :=
  n.invLeft + n.asked.elim 0 (fun a => (n.blockRange a.2).2 - (n.blockRange a.2).1) + (n.invLimit - n.invBlk * 65536)

/-- Numbers of a node that jobs in WAITING are owed: they take them before a job admitted later (R79). -/
def State.invsOwed (s : State) (inst idx : Nat) : Nat :=
  ((s.jobs.filter (fun (j : Job) => j.inst == inst && !j.finished)).map (fun (j : Job) =>
    ((j.invsWanted.filter (fun w => hNode w.1 == idx)).map (·.2)).sum)).sum

/-! ## Slots (R277) -/

/-- The record slots of the key store: R277's 2^27 multiples, by the installed memory. -/
def State.keyStoreSlots (s : State) : Nat := if s.host.mem.2.1 ≤ 128 then 671088640 else 1610612736

/-- An instance has room for n more slots (R260, R277). -/
def State.slotRoom (s : State) (inst n : Nat) : Bool :=
  match s.inst inst with
  | some x => decide (x.slotsUsed + n ≤ x.share.ksSlots)
  | none => false

/-- Charge slots to an instance; freeing is a charge below 0. -/
def State.chargeSlots (s : State) (inst : Nat) (n : Int) : State :=
  let t := s.modInst inst (fun x => { x with slotsUsed := (x.slotsUsed + n).toNat })
  { t with quarry := { t.quarry with slotsUsed := (t.quarry.slotsUsed + n).toNat } }

/-- The lowest free index of an instance from 1 (R252). -/
def lowestFree (dir : Table DirEntry) : Nat → Nat → Nat
  | 0, i => i
  | k + 1, i => match tget dir i with
    | some e => if e.state = .free then i else lowestFree dir k (i + 1)
    | none => i

/-- The lowest free index of an instance. -/
def State.freeIndex (s : State) (inst : Nat) : Nat := (s.inst inst).elim 1 (fun x => lowestFree x.dir (x.dir.length + 1) 1)

end Sys2Proof.Machine
end

