-- ==== Sys2Proof/Machine/Lanes.lean ====
section
/-! DEFINITION. One instruction on a lane: who may issue, the fetch checks, what an instruction gives, trap entry, the end of a job on a lane (R95 to R98, R124 to R132). -/

namespace Sys2Proof.Machine

/-- What an instruction gives: it waits, traps, ends the job by a mover's finding (R60), goes on to PC + 4, or jumps. -/
inductive LaneRes where
  | wait
  | trap (t : Trap)
  | fail (st : BitVec 7) (detail : BitVec 16)
  | ok (c : Ctx)
  | jump (c : Ctx) (pc : Word)
deriving DecidableEq, Repr

/-- The job and bank of the slice a lane runs, where the lane may issue: the unit runs, the lane is in service, and no debugger holds it (R85, R127, R132). -/
def State.active (s : State) (l : LaneId) : Option (Job × Ctx) :=
  let x := s.lane l
  if !s.running || s.fenced (90 + l.val) || (x.stopped && !x.stepping) then none
  else
    match x.run with
    | none => none
    | some slot =>
      match s.job slot with
      | none => none
      | some j => if j.st = .running && j.started then some (j, x.bank) else none

/-- The trap a fetch at U level meets, by the layout of Table 03-5 (R97, R98, R119; log 13). -/
def fetchTrap (c : Ctx) : Option Trap :=
  if !(ptrOk c.pc) then some { cause := 0x04, kind := some 2, faddr := some c.pc }
  else if c.pc.toNat % 4 ≠ 0 then some { cause := 0x03, kind := some 2, faddr := some c.pc }
  else if c.level = .k then none
  else if ptrK c.pc then some { cause := 0x06, kind := some 2, faddr := some c.pc }
  else if inWin (ptrVa c.pc) then some { cause := 0x0A, kind := some 2, faddr := some c.pc }
  else if 0x400000 ≤ ptrVa c.pc && ptrVa c.pc < 0x500000 then none
  else if uMapped (ptrVa c.pc) then some { cause := 0x0A, kind := some 2, faddr := some c.pc }
  else some { cause := 0x05, kind := some 2, faddr := some c.pc }

/-- The vector of a trap from a level (R124). -/
def Ctx.vector (c : Ctx) : Word := c.kvec + (if c.level = .u then 0 else 0x100)

/-- Enter K level with FSYN and FADDR given and KEPC the address to return to (R124). -/
def Ctx.enter (c : Ctx) (epc : Word) (fsyn faddr : Word) : Ctx :=
  { c with kepc := epc, pl := c.level, level := .k, ie := false, fsyn := fsyn, faddr := faddr, pc := c.vector }

/-- Trap entry with the open fields filled by free values: KIND, STAGE and FADDR where the spec gives none for the cause (R124, R125; log 9). -/
def State.trapCtx (s : State) (c : Ctx) (t : Trap) (epc : Word) : State × Ctx :=
  let k := Config.draw 3 s.free
  let g := Config.draw 1 (s.free + 1)
  let a := Config.draw 64 (s.free + 2)
  ({ s with free := s.free + 3 },
   { c.enter epc (fsynWord t.cause (t.kind.getD k) (t.stage.getD (g == 1)) t.found t.expected t.info) (t.faddr.getD a) with
     refusedKey := t.key })

/-- Write the bank of a lane; a debugger's single step is used up, and the entry of the last trap has begun (R126, R358). -/
def State.setBank (s : State) (l : LaneId) (c : Ctx) : State := s.modLane l (fun x => { x with bank := c, stepping := false, entry := none })

/-- A double fault: the lane is fenced, the running job ends with ACCESS_FAULT, every other resident context goes back to its block (R127). The element entry of the fenced lane shows CAUSE 5, check failed: no code of Table 12-11 names a double fault (DESIGN CHOICE, log 128). -/
def State.doubleFault (s : State) (l : LaneId) (cause : BitVec 8) : State :=
  let x := s.lane l
  let s1 := match x.run with
    | some slot => s.endJob slot St.accessFault (trapDetail cause)
    | none => s
  let keep := (s1.lane l).resident
  let s2 := { s1 with jobs := s1.jobs.map (fun (j : Job) => match tget keep j.slot with
    | some c => { j with block := c }
    | none => j) }
  let s3 := (s2.modLane l (fun y => { y with run := none, bank := {}, resident := [], grants := [] })).fence (90 + l.val) 5
  s3.raise 0x1007 x.hollow l.val cause.toNat 0

/-- Enter the handler of a trap; a trap at K level with IE 0 is a double fault (R124, R127). -/
def State.enterTrap (s : State) (l : LaneId) (c : Ctx) (t : Trap) (epc : Word) : State :=
  if c.level = .k && !c.ie then s.doubleFault l t.cause
  else
    let (s1, c1) := s.trapCtx c t epc
    s1.setBank l c1

/-- Take a trap an instruction raises: its entry, which may still be to begin when the slice ends (R124, R126, R461). -/
def State.takeTrap (s : State) (l : LaneId) (c : Ctx) (t : Trap) (epc : Word) : State :=
  if c.level = .k && !c.ie then s.doubleFault l t.cause
  else
    ((s.enterTrap l c t epc).modLane l (fun x => { x with entry := some ({ c with pc := epc }, t) })).countLane l 0x0E 1 c.pc

/-- At a slice's end the entry of the trap raised last may not have begun, a free bit: the trap is then held with the context it was raised in (R126; log 9). -/
def State.holdTrap (s : State) (l : LaneId) : State :=
  match (s.lane l).entry with
  | none => s
  | some (c, t) =>
    let held := Config.draw 1 s.free == 1
    { s with free := s.free + 1 }.modLane l (fun x => { x with entry := none, bank := if held then { c with held := some t } else x.bank })

/-- An instruction retires: its bank is written and the lane's counters count it (R461). -/
def State.retire (s : State) (l : LaneId) (eng : Bool) (pc : Word) (c : Ctx) : State :=
  let s1 := (s.setBank l c).countLane l 0x02 1 pc
  if eng then s1.countLane l 0x10 1 pc else s1

/-- A block register is the destination of an outstanding block request: an instruction that names it waits (R143). -/
def State.pendingV (s : State) (slot : Nat) (r : VReg) : Bool := s.cipher.reqs.any (fun q => q.job == slot && q.dst == r)

/-- Carried results of a job not yet written: its first instruction waits for them (Table 05-1). -/
def State.carriedOf (s : State) (slot : Nat) : Bool := s.cipher.reqs.any (fun q => q.job == slot && q.carried)

/-- Conclude an instruction at PC; one that waits leaves what its wait asks for. -/
def State.conclude (s old : State) (l : LaneId) (eng : Bool) (c : Ctx) (r : LaneRes) : State :=
  match r with
  | .wait => s
  | .trap t => s.takeTrap l c t c.pc
  | .fail st detail => (match (old.lane l).run with | some slot => s.endJob slot st detail | none => s)
  | .ok c' => s.retire l eng c.pc { c' with pc := c.pc + 4 }
  | .jump c' pc => s.retire l eng c.pc { c' with pc := pc }

/-- The trap the fetch of an instruction meets, by its address and by the page it is in (R97, R98, R101, R103, R119). -/
def State.fetchMeets (s : State) (l : LaneId) (j : Job) (c : Ctx) : Option (Trap × Option Violation) :=
  match fetchTrap c with
  | some t => some (t, none)
  | none => s.fetchPage l j c

/-- The trap of a fetch is taken, its violation reported (R124, R348). -/
def State.fetchFault (s : State) (l : LaneId) (c : Ctx) (r : Trap × Option Violation) : State :=
  (r.2.elim s (fun v => s.violate v none)).takeTrap l c r.1 c.pc

/-- One instruction on a lane: nothing where the lane cannot issue (log 4); the fetch checks; a wait for pending block registers; then the instruction's own effect. -/
def laneStep (l : LaneId) (eng : Bool) (uses : List VReg) (body : State → Job → Ctx → State × LaneRes) (s : State) : State :=
  match s.active l with
  | none => s
  | some (j, c) =>
    match s.fetchMeets l j c with
    | some r => s.fetchFault l c r
    | none =>
      if s.carriedOf j.slot || uses.any (s.pendingV j.slot) then s
      else
        let r := body s j c
        r.1.conclude s l eng c r.2

/-- An instruction whose effect is on the whole state: what it does where the lane may issue, or the trap it meets (R95). -/
def ctlStep (l : LaneId) (f : State → Job → Ctx → State) (s : State) : State :=
  match s.active l with
  | none => s
  | some (j, c) =>
    match s.fetchMeets l j c with
    | some r => s.fetchFault l c r
    | none => if s.carriedOf j.slot then s else f s j c

/-- An instruction over the bank alone. -/
def bankStep (l : LaneId) (eng : Bool) (uses : List VReg) (f : Ctx → LaneRes) (s : State) : State :=
  laneStep l eng uses (fun s _ c => (s, f c)) s

/-- An instruction that writes one general register (R114, R116). -/
def gStep (l : LaneId) (d : GReg) (f : Ctx → Word) (s : State) : State :=
  bankStep l false [] (fun c => .ok (c.wg d (f c))) s

/-- An engine refusal: cause 0x0D with the status and the reason in INFO (R140). -/
def engineTrap (st : BitVec 7) (reason : BitVec 8) : Trap :=
  { cause := 0x0D, kind := some 5, info := (reason ++ st.setWidth 8) }

/-- A refusal that names a key (R140). -/
def keyTrap (st : BitVec 7) (reason : BitVec 8) (h : Handle) : Trap := { engineTrap st reason with key := some h }

/-- Trap 0x02 (R92, R95, R122). -/
def privTrap : Trap := { cause := 0x02 }

/-- Trap 0x01 (R92, R109). -/
def undefTrap : Trap := { cause := 0x01 }

/-- A slice has ended: its bank goes to its resident slot, newest last, and the banks swap (R133, R136). -/
def Lane.park (x : Lane) : Lane :=
  match x.run with
  | none => x
  | some slot =>
    { x with
      run := none, resident := x.resident.filter (fun e => e.1 != slot) ++ [(slot, x.bank)]
      bank := x.idle, idle := x.bank, second := !x.second, entry := none }

/-- The slice on a lane ends early, its job taking the given state: how many of its slots it used is a free value (R19 to R21, R161; log 9). -/
def State.endSlice (s : State) (l : LaneId) (st : JobState) : State :=
  match (s.lane l).run with
  | none => s
  | some slot =>
    let n := (s.lane l).slotLast + 1 - (s.lane l).slotNow
    let k := 1 + (Config.draw 32 s.free).toNat % n
    ({ s with free := s.free + 1 }.modLane l Lane.park).modJob slot (fun j => { j with st := st, used := j.used + k })

/-- The slice on a lane is preempted after its last slot, or at the tail; a lane that a debugger holds keeps its job across frames (R19, R20, R136, R359). -/
def State.preempt (s : State) (l : LaneId) : State :=
  match (s.lane l).run with
  | none => s
  | some slot =>
    if (s.lane l).stopped then s
    else
      ((s.holdTrap l).modLane l Lane.park).modJob slot (fun j =>
        { j with st := .runnable, used := j.used + ((s.lane l).slotLast + 1 - (s.lane l).slotNow) })

/-- The kernel ends the running job with a status of a lane fault and records event 0x1008, one per instance and frame (R128). -/
def State.laneFault (s : State) (l : LaneId) (j : Job) (c : Ctx) (st : BitVec 7) (detail : BitVec 16) : State :=
  let n := (s.inst j.inst).elim 0 (·.laneEvents)
  let s1 := if n = 0 then
      s.raise 0x1008 (s.lane l).hollow ((fsynCause c.fsyn).toNat + j.inst * 2 ^ 16) (c.kepc.toNat % 2 ^ 32) (c.faddr.toNat % 2 ^ 32)
    else s.countInst j.inst 14 1
  (s1.modInst j.inst (fun x => { x with laneEvents := x.laneEvents + 1 })).endJob j.slot st detail

end Sys2Proof.Machine
end

