-- ==== Sys2Proof/Machine/Cipher.lean ====
section
/-! DEFINITION. The cipher fabric: block issue, the scheduler, results, key schedules, derivation: major 0x31 (R139 to R144, R180 to R190, R250). -/

namespace Sys2Proof.Machine

/-! ## What a block operation computes (R144) -/

/-- The first 32 bytes of an XTS key serve forms 0x000 to 0x002, the second 32 the tweak form; other keys whole (R144). -/
def blockKey (op : BlkOp) (t : BitVec 8) (key : Bytes) : Bytes :=
  if isXts t then (match op with | .tweak => (key.drop 32).take 32 | _ => key.take 32) else key.take (keyLen t)

/-- One raw block under a key: AES on 16 bytes, TDEA on bytes 0 to 7 with bytes 8 to 15 of the result zero (R144). -/
def blockOp (op : BlkOp) (t : BitVec 8) (key : Bytes) (src : Blk) : Blk :=
  let k := blockKey op t key
  if isTdea t then
    (match op with
     | .dec => (Config.tdeaInv k (src.setWidth 64)).setWidth 128
     | _ => (Config.tdea k (src.setWidth 64)).setWidth 128)
  else
    (match op with
     | .dec => Config.aesInv k src
     | _ => Config.aes k src)

/-! ## Issue (R142 to R144) -/

/-- Usage bits under which a raw encryption may be asked for: every use the modes of Table 07-6 build on it (log 22). -/
def encUses : List Nat := [uEncrypt, uDecrypt, uWrap, uUnwrap, uMacGen, uMacVer, uPin, uBdk, uKbpk, uRecord]

/-- Usage bits under which a raw decryption may be asked for (log 22). -/
def decUses : List Nat := [uDecrypt, uUnwrap, uPin, uBdk, uKbpk, uRecord]

/-- The key permits the operation (R144, Table 07-6). -/
def blockPermitted (op : BlkOp) (n : Node) : Bool :=
  match op with
  | .tweak => isXts n.ktype && n.may uEncrypt
  | .enc => isCipher n.ktype && (!(isTdea n.ktype) || n.tdeaOk) && encUses.any n.may
  | .dec => isCipher n.ktype && (!(isTdea n.ktype) || n.tdeaOk) && decUses.any n.may

/-- Requests a lane has outstanding (R143). -/
def State.outstandingOn (s : State) (l : LaneId) : Nat := (s.cipher.reqs.filter (fun q => q.lane == l.val)).length

/-- The check of the key register at every issue (R90, R144). -/
def State.blockKeyCheck (s : State) (j : Job) (c : Ctx) (op : BlkOp) (k : KReg) : Trap ⊕ Handle :=
  match c.rk k with
  | none => .inl { cause := 0x0B }
  | some h =>
    match s.keyNode j.bound h with
    | some n => if blockPermitted op n then .inr h else .inl (keyTrap St.keyAttrDenied 0x01 h)
    | none => .inl (keyTrap St.keyAttrDenied 0x01 h)

/-- Put a request behind the earlier ones (R185). -/
def State.issueBlock (s : State) (l : LaneId) (j : Job) (c : Ctx) (op : BlkOp) (h : Handle) (src : Blk) (d : VReg) : State :=
  let r : BlkReq := { lane := l.val, job := j.slot, inst := j.inst, op := op, key := h, src := src, dst := d }
  { s with cipher := { s.cipher with reqs := s.cipher.reqs ++ [r] } }.countLane l 0x08 1 c.pc

/-- Issue a block operation on a block register (R142, R143). -/
def blkIssue (l : LaneId) (op : BlkOp) (d a : VReg) (k : KReg) (s : State) : State :=
  laneStep l true [d, a] (fun s j c =>
    match s.blockKeyCheck j c op k with
    | .inl t => (s, .trap t)
    | .inr h =>
      if 32 ≤ s.outstandingOn l then (s, .wait)
      else (s.issueBlock l j c op h (c.rv a) d, .ok c)) s

/-- BLK_ENC (R142). -/
def execBlkEnc (l : LaneId) (d a : VReg) (k : KReg) (s : State) : Host.Outcome State Fault Refusal :=
  ok (blkIssue l .enc d a k s)

/-- BLK_DEC (R142). -/
def execBlkDec (l : LaneId) (d a : VReg) (k : KReg) (s : State) : Host.Outcome State Fault Refusal :=
  ok (blkIssue l .dec d a k s)

/-- BLK_ENC_T (R144). -/
def execBlkEncT (l : LaneId) (d a : VReg) (k : KReg) (s : State) : Host.Outcome State Fault Refusal :=
  ok (blkIssue l .tweak d a k s)

/-- One step of a counter register: its value and the register after it, none where it is unarmed or SPENT (R148). -/
def stepCounter (k : Counter) : Option (Blk × Counter) :=
  if k.armed && !k.spent then some (k.value, k.next) else none

/-- BLK_ENC_CTR (R142). -/
def execBlkEncCtr (l : LaneId) (d : VReg) (c : CReg) (k : KReg) (s : State) : Host.Outcome State Fault Refusal :=
  ok (laneStep l true [d] (fun s j x =>
    match s.blockKeyCheck j x .enc k with
    | .inl t => (s, .trap t)
    | .inr h =>
      if 32 ≤ s.outstandingOn l then (s, .wait)
      else match stepCounter (x.rc c) with
        | none => (s, .trap { cause := 0x0C })
        | some (v, n) => (s.issueBlock l j x .enc h v d, .ok (x.wc c n))) s)

/-- WAITB (R142). -/
def execWaitb (l : LaneId) (n : BitVec 5) (s : State) : Host.Outcome State Fault Refusal :=
  ok (laneStep l true [] (fun s _ c => (s, if n.toNat < s.outstandingOn l then .wait else .ok c)) s)

/-! ## The scheduler (R183 to R189) -/

/-- Cores that take requests, in R26 order over core numbers (R185, R186). -/
def State.cores (s : State) : List Nat := (rotated 20 s.frame.num).filter (fun n => !s.fenced n && !s.shut (coreDomain n))

/-- The version of a request's node its job is bound to. -/
def State.reqVersion (s : State) (r : BlkReq) : Nat :=
  match s.job r.job with
  | some j => s.verOf (hInst r.key) j.bound (hNode r.key)
  | none => hVer r.key

/-- The request's key-schedule entry is loaded: world, instance, node and version match (R183, R184). -/
def State.reqLoaded (s : State) (r : BlkReq) : Bool :=
  let ver := s.reqVersion r
  let hollow := (s.job r.job).elim false Job.hollow
  s.cipher.kss.any (fun e => e.loaded && e.hollow == hollow && e.inst == hInst r.key && e.node == hNode r.key && e.version == ver &&
    e.tweak == (r.op == .tweak))

/-- Credit an instance holds (R189). -/
def State.cipherCredit (s : State) (i : Nat) : Int := (tget s.cipher.credit i).getD 0

/-- The request a lane offers: the oldest undispatched one whose entry is loaded, in issue order (R187). -/
def State.offer (s : State) (l : Nat) : Option (Nat × BlkReq) :=
  ((s.cipher.reqs.zipIdx.map (fun e => (e.2, e.1))).find? (fun e => e.2.lane == l && e.2.core.isNone && s.reqLoaded e.2)).bind
    (fun e => if e.2.carried || decide (0 < s.cipherCredit e.2.inst) then some e else none)

/-- The order in which lanes are served in a cycle: carried requests first, among the others the longest wait since the lane's last dispatch, then R26 (R186). -/
def State.laneBefore (s : State) (a b : Nat × BlkReq) : Bool :=
  let w (x : Nat × BlkReq) := s.cipher.lastDispatch.toList.getD x.2.lane 0
  let rot (x : Nat × BlkReq) := (x.2.lane + 64 - s.frame.num % 64) % 64
  if a.2.carried != b.2.carried then a.2.carried
  else if !a.2.carried && w a != w b then decide (w a < w b)
  else decide (rot a ≤ rot b)

/-- Insert in an order. -/
def insertBy {α : Type} (before : α → α → Bool) (x : α) : List α → List α
  | [] => [x]
  | y :: ys => if before x y then x :: y :: ys else y :: insertBy before x ys

/-- Sort by an order, earlier entries first among equals. -/
def sortBy {α : Type} (before : α → α → Bool) (xs : List α) : List α := xs.foldr (insertBy before) []

/-- Pass one request to a core: charge the instance, count the dispatch, remember the lane's dispatch (R186, R189). -/
def State.dispatch (s : State) (cycle : Nat) (e : Nat × BlkReq) (core : Nat) : State :=
  if h : core < 20 then
    let c := s.cipher
    let s1 := { s with
      cipher := { c with
        reqs := c.reqs.modify e.1 (fun r => { r with core := some ⟨core, h⟩, place := c.dispatched, takenAt := s.frame.num })
        dispatched := c.dispatched + 1
        lastDispatch := c.lastDispatch.zipIdx.map (fun (w, i) => if i = e.2.lane then s.frame.num * 12000 + cycle else w)
        credit := tset c.credit e.2.inst (s.cipherCredit e.2.inst - 1) } }
    ((s1.countInst e.2.inst 6 1).countGlob core 1).work e.2.inst (fun w => { w with cipher := w.cipher + 1 })
  else s

/-- Offers in rank order go to the cores in R26 order, each checked against the credit left (R186, R189). -/
def State.dispatchAll (s : State) (cycle : Nat) : List (Nat × BlkReq) → List Nat → State
  | [], _ => s
  | _, [] => s
  | e :: es, c :: cs =>
    if e.2.carried || decide (0 < s.cipherCredit e.2.inst) then (s.dispatch cycle e c).dispatchAll cycle es cs
    else s.dispatchAll cycle es (c :: cs)

/-- BLOCK_DISPATCH (R185). -/
def execBlockDispatch (cycle : Nat) (s : State) : Host.Outcome State Fault Refusal :=
  ok (if !s.running || cycle < 256 || 11371 < cycle then s
      else s.dispatchAll cycle (sortBy s.laneBefore ((List.range 64).filterMap s.offer)) s.cores)

/-! ## Results (R180, R182) -/

/-- Change the context of a job wherever it stands: a lane's bank, a resident slot, or its context block. -/
def State.modCtx (s : State) (slot : Nat) (f : Ctx → Ctx) : State :=
  if s.lanes.any (fun x => x.run == some slot || x.resident.any (fun e => e.1 == slot)) then
    { s with lanes := s.lanes.map (fun x =>
        { x with
          bank := if x.run = some slot then f x.bank else x.bank
          resident := x.resident.map (fun e => if e.1 = slot then (e.1, f e.2) else e) }) }
  else s.modJob slot (fun j => { j with block := f j.block })

/-- Fence a cipher core with event 0x5001: 1 timeout, 2 parity; CAUSE of the element is 4 or 6 (R182, Table 12-11). -/
def State.fenceCore (s : State) (core cause : Nat) : State := (s.fence core (if cause = 2 then 6 else 4)).raise 0x5001 false core cause s.frame.cycle

/-- The result a request's core computes. -/
def State.blockResult (s : State) (r : BlkReq) : Blk :=
  match s.job r.job with
  | some j => blockOp r.op (hType r.key) (s.keyValue j.bound r.key) r.src
  | none => 0

/-- The request a core accepted first of those it holds: its place in the list, and the request (R180). -/
def State.onCore (s : State) (core : Fin 20) : Option (Nat × BlkReq) :=
  (s.cipher.reqs.zipIdx.filter (fun e => e.1.core == some core)).foldl (fun (m : Option (Nat × BlkReq)) e =>
    match m with
    | some b => if e.1.place < b.2.place then some (e.2, e.1) else some b
    | none => some (e.2, e.1)) none

/-- BLOCK_RESULT (R180). -/
def execBlockResult (core : Fin 20) (parityErr : Bool) (s : State) : Host.Outcome State Fault Refusal :=
  ok (match s.onCore core with
      | none => s
      | some (i, r) =>
          if parityErr then
            { s with cipher := { s.cipher with reqs := s.cipher.reqs.modify i (fun r => { r with core := none }) } }.fenceCore core.val 2
          else
            ({ s with cipher := { s.cipher with reqs := s.cipher.reqs.eraseIdx i } }).modCtx r.job
              (fun c => c.wv r.dst (s.blockResult r)))

/-! ## Key schedules and derivation (R183, R250, R278) -/

/-- The entry a load names. -/
def kssIs (hollow : Bool) (inst node version : Nat) (tweak : Bool) (e : KssEntry) : Bool :=
  e.hollow == hollow && e.inst == inst && e.node == node && e.version == version && e.tweak == tweak

/-- KEY_SCHEDULE_LOADED (R183). -/
def execKeyScheduleLoaded (hollow : Bool) (inst node version : Nat) (tweak : Bool) (s : State) : Host.Outcome State Fault Refusal :=
  ok { s with cipher := { s.cipher with kss := s.cipher.kss.map (fun e =>
      if kssIs hollow inst node version tweak e then { e with loaded := true } else e) } }

/-- Entries of the cut cache for a world: 2 of 16 ways of 8,192 sets for the Hollow, 14 for the Plain; the set of an entry is not given, so a world's ways are one pool (R278, log 23). -/
def cutCapacity (hollow : Bool) : Nat := if hollow then 16384 else 114688

/-- Put an entry in the cut cache as the most recent, the least recent of its world leaving when the world's ways are full (R278). -/
def cutInsert (cut : List CutEntry) (e : CutEntry) : List CutEntry :=
  let rest := cut.filter (fun x => !(x.hollow == e.hollow && x.inst == e.inst && x.node == e.node && x.versions == e.versions))
  let same := rest.filter (fun x => x.hollow == e.hollow)
  let rest := if cutCapacity e.hollow ≤ same.length then
      (match rest.findIdx? (fun x => x.hollow == e.hollow) with | some i => rest.eraseIdx i | none => rest)
    else rest
  rest ++ [e]

/-- The cut cache holds a reachable value of a node under the versions of its path (R269, R278). -/
def State.cutHit (s : State) (hollow : Bool) (inst idx : Nat) (bound : List (Nat × Nat)) : Bool :=
  s.quarry.cut.any (fun e => e.hollow == hollow && e.inst == inst && e.node == idx && e.reachable && e.versions == s.pathVersions inst bound idx)

/-- A hash context's key is loaded by the derivation of its node, under the version its job is bound to (R194). -/
def State.keyDone (s : State) (j : Job) (inst node version : Nat) (h : HashCtx) : HashCtx :=
  match h.key with
  | some k => if hInst k = inst ∧ hNode k = node ∧ s.verOf inst j.bound node = version then { h with loaded := true } else h
  | none => h

/-- The contexts of a world's jobs whose key a derivation gives are loaded (R194). -/
def State.loadContexts (s : State) (hollow : Bool) (inst node version : Nat) : State :=
  { s with jobs := s.jobs.map (fun (j : Job) =>
      if j.hollow = hollow then { j with hash := j.hash.map (fun h => h.map (s.keyDone j inst node version)) } else j) }

end Sys2Proof.Machine
end

