-- ==== Sys2Proof/Machine/HostOps.lean ====
section
/-! DEFINITION. What the unit issues to host memory and how it interrupts: function state, posted writes and dirty logging, MSI-X (R76, R317, R474 to R480). -/

namespace Sys2Proof.Machine

/-- The port a function's requests use: instance 0 the port of R474, another instance the port it is bound to (R299). -/
def State.portOf (s : State) (i : Nat) : Port :=
  if (if i = 0 then s.host.inUse1 else (s.inst i).elim false (fun x => x.port == 1)) then s.host.ports[1] else s.host.ports[0]

/-- A function may issue requests: its port's link is up, its Bus Master Enable is 1, and for a virtual function VF Enable is 1 and its number is at most NumVFs (R473, R477). -/
def State.functionUp (s : State) (i : Nat) : Bool :=
  let p := s.portOf i
  p.up && !p.perst && !p.flr && (if i = 0 then p.bme else p.vfEnable && decide (i ≤ p.numVfs) && (s.inst i).elim false (·.bme))

/-- The pages of 4 KiB a write touches. -/
def pagesOf (addr len : Nat) : List Nat :=
  if len = 0 then [] else (List.range ((addr + len - 1) / 4096 + 1 - addr / 4096)).map (fun k => addr / 4096 + k)

/-- Insert a page into a rising list without repeats. -/
def markPage (p : Nat) : List Nat → List Nat
  | [] => [p]
  | q :: qs => if p < q then p :: q :: qs else if p = q then q :: qs else q :: markPage p qs

/-- Log a write of an instance: pages inside the range are marked in the active buffer, a write outside is counted (R317). -/
def Dirty.mark (d : Dirty) (addr len : Nat) : Dirty :=
  if !d.en then d
  else
    let ps := pagesOf addr len
    let inside (p : Nat) : Bool := decide (d.base ≤ p * 4096) && decide (p * 4096 < d.base + d.len)
    { d with
      marks := (ps.filter inside).foldl (fun m p => markPage ((p * 4096 - d.base) / 4096) m) d.marks
      outside := if ps.all inside then d.outside else d.outside + 1 }

/-- Issue a posted write: it is done when issued, and logged (R317, R475). -/
def State.issueWrite (s : State) (i : Nat) (addr : Word) (bytes : Bytes) : State :=
  (s.emit (.hostWrite i addr bytes)).modInst i (fun x => { x with dirty := x.dirty.mark addr.toNat bytes.length })

/-- A write of a function: issued, or waiting while the function may not issue requests (R475, R477). -/
def State.hostWrite (s : State) (i : Nat) (addr : Word) (bytes : Bytes) : State :=
  if bytes = [] then s
  else if s.functionUp i then s.issueWrite i addr bytes
  else { s with host := { s.host with waiting := s.host.waiting ++ [(i, .hostWrite i addr bytes)] } }

/-- Change a host port. -/
def State.modPort (s : State) (p : Fin 2) (f : Port → Port) : State :=
  { s with host := { s.host with ports := s.host.ports.set p.val (f s.host.ports[p]) p.isLt } }

/-- The port instance 0 uses, by number. -/
def State.inUse (s : State) : Fin 2 := if s.host.inUse1 then 1 else 0

/-- A message waits while its function may not issue requests, once (R477). -/
def State.waitMsix (s : State) (i v : Nat) : State :=
  if s.host.waiting.contains (i, .msix i v) then s else { s with host := { s.host with waiting := s.host.waiting ++ [(i, .msix i v)] } }

/-- Send a vector of the physical function: masked, it sets its pending bit (R76, R480). -/
def State.pfVector (s : State) (v : Nat) : State :=
  if !s.functionUp 0 then s.waitMsix 0 v
  else if (s.portOf 0).mask.getLsbD v then s.modPort s.inUse (fun p => { p with pend := p.pend ||| (1 <<< v) })
  else s.emit (.msix 0 v)

/-- Send vector 0 or 1 of an instance (R76). -/
def State.msix (s : State) (i : Nat) (v : Fin 2) : State :=
  if i = 0 then s.pfVector v.val
  else match s.inst i with
    | none => s
    | some x =>
      if !s.functionUp i then s.waitMsix i v.val
      else if x.vecMask[v] then s.modInst i (fun x => { x with vecPend := x.vecPend.set v.val true v.isLt })
      else s.emit (.msix i v.val)

/-- Issue what waited: a write, or a message, which then obeys its mask. -/
def State.issueWaiting (s : State) (w : Nat × Output) : State :=
  match w.2 with
  | .hostWrite i a b => s.issueWrite i a b
  | .msix i v => if i = 0 then s.pfVector v else s.msix i (Fin.ofNat 2 v)
  | o => s.emit o

/-- Release what waited for functions that may issue requests again, oldest first (R477). -/
def State.releaseWrites (s : State) : State :=
  let go := s.host.waiting.filter (fun w => s.functionUp w.1)
  go.foldl State.issueWaiting { s with host := { s.host with waiting := s.host.waiting.filter (fun w => !s.functionUp w.1) } }

end Sys2Proof.Machine
end

