-- ==== Sys2Proof/Machine/Start.lean ====
section
/-! DEFINITION. The start of a job on a lane: its first host reads, the argument block, the kernel's job-start entry (R94, R131, R176, R477). -/

namespace Sys2Proof.Machine

/-- The source is a scatter-gather list. -/
def Job.srcSgl (j : Job) : Bool := j.desc.flags.getLsbD 0

/-- The destination is a scatter-gather list. -/
def Job.dstSgl (j : Job) : Bool := j.desc.flags.getLsbD 1

/-- Bytes of the argument block that are copied, from its fixed part: ARG_FIX, then the tail length read at ARG_VAR, capped at ARG_MAX (R176). -/
def argNeed (h : Header) (b : Bytes) : Nat :=
  if h.argVar = 0xFFFF then h.argFix else min h.argMax (h.argFix + leNat ((b.drop h.argVar).take 4))

/-- A reserved byte of the fixed part is not zero (R176). -/
def argRsvBad (h : Header) (b : Bytes) : Bool :=
  (List.range h.argFix).any (fun i => h.argRsv.getLsbD i && b.getD i 0 != 0)

/-- A job that waits for its argument block. -/
def Job.lacksArg (j : Job) : Bool := decide (0 < j.header.argFix) && j.ports.arg.isNone

/-- The port a function uses has no link. -/
def State.linkDown (s : State) (i : Nat) : Bool := !(s.portOf i).up

/-! ## The read-ahead (R56, R60) -/

/-- Bytes found in a walked list. -/
def SglWalk.total (w : SglWalk) : Nat := (w.bufs.map (·.2)).sum

/-- The pieces of a range over the buffers of a list: address and length. -/
def sglRanges : List (Word × Nat) → Nat → Nat → List (Word × Nat)
  | [], _, _ => []
  | (a, n) :: bs, off, len =>
    if len = 0 then []
    else if n ≤ off then sglRanges bs (off - n) len
    else (a + BitVec.ofNat 64 off, min len (n - off)) :: sglRanges bs 0 (len - (n - off))

/-- How far the source may be read: 64 KiB ahead of the write position, or of the furthest input cursor where the program reads on without writing (R56; DEDUCED, log 139). -/
def Job.readLimit (j : Job) : Nat := min j.desc.length.toNat (j.ports.si.toList.foldl max j.ports.written[0] + 65536)

/-- The mover reads the next entry of a list, one read at a time (R60). -/
def State.readEntry (s : State) (j : Job) (dest : Bool) : State :=
  let w := if dest then j.ports.dstWalk else j.ports.srcWalk
  if w.ended || w.reading || !s.functionUp j.inst then s
  else
    let base := w.seg.getD (if dest then j.desc.dst else j.desc.src)
    (s.emit (.hostRead j.inst (base + BitVec.ofNat 64 (16 * w.index)) 16)).modJob j.slot (fun x =>
      { x with ports := if dest then { x.ports with dstWalk := { x.ports.dstWalk with reading := true } }
                        else { x.ports with srcWalk := { x.ports.srcWalk with reading := true } } })

/-- Reads of source bytes up to a position, once 4 KiB or the last bytes may be read (log 139). -/
def State.readSource (s : State) (j : Job) (upto : Nat) : State :=
  let a := j.ports.asked
  if upto ≤ a ∨ (upto < a + 4096 ∧ upto ≠ j.desc.length.toNat) then s
  else
    let rs := if j.srcSgl then sglRanges j.ports.srcWalk.bufs a (upto - a) else [(j.desc.src + BitVec.ofNat 64 a, upto - a)]
    (rs.foldl (fun (t : State) r => t.emit (.hostRead j.inst r.1 r.2)) s).modJob j.slot (fun x => { x with ports := { x.ports with asked := upto } })

/-- The mover keeps the read-ahead of a job full: source data, and of a list the entries it needs (R56, R60). -/
def State.refill (s : State) (slot : Nat) : State :=
  match s.job slot with
  | none => s
  | some j =>
    if j.finished || j.net.isSome || !s.functionUp j.inst then s
    else if !j.srcSgl then s.readSource j j.readLimit
    else
      let s1 := if j.ports.srcWalk.total < j.readLimit ∧ j.desc.src.toNat % 16 = 0 then s.readEntry j false else s
      s1.readSource j (min j.readLimit j.ports.srcWalk.total)

/-- The first reads a mover issues for a job: the argument block, and the source up to the 64 KiB of the read-ahead or its list's first entry (R56, R60, R176). -/
def State.firstReads (s : State) (j : Job) : State :=
  if j.net.isSome || !s.functionUp j.inst then s
  else
    let s1 := if 0 < j.header.argFix then s.emit (.hostRead j.inst j.desc.arg j.header.argFix) else s
    (s1.modJob j.slot (fun x => { x with ports := { x.ports with asked := 0, srcWalk := { x.ports.srcWalk with reading := false } } })).refill j.slot

/-- What the first reads of a job find before any data: a link that is down, no host memory behind a network request, a misaligned source list (R60, R477). -/
def State.startFault (s : State) (j : Job) : Option (BitVec 7 × BitVec 16) :=
  if j.net.isSome then (if j.lacksArg then some (St.accessFault, 2) else none)
  else if s.linkDown j.inst && decide (0 < j.header.argFix) then some (St.accessFault, 2)
  else if s.linkDown j.inst && decide (0 < j.desc.length.toNat) then some (St.accessFault, 0)
  else if j.srcSgl && decide (0 < j.desc.length.toNat) && j.desc.src.toNat % 16 != 0 then some (St.descInvalid, 0x8000)
  else none

/-- The colour of the granule a virtual address leads to through the job's tables; a free value where nothing is mapped (Table 03-3; log 9). -/
def State.colourAtVa (s : State) (x : Lane) (ttb1 : Word) (va : Nat) (open_ : BitVec 4) : BitVec 4 :=
  match (s.stage1 x ttb1 va).1 with
  | .page out big _ =>
    (match (s.stage2 x (within out big va)).1 with
     | .page out2 big2 _ => s.granule (within out2 big2 (within out big va))
     | _ => open_)
  | _ => open_

/-- A pointer of a colour to a virtual address (R97). -/
def mkPtr (colour : BitVec 4) (va : Nat) : Word := ptrWith (BitVec.ofNat 64 va) colour

/-- The entry point of a job: the image stands from 0x40_0000 (Tables 03-5, 04-16). -/
def Job.entryPc (j : Job) : Word := BitVec.ofNat 64 (0x400000 + j.header.entry)

/-- TTB1 of a job: EN, the base of its instance's stage-1 tables, the ASID (R99, R131). -/
def State.ttb1Of (s : State) (j : Job) : Word :=
  ((s.inst j.inst).elim 0 (fun x => x.stage1) &&& 0xFFFFFFF000) ||| 1 ||| (BitVec.ofNat 64 (j.inst % 1024) <<< 40)

/-- The window at job start: zero but for the argument block (Table 03-3). -/
def startWindow (arg : Bytes) : List Host.Cell := Memory.writeBytes [] 0 arg

/-- The handle a job's k0 or k1 starts with: from its record map, or from its descriptor; empty for type 0x00 (R172, Table 03-3). -/
def Job.keyAt (j : Job) (second : Bool) : Option Handle :=
  let h := if second then j.keyOne else j.keyZero
  if hType h = 0 then none else some h

/-- Registers at job start, before the kernel's entry (Table 03-3). -/
def Job.startRegs (j : Job) (c : Ctx) (arg : Bytes) (tables consts : BitVec 4) : Ctx :=
  { ((((((c.wg 1 j.desc.arg).wg 2 (j.desc.length.setWidth 64)).wg 3 (mkPtr 1 winBase)).wg 4 (mkPtr tables 0x40000000)).wg 5
      (mkPtr consts 0x800000)).wk 0 (j.keyAt false)).wk 1 (j.keyAt true) with
    cmask := 0x7FFE, window := startWindow arg }

/-- The context at the first instruction: the kernel was entered at KVEC + 0x200 with cause 0x20, loaded TTB1 and WINB and returned by KRET (R94, R131). -/
def State.startCtx (s : State) (l : LaneId) (j : Job) (arg : Bytes) : State × Ctx :=
  let ttb1 := s.ttb1Of j
  let x := s.lane l
  let (o1, s1) := s.take 4
  let (o2, s2) := s1.take 4
  let (base, s3) := s2.take 8
  let c0 := j.startRegs {} arg (s.colourAtVa x ttb1 0x40000000 o1) (s.colourAtVa x ttb1 0x800000 o2)
  let (s4, c1) := s3.trapCtx { c0 with pc := j.entryPc } { cause := 0x20 } j.entryPc
  let winb : Word := (base.setWidth 64 <<< 10) ||| (BitVec.ofNat 64 j.header.windowKib <<< 18)
  (s4, { c1 with level := .u, ie := true, pc := j.entryPc, ttb1 := ttb1, winb := winb, winSize := min 0x4000 (j.header.windowKib * 1024),
                   winAt := base.toNat * 1024 })

/-- Start the job a lane runs: the argument block is copied and checked, and the bank takes the state of Table 03-3 (R94, R131, R176). -/
def State.startJob (s : State) (l : LaneId) (slot : Nat) : State :=
  match s.job slot with
  | none => s
  | some j =>
    if j.started || j.lacksArg then s
    else
      let b := j.ports.arg.getD []
      let arg := b.take (argNeed j.header b)
      if argRsvBad j.header b then s.endJob slot St.descInvalid 0x38
      else
        let (s1, c) := s.startCtx l j arg
        (s1.modLane l (fun x => { x with bank := c })).modJob slot (fun x => { x with started := true })

/-- The argument block of a job arrives: the job starts where it holds a lane; a delivery shorter than the copy of R176 is none (R176; log 4). -/
def State.argArrived (s : State) (slot : Nat) (bytes : Bytes) : State :=
  match s.job slot with
  | none => s
  | some j =>
    if !j.lacksArg || decide (bytes.length < argNeed j.header bytes) || decide (bytes.length < j.header.argFix) then s
    else
      let s1 := s.modJob slot (fun x => { x with ports := { x.ports with arg := some bytes } })
      match (List.finRange 64).find? (fun l => (s.lane l).run == some slot) with
      | some l => s1.startJob l slot
      | none => s1

end Sys2Proof.Machine
end

