-- ==== Sys2Proof/Machine/Stream.lean ====
section
/-! DEFINITION. Stream ports and the DMA movers' reads: major 0x34 (R55 to R60, R150 to R156, R477). -/

namespace Sys2Proof.Machine

/-! ## The input stream (R152, R153) -/

/-- LENGTH of a job. -/
def Job.len (j : Job) : Nat := j.desc.length.toNat

/-- The padding si0 delivers after LENGTH bytes: the encrypt direction alone pads (R153). -/
def Job.padding (j : Job) : Bytes := if j.header.decrypt then [] else padBytes j.desc.padMode j.header.block j.len

/-- Bytes an input port delivers in all, padding included (R153). -/
def Job.streamLen (j : Job) : Nat := j.len + j.padding.length

/-- n bytes of the stream from a position. -/
def Job.streamBytes (j : Job) (pos n : Nat) : Bytes := (((j.ports.src.take j.len) ++ j.padding).drop pos).take n

/-- What an input instruction meets: a wait for the read-ahead, nothing left, or the valid bytes. -/
inductive Pulled where
  | wait
  | empty
  | got (bytes : Bytes)
deriving DecidableEq, Repr

/-- Pull up to n bytes from si p (R152). -/
def Job.pull (j : Job) (p : BitVec 2) (n : Nat) : Pulled :=
  let pos := j.ports.si.toList.getD p.toNat 0
  let m := min n (j.streamLen - pos)
  if m = 0 then .empty
  else if j.ports.src.length < min j.len (pos + m) then .wait
  else .got (j.streamBytes pos m)

/-- Bytes an input port still has to deliver (R152). -/
def Job.remains (j : Job) (p : BitVec 2) : Nat := j.streamLen - j.ports.si.toList.getD p.toNat 0

/-- Advance an input cursor. -/
def Job.advance (j : Job) (p : BitVec 2) (n : Nat) : Job :=
  { j with ports := { j.ports with si := j.ports.si.set p.toNat (j.ports.si.toList.getD p.toNat 0 + n) (by have := p.isLt; omega) } }

/-- A refusal of an input port with nothing left (Table 04-1). -/
def emptyTrap : Trap := engineTrap St.lengthInvalid 0x10

/-- An input port delivers: the cursor moves and the bytes of si0 are counted (R152, Table 12-5). -/
def State.pulled (s : State) (j : Job) (p : BitVec 2) (n : Nat) : State :=
  let s1 := (s.modJob j.slot (fun x => x.advance p n)).refill j.slot
  if p = 0 then s1.countInst j.inst 10 n else s1

/-- Pull n bytes into the bank (R152). -/
def siStep (l : LaneId) (uses : List VReg) (p : BitVec 2) (size : Job → Nat) (put : Ctx → Bytes → Ctx) (s : State) : State :=
  laneStep l true uses (fun s j c =>
    match j.pull p (size j) with
    | .wait => (s, .wait)
    | .empty => (s, .trap emptyTrap)
    | .got bs => (s.pulled j p bs.length, .ok (put c bs))) s

/-- SI_PULL (R152). -/
def execSiPull (l : LaneId) (d : VReg) (n : BitVec 2) (s : State) : Host.Outcome State Fault Refusal :=
  ok (siStep l [d] n (fun j => j.header.block) (fun c bs => c.wv d (blkOf bs)) s)

/-- SI_PULLG (R152). -/
def execSiPullg (l : LaneId) (d : GReg) (n : BitVec 2) (s : State) : Host.Outcome State Fault Refusal :=
  ok (siStep l [] n (fun _ => 8) (fun c bs => c.wg d (BitVec.ofNat 64 (leNat bs))) s)

/-- SI_REM (R152). -/
def execSiRem (l : LaneId) (d : GReg) (n : BitVec 2) (s : State) : Host.Outcome State Fault Refusal :=
  ok (laneStep l true [] (fun s j c => (s, .ok (c.wg d (BitVec.ofNat 64 (j.remains n))))) s)

/-! ## The output ports (R152 to R156) -/

/-- What an output instruction meets: a wait for a list entry, a trap, the end of the job, or the job after it and the bytes written. -/
inductive Pushed where
  | wait
  | trap (t : Trap)
  | fail (st : BitVec 7) (detail : BitVec 16)
  | done (j : Job) (bytes : Bytes)
deriving DecidableEq, Repr

/-- The trap of an unbound port or a push after SO.FIN (Table 04-1). -/
def unboundTrap : Trap := engineTrap St.accessFault 0x13

/-- The trap of a push beyond capacity (Table 04-1). -/
def capacityTrap : Trap := engineTrap St.lengthInvalid 0x11

/-- OUTLEN of the argument block as copied at job start (Table 04-11). -/
def Job.outLen (j : Job) : Nat := leNat (((j.ports.arg.getD []).drop 0x1C).take 4)

/-- An unpadding job holds its final block (modes 0x01 and 0x02). -/
def Job.unpads (j : Job) : Bool := j.header.decrypt && (j.desc.padMode == 1 || j.desc.padMode == 2)

/-- A stealing encryption holds its last two blocks (R154). -/
def Job.steals (j : Job) : Bool := !j.header.decrypt && j.desc.padMode == 5

/-- Bytes so0 keeps back until SO.FIN. -/
def Job.holdLen (j : Job) : Nat := if j.unpads then j.header.block else if j.steals then 2 * j.header.block else 0

/-- The bytes of a push so0 accepts: modes 0x04 and 0x05 cut at LENGTH, unless the output is free or held (Table 04-7). -/
def Job.accepts (j : Job) (bytes : Bytes) : Bytes :=
  if j.header.outFree || j.steals || (j.desc.padMode != 4 && j.desc.padMode != 5) then bytes
  else bytes.take (j.len - j.ports.pushed[0])

/-- so0 may write n more bytes: capacity of a free contiguous output, and of a list as walked (R60, R156). -/
def Job.room (j : Job) (n : Nat) : Option Pushed :=
  let w := j.ports.written[0]
  if n = 0 then none
  else if j.outCap.isSome then
    (if w + n ≤ j.outCap.getD 0 then none else if j.header.outFree then some (.trap capacityTrap) else some (.fail St.lengthInvalid 0))
  else if j.dstSgl && j.desc.dst.toNat % 16 != 0 then some (.fail St.descInvalid 0xC000)
  else if j.dstSgl then
    (if w + n ≤ j.ports.dstWalk.total then none
     else if !j.ports.dstWalk.ended then some .wait
     else if j.header.outFree then some (.trap capacityTrap) else some (.fail St.lengthInvalid 0))
  else if j.header.outFree && decide (j.outLen < w + n) then some (.trap capacityTrap)
  else none

/-- Push bytes on so0 (R152 to R154, R156). -/
def Job.push0 (j : Job) (bytes : Bytes) : Pushed :=
  let kept := j.accepts bytes
  let all := j.ports.heldOut[0] ++ kept
  let out := all.take (all.length - j.holdLen)
  match j.room out.length with
  | some r => r
  | none =>
    .done { j with ports := { j.ports with
        pushed := j.ports.pushed.set 0 (j.ports.pushed[0] + kept.length)
        heldOut := j.ports.heldOut.set 0 (all.drop (all.length - j.holdLen)) } } out

/-- Push bytes on so1, the result area (R150, R156). -/
def Job.push1 (j : Job) (bytes : Bytes) : Pushed :=
  if !j.header.res then .trap unboundTrap
  else if j.header.resLen < j.ports.pushed[1] + bytes.length then .trap capacityTrap
  else .done { j with ports := { j.ports with pushed := j.ports.pushed.set 1 (j.ports.pushed[1] + bytes.length) } } bytes

/-- Push bytes on so q (R150, R155). -/
def Job.push (j : Job) (q : BitVec 2) (bytes : Bytes) : Pushed :=
  if q = 0 then (if j.ports.fin[0] then .trap unboundTrap else j.push0 bytes)
  else if q = 1 then (if j.ports.fin[1] then .trap unboundTrap else j.push1 bytes)
  else .trap unboundTrap

/-- What SO.FIN writes: the stolen order of R154, the unpadded final block, or nothing held; none where the padding check fails (R154, R155). -/
def Job.finBytes (j : Job) : Option Bytes :=
  let h := j.ports.heldOut[0]
  let b := j.header.block
  if j.unpads then (padLength j.desc.padMode b h).map (fun p => h.take (h.length - p))
  else if j.steals && decide (b < h.length) && (j.len % b != 0 || (j.header.cs3 && decide (2 * b ≤ j.len))) then
    some (h.drop b ++ (h.take b).take (if j.len % b = 0 then b else j.len % b))
  else some h

/-- SO.FIN on so0; a second one finds nothing held and changes nothing, since R155 refuses only a push after the first (DESIGN CHOICE, log 140). -/
def Job.fin0 (j : Job) : Pushed :=
  if j.ports.fin[0] then .done j []
  else match j.finBytes with
    | none => .trap (engineTrap St.padInvalid 0x12)
    | some out =>
      match j.room out.length with
      | some r => r
      | none => .done { j with ports := { j.ports with heldOut := j.ports.heldOut.set 0 [], fin := j.ports.fin.set 0 true } } out

/-- SO.FIN on so q (R155). -/
def Job.finish (j : Job) (q : BitVec 2) : Pushed :=
  if q = 0 then j.fin0
  else if q = 1 && j.header.res then .done { j with ports := { j.ports with fin := j.ports.fin.set 1 true } } []
  else .trap unboundTrap

/-- The pieces of a write over the buffers of a list, from an offset. -/
def sglPieces : List (Word × Nat) → Nat → Bytes → List (Word × Bytes)
  | [], _, _ => []
  | (a, n) :: bs, off, data =>
    if data = [] then []
    else if n ≤ off then sglPieces bs (off - n) data
    else (a + BitVec.ofNat 64 off, data.take (n - off)) :: sglPieces bs 0 (data.drop (n - off))

/-- Where bytes of an output port go: DST or its list, or the result area (R150). -/
def Job.pieces (j : Job) (q : BitVec 2) (data : Bytes) : List (Word × Bytes) :=
  if data = [] then []
  else if q = 1 then [(j.desc.arg + BitVec.ofNat 64 (j.header.resOff + j.ports.written[1]), data)]
  else if j.dstSgl then sglPieces j.ports.dstWalk.bufs j.ports.written[0] data
  else [(j.desc.dst + BitVec.ofNat 64 j.ports.written[0], data)]

/-- The mover writes bytes of an output port; they are remembered for the zeroing of R72. -/
def State.portWrite (s : State) (j : Job) (q : BitVec 2) (data : Bytes) : State :=
  let ps := if j.outCap.isSome then [] else j.pieces q data
  let i := if q = 1 then 1 else 0
  let s1 := ps.foldl (fun t p => t.hostWrite j.inst p.1 p.2) s
  (s1.modJob j.slot (fun x =>
    { j with
      st := x.st
      netOut := if j.outCap.isNone then j.netOut else if q = 1 then (j.netOut.1, j.netOut.2 ++ data) else (j.netOut.1 ++ data, j.netOut.2)
      ports := { j.ports with
        written := j.ports.written.set i (j.ports.written.toList.getD i 0 + data.length) (by simp only [i]; split <;> decide)
        dirtied := j.ports.dirtied ++ ps.map (fun p => (p.1, p.2.length)) } })).refill j.slot

/-- An output instruction: what it meets, then the bank it leaves (R152). -/
def soStep (l : LaneId) (uses : List VReg) (q : BitVec 2) (f : Job → Ctx → Pushed) (put : Job → Ctx → Ctx) (s : State) : State :=
  laneStep l true uses (fun s j c =>
    match f j c with
    | .wait => (s.readEntry j true, .wait)
    | .trap t => (s, .trap t)
    | .fail st d => (s, .fail st d)
    | .done j' out => (s.portWrite j' q out, .ok (put j c))) s

/-- SO_PUSH (R152). -/
def execSoPush (l : LaneId) (a : VReg) (n : BitVec 2) (s : State) : Host.Outcome State Fault Refusal :=
  ok (soStep l [a] n (fun j c => j.push n ((blkBytes (c.rv a)).take j.header.block)) (fun _ c => c) s)

/-- SO_PUSHG (R152). -/
def execSoPushg (l : LaneId) (a : GReg) (n : BitVec 2) (s : State) : Host.Outcome State Fault Refusal :=
  ok (soStep l [] n (fun j c => j.push n (leBytes 8 (c.rg a).toNat)) (fun _ c => c) s)

/-- The XOR of the next input block with vA, cut to the valid bytes in mode 0x04 (R152). -/
def stxOut (j : Job) (c : Ctx) (a : VReg) (bs : Bytes) : Bytes :=
  let x := padTo j.header.block bs
  let y := xorBytes x ((blkBytes (c.rv a)).take j.header.block)
  if j.desc.padMode = 4 then padTo j.header.block (y.take bs.length) else y

/-- STX.E and STX.D: the next input block XOR vA is pushed; vD takes the result or the input (R152). -/
def stxStep (l : LaneId) (d a : VReg) (n : BitVec 2) (decrypt : Bool) (s : State) : State :=
  laneStep l true [d, a] (fun s j c =>
    if 2 ≤ n.toNat then (s, .trap unboundTrap)
    else match j.pull n j.header.block with
      | .wait => (s, .wait)
      | .empty => (s, .trap emptyTrap)
      | .got bs =>
        match j.push n (stxOut j c a bs) with
        | .wait => (s.readEntry j true, .wait)
        | .trap t => (s, .trap t)
        | .fail st d => (s, .fail st d)
        | .done j' out =>
          let s1 := if n = 0 then s.countInst j.inst 10 bs.length else s
          (s1.portWrite (j'.advance n bs.length) n out, .ok (c.wv d (if decrypt then blkOf bs else blkOf (stxOut j c a bs))))) s

/-- STX_E (R152). -/
def execStxE (l : LaneId) (d a : VReg) (n : BitVec 2) (s : State) : Host.Outcome State Fault Refusal :=
  ok (stxStep l d a n false s)

/-- STX_D (R152). -/
def execStxD (l : LaneId) (d a : VReg) (n : BitVec 2) (s : State) : Host.Outcome State Fault Refusal :=
  ok (stxStep l d a n true s)

/-- SO_CNT (R152). -/
def execSoCnt (l : LaneId) (d : GReg) (n : BitVec 2) (s : State) : Host.Outcome State Fault Refusal :=
  ok (laneStep l true [] (fun s j c =>
    (s, if n = 0 then .ok (c.wg d (BitVec.ofNat 64 j.ports.pushed[0]))
        else if n = 1 && j.header.res then .ok (c.wg d (BitVec.ofNat 64 j.ports.pushed[1]))
        else .trap unboundTrap)) s)

/-- SO_FIN (R155). -/
def execSoFin (l : LaneId) (n : BitVec 2) (s : State) : Host.Outcome State Fault Refusal :=
  ok (soStep l [] n (fun j _ => j.finish n) (fun _ c => c) s)

/-- TAG of SO.TAG: the first gB bytes of vA, the rest zero; the spec gives no TAG for a length outside 1 to 16 (log 24). -/
def tagOf (v : Blk) (n : Nat) (open_ : Blk) : Blk := if 1 ≤ n ∧ n ≤ 16 then blkOf ((blkBytes v).take n) else open_

/-- SO_TAG (R152). -/
def execSoTag (l : LaneId) (n : BitVec 2) (a : VReg) (b : GReg) (s : State) : Host.Outcome State Fault Refusal :=
  ok (laneStep l true [a] (fun s j c =>
    if n = 0 || (n = 1 && j.header.res) then
      let k := (c.rg b).toNat
      let t := tagOf (c.rv a) k (Config.draw 128 s.free)
      let s1 := if 1 ≤ k ∧ k ≤ 16 then s else { s with free := s.free + 1 }
      (s1.modJob j.slot (fun x => { x with tag := t, tagValid := true }), .ok c)
    else (s, .trap unboundTrap)) s)

/-! ## The movers' reads (R55, R60, R477) -/

/-- DETAIL of a malformed scatter-gather entry (R71). -/
def sglDetail (dest : Bool) (index : Nat) : BitVec 16 := BitVec.ofNat 16 (0x8000 + (if dest then 0x4000 else 0) + index % 256)

/-- A list entry breaks R60. -/
def sglBad (w : SglWalk) (addr : Word) (len : Nat) (last chain rsv : Bool) : Bool :=
  rsv || (last && chain) || (!chain && len == 0) || (chain && len != 0) || (w.index == 255 && !last && !chain) ||
    (chain && (addr.toNat % 16 != 0 || w.segments == 65536))

/-- The walk after a well-formed entry (R59). -/
def SglWalk.next (w : SglWalk) (addr : Word) (len : Nat) (last chain : Bool) : SglWalk :=
  if chain then { w with index := 0, segments := w.segments + 1, seg := some addr, reading := false }
  else { w with reading := false, index := w.index + 1, bufs := w.bufs ++ [(addr, len)], ended := last }

/-- A destination list is read no further once the job has written its output: SO.FIN, or all of a fixed output (R60). -/
def Job.outDone (j : Job) : Bool :=
  j.ports.fin[0] || (!j.header.outFree && (j.desc.padMode == 4 || j.desc.padMode == 5) && decide (j.len ≤ j.ports.written[0]))

/-- The mover reads one list entry of a job (R60). -/
def State.sglRead (s : State) (j : Job) (dest : Bool) (index : Nat) (addr : Word) (len : Nat) (last chain rsv : Bool) : State :=
  let w := if dest then j.ports.dstWalk else j.ports.srcWalk
  if w.ended || index != w.index || (!dest && decide (j.len ≤ w.total)) || (dest && j.outDone) then s
  else if sglBad w addr len last chain rsv then s.endJob j.slot St.descInvalid (sglDetail dest w.index)
  else
    let w' := w.next addr len last chain
    if !dest && w'.ended && decide (w'.total < j.len) then s.endJob j.slot St.lengthInvalid 0
    else (s.modJob j.slot (fun x => { x with ports := if dest then { x.ports with dstWalk := w' } else { x.ports with srcWalk := w' } })).refill j.slot

/-- A failed host read is counted on its port (R481). -/
def State.readFailed (s : State) (i : Nat) (timeout : Bool) : State :=
  let p : Fin 2 := if i = 0 then s.inUse else if (s.inst i).elim false (fun x => x.port == 1) then 1 else 0
  s.modPort p (fun x => { x with errs := if timeout then (min (x.errs.1 + 1) 0xFFFF, x.errs.2) else (x.errs.1, min (x.errs.2 + 1) 0xFFFF) })

/-- HOST_READ_COMPLETION (R477). -/
def execHostReadCompletion (slot : Nat) (r : HostRead) (s : State) : Host.Outcome State Fault Refusal :=
  ok (match s.job slot with
      | none => s
      | some j =>
        if j.finished then s
        else match r with
          | .source bytes => s.modJob slot (fun x => { x with ports := { x.ports with src := x.ports.src ++ bytes.take (x.readLimit - x.ports.src.length) } })
          | .arg bytes => s.argArrived slot bytes
          | .sgl dest index addr len last chain rsv => s.sglRead j dest index addr len last chain rsv
          | .failed which timeout => (s.readFailed j.inst timeout).endJob slot St.accessFault (which.setWidth 16))

end Sys2Proof.Machine
end

