-- ==== Sys2Proof/Machine/Hash.lean ====
section
/-! DEFINITION. Hash contexts and engines: major 0x35 (R141, R157, R158, R161, R193 to R196). -/

namespace Sys2Proof.Machine

/-! ## Algorithms (Table 04-8, R193) -/

/-- A SHA-2 algorithm, HMAC included. -/
def isSha2 (alg : BitVec 8) : Bool := decide (1 ≤ alg.toNat ∧ alg.toNat ≤ 6) || decide (0x21 ≤ alg.toNat ∧ alg.toNat ≤ 0x26)

/-- The unkeyed algorithms HSH.INIT opens. -/
def unkeyed (alg : BitVec 8) : Bool :=
  decide (1 ≤ alg.toNat ∧ alg.toNat ≤ 6) || decide (0x11 ≤ alg.toNat ∧ alg.toNat ≤ 0x14) || alg == 0x18 || alg == 0x19 || alg == 0x40

/-- The keyed algorithms HSH.KINIT opens. -/
def keyed (alg : BitVec 8) : Bool := decide (0x21 ≤ alg.toNat ∧ alg.toNat ≤ 0x26) || alg == 0x2A || alg == 0x2B

/-- Digest length of a fixed-length algorithm, HMAC as its hash. -/
def digestLen (alg : BitVec 8) : Nat :=
  match (if 0x21 ≤ alg.toNat then alg.toNat - 0x20 else alg.toNat) with
  | 1 => 28 | 2 => 32 | 3 => 48 | 4 => 64 | 5 => 28 | 6 => 32
  | 0x11 => 28 | 0x12 => 32 | 0x13 => 48 | 0x14 => 64
  | _ => 0

/-- The rate of a Keccak algorithm, or the block of a SHA-2 algorithm, in bytes (Table 05-4). -/
def rateOf (alg : BitVec 8) : Nat :=
  match alg.toNat with
  | 0x18 | 0x2A => 168
  | 0x11 => 144
  | 0x13 => 104
  | 0x14 => 72
  | 0x01 | 0x02 | 0x21 | 0x22 => 64
  | 0x03 | 0x04 | 0x05 | 0x06 | 0x23 | 0x24 | 0x25 | 0x26 => 128
  | _ => 136

/-- Engine cycles of one permutation or compression (R193). -/
def stepCycles (alg : BitVec 8) : Nat := if isSha2 alg then (if rateOf alg = 64 then 40 else 50) else 2

/-- Cycles of absorbing n bytes after m: the blocks that fill (R193, R196; log 25). -/
def absorbCycles (alg : BitVec 8) (m n : Nat) : Nat := stepCycles alg * ((m + n) / rateOf alg - m / rateOf alg)

/-- Bytes of left_encode of SP 800-185. -/
def leftEncLen (x : Nat) : Nat := 2 + Nat.log2 x / 8

/-- Blocks of n bytes at a rate. -/
def blocksOf (n rate : Nat) : Nat := (n + rate - 1) / rate

/-- Permutations of KMAC's encoded customisation string and of its encoded key, each padded to the rate (R193, SP 800-185). -/
def kmacBlocks (rate key custom : Nat) : Nat :=
  blocksOf (2 + 6 + leftEncLen (8 * custom) + custom) rate + blocksOf (2 + leftEncLen (8 * key) + key) rate

/-- Compressions or permutations that finish a message of m bytes: SHA-2's padding and length may need a second block (R193, FIPS 180-4). -/
def finalBlocks (alg : BitVec 8) (m : Nat) : Nat :=
  if isSha2 alg then blocksOf (m % rateOf alg + 1 + rateOf alg / 8) (rateOf alg) else 1

/-- The output is continued by a further squeeze (Table 04-8). -/
def HashCtx.continues (h : HashCtx) : Bool := h.alg == 0x18 || h.alg == 0x19 || (isKmac h.alg && h.xof)

/-- Permutations or compressions of a squeeze of n bytes: the final blocks and the further output blocks, of an output that continues only what it adds; HMAC's inner and outer key blocks; KMAC's encoded strings, once where the output continues (R193; log 25). -/
def HashCtx.squeezeBlocks (h : HashCtx) (key n : Nat) : Nat :=
  let rate := rateOf h.alg
  let more := if isSha2 h.alg then 0 else blocksOf n rate - 1
  if h.continues && decide (0 < h.squeezed) then blocksOf (h.squeezed + n) rate - blocksOf h.squeezed rate
  else finalBlocks h.alg h.msg.length + more + (if isHmac h.alg then 2 else if isKmac h.alg then kmacBlocks rate key h.s.length else 0)

/-- The output of a context from its start, n bytes (R157). -/
def HashCtx.output (h : HashCtx) (key : Bytes) (n : Nat) : Bytes :=
  let code := h.alg.toNat
  if code = 0x18 ∨ code = 0x19 then Config.shake (code == 0x19) h.msg n
  else if code = 0x2A ∨ code = 0x2B then Config.kmac (code == 0x2B) key h.msg n h.s h.xof
  else if 0x21 ≤ code ∧ code ≤ 0x26 then Config.hmac (code - 0x20) key h.msg
  else Config.hash code h.msg

/-- The bytes of the next squeeze: the output continues where it may, else it is the digest (R157). -/
def HashCtx.squeeze (h : HashCtx) (key : Bytes) (n : Nat) : Bytes :=
  if h.continues then padTo n ((h.output key (h.squeezed + n)).drop h.squeezed)
  else padTo n (h.output key n)

/-- A squeeze length the algorithm allows (Table 04-8). -/
def HashCtx.allows (h : HashCtx) (n : Nat) : Bool :=
  if h.alg = 0x40 then decide (n ≤ 65536)
  else if h.alg = 0x18 ∨ h.alg = 0x19 then true
  else if isKmac h.alg then h.xof || h.fixed.all (· == n)
  else n == digestLen h.alg

/-! ## Dispatch of chunks (R195, R196) -/

/-- A chunk of a request: at most 64 KiB on a Keccak engine, 16 KiB on a SHA-2 engine; a squeeze is one chunk (R195). -/
def chunkLen (alg : BitVec 8) : HashReq → Nat
  | .absorb bytes _ _ => min bytes.length (if isSha2 alg then 16384 else 65536)
  | .squeeze _ n => n

/-- Cycles a chunk takes. -/
def HashCtx.chunkCycles (h : HashCtx) (key : Nat) (r : HashReq) : Nat :=
  match r with
  | .absorb _ _ _ => absorbCycles h.alg h.msg.length (chunkLen h.alg r)
  | .squeeze _ n => stepCycles h.alg * h.squeezeBlocks key n

/-- The key of a context. -/
def State.hashKey (s : State) (j : Job) (h : HashCtx) : Bytes :=
  match h.key with | some k => (s.keyValue j.bound k) | none => []

/-- A context with work for a kind of engine. -/
structure HashWork where
  slot : Nat
  ctx : Fin 4
  inst : Nat
  turn : Nat
  cycles : Nat
  req : HashReq
  h : HashCtx
deriving DecidableEq, Repr

/-- The contexts of a job with their numbers. -/
def Job.ctxs (j : Job) : List (Fin 4 × HashCtx) :=
  (List.finRange 4).filterMap (fun i => (j.hash[i]).map (fun h => (i, h)))

/-- The head request of a context, when it is open, its key loaded, and no engine serves it (R194, R195). -/
def State.workOf (s : State) (sha : Bool) (j : Job) (e : Fin 4 × HashCtx) : Option HashWork :=
  match e.2.reqs with
  | [] => none
  | r :: _ =>
    if e.2.loaded && isSha2 e.2.alg == sha && e.2.alg != 0x40 && !(s.engines.chunk.any (fun c => match c with | some (a, b, _) => a == j.slot && b == e.1 | none => false)) then
      some { slot := j.slot, ctx := e.1, inst := j.inst, turn := e.2.turn, cycles := e.2.chunkCycles (s.hashKey j e.2).length r, req := r, h := e.2 }
    else none

/-- Hash credit of an instance, of a kind. -/
def State.hashCredit (s : State) (sha : Bool) (i : Nat) : Int := (tget (if sha then s.engines.shaCredit else s.engines.keccakCredit) i).getD 0

/-- One wait comes before another: it began earlier, then R26 by instance ID (R27, R196). -/
def State.waitBefore (s : State) (ta ia tb ib : Nat) : Bool :=
  let rot (i : Nat) := (i + 1024 - s.frame.num % 1024) % 1024
  decide (ta < tb) || (ta == tb && decide (rot ia ≤ rot ib))

/-- The eligible chunks, the longest wait first, then R26 by instance ID (R196). -/
def State.hashWork (s : State) (sha : Bool) : List HashWork :=
  let ws := (s.jobs.filter (fun j => !j.finished)).flatMap (fun j => j.ctxs.filterMap (s.workOf sha j))
  sortBy (fun a b => s.waitBefore a.turn a.inst b.turn b.inst) (ws.filter (fun w => decide (0 < s.hashCredit sha w.inst)))

/-- Idle engines of a kind, in R26 order (R195). -/
def State.hashIdle (s : State) (sha : Bool) : List (Fin 16) :=
  let ns := if sha then (rotated 8 s.frame.num).map (· + 8) else rotated 6 s.frame.num
  ns.filterMap (fun n => if h : n < 16 then
      (if (s.engines.chunk[n]).isNone && !s.fenced (elemOf (if sha then .sha2 else .keccak) n) && !s.shut (hashDomain n) then some ⟨n, h⟩ else none)
    else none)

/-- A context used becomes the most recent of the 1,024 in the cache (R194). -/
def cacheContext (cache : List (Nat × Fin 4)) (k : Nat × Fin 4) : List (Nat × Fin 4) :=
  let rest := cache.filter (fun x => x != k)
  rest.drop (rest.length + 1 - 1024) ++ [k]

/-- Give a chunk to an engine and charge its cycles (R196). -/
def State.startChunk (s : State) (sha : Bool) (w : HashWork) (e : Fin 16) : State :=
  let n := w.cycles
  let g := s.engines
  let s1 := { s with
    engines := { g with
      chunk := g.chunk.set e.val (some (w.slot, w.ctx, chunkLen w.h.alg w.req)) e.isLt
      chunkAt := g.chunkAt.set e.val s.frame.num e.isLt
      ctxCache := cacheContext g.ctxCache (w.slot, w.ctx)
      shaCredit := if sha then tset g.shaCredit w.inst (s.hashCredit true w.inst - n) else g.shaCredit
      keccakCredit := if sha then g.keccakCredit else tset g.keccakCredit w.inst (s.hashCredit false w.inst - n) } }
  ((s1.countInst w.inst 8 n).countGlob (if sha then 34 + e.val else 36 + e.val) n).work w.inst (fun f => { f with hash := f.hash + (if sha then 3 else 4) * n })

/-- Start the first eligible chunk on the first idle engine. -/
def State.startOne (s : State) (sha : Bool) : State :=
  match s.hashWork sha, s.hashIdle sha with
  | w :: _, e :: _ => s.startChunk sha w e
  | _, _ => s

/-- Start chunks while engines of the kind are idle: eight engines at most. -/
def State.dispatchHash (s : State) : State :=
  let s1 := (List.range 6).foldl (fun t _ => t.startOne false) s
  (List.range 8).foldl (fun t _ => t.startOne true) s1

/-! ## Dispatch of DRBG squeezes (R201 to R203) -/

/-- Entropy sources in service (R198, R199). -/
def State.healthySources (s : State) : Nat := ((List.range 4).filter (fun n => !s.fenced (elemOf .entropy n))).length

/-- Change a DRBG instance. -/
def State.modDrbg (s : State) (i : Fin 8) (f : Drbg → Drbg) : State :=
  { s with engines := { s.engines with drbg := s.engines.drbg.set i.val (f s.engines.drbg[i]) i.isLt } }

/-- Work of an instance from a seed: a reseed, or where it has none an instantiation with the one byte of its number (R201). -/
def Drbg.seeded (d : Drbg) (i : Fin 8) (seed : BitVec 384) : BitVec 384 :=
  match d.work with
  | some w => Config.drbgReseed w seed
  | none => Config.drbgInstantiate seed [BitVec.ofNat 8 i.val]

/-- Reseed an instance from the pool: a seed is used, the counts restart; none where the pool is empty (R201). -/
def State.reseed (s : State) (i : Fin 8) : Option State :=
  match s.engines.pool with
  | [] => none
  | seed :: rest =>
    let s1 := { s with engines := { s.engines with pool := rest } }
    some (s1.modDrbg i (fun d => { d with work := some (d.seeded i seed), calls := 0, reseededAt := s.frame.num, stopped := false }))

/-- A DRBG squeeze waiting for an instance. -/
structure DrbgWork where
  slot : Nat
  ctx : Fin 4
  inst : Nat
  turn : Nat
  pr : Bool
  len : Nat
deriving DecidableEq, Repr

/-- DRBG credit of an instance in bytes (R203). -/
def State.drbgCredit (s : State) (i : Nat) : Int := (tget s.engines.drbgCredit i).getD 0

/-- The head squeeze of a DRBG context that no DRBG instance serves (R202). -/
def State.drbgOf (s : State) (j : Job) (e : Fin 4 × HashCtx) : Option DrbgWork :=
  match e.2.reqs with
  | .squeeze _ n :: _ =>
    if e.2.alg == 0x40 && !(s.engines.drbg.any (fun d => d.busy == some (j.slot, e.1))) then
      some { slot := j.slot, ctx := e.1, inst := j.inst, turn := e.2.turn, pr := e.2.pr, len := n }
    else none
  | _ => none

/-- Squeezes that may start: the instance holds credit, a prediction-resistance call finds a seed; arrival order, then R26 (R202, R203). -/
def State.drbgWork (s : State) : List DrbgWork :=
  let ws := (s.jobs.filter (fun j => !j.finished)).flatMap (fun j => j.ctxs.filterMap (s.drbgOf j))
  sortBy (fun a b => s.waitBefore a.turn a.inst b.turn b.inst) (ws.filter (fun w => decide (0 < s.drbgCredit w.inst) && (!w.pr || !s.engines.pool.isEmpty)))

/-- DRBG instances free to serve, in R26 order over their numbers (R202; the order among idle instances DEDUCED, log 27). -/
def State.drbgIdle (s : State) : List (Fin 8) :=
  (rotated 8 s.frame.num).filterMap (fun n => if h : n < 8 then
    (let d := s.engines.drbg[n]
     if d.busy.isNone && d.work.isSome && !d.stopped && !s.fenced (elemOf .drbg n) then some ⟨n, h⟩ else none)
    else none)

/-- Charge a call of n bytes before it starts (R203). -/
def State.chargeDrbg (s : State) (inst : Nat) (n : Nat) : State :=
  (({ s with engines := { s.engines with drbgCredit := tset s.engines.drbgCredit inst (s.drbgCredit inst - n) } }).countInst inst 9 n).work inst (fun f => { f with drbg := f.drbg + n })

/-- Start a squeeze on an instance: with prediction resistance it reseeds first (R202). -/
def State.startSqueeze (s : State) (w : DrbgWork) (i : Fin 8) : State :=
  let s1 := if w.pr then (s.reseed i).getD s else s
  (s1.modDrbg i (fun d => { d with busy := some (w.slot, w.ctx), done := 0, held := false, since := s.frame.num })).chargeDrbg w.inst (min 4096 w.len)

/-- Start the first squeeze on the first free instance. -/
def State.startDrbg (s : State) : State :=
  match s.drbgWork, s.drbgIdle with
  | w :: _, i :: _ => s.startSqueeze w i
  | _, _ => s

/-- The next call of the squeeze an instance serves starts once the instance may generate and the job's instance holds credit (R203, R204). -/
def State.nextCall (s : State) (i : Fin 8) : State :=
  let d := s.engines.drbg[i]
  match d.busy with
  | some (slot, k) =>
    (match (s.job slot).bind (fun j => (j.hash[k]).map (fun h => (j.inst, h))) with
     | some (inst, h) =>
       (match h.reqs with
        | .squeeze _ len :: _ =>
          if d.held && !d.stopped && decide (0 < s.drbgCredit inst) then
            (s.modDrbg i (fun d => { d with held := false })).chargeDrbg inst (min 4096 (len - d.done))
          else s
        | _ => s)
     | none => s)
  | none => s

/-- Calls held go on and squeezes start while instances are free. -/
def State.dispatchDrbg (s : State) : State :=
  (List.range 8).foldl (fun t _ => t.startDrbg) ((List.finRange 8).foldl State.nextCall s)

/-! ## The instructions (R157, R158, R161) -/

/-- The refusal of Table 04-1 for hash instructions. -/
def hashTrap : Trap := engineTrap St.accessFault 0x20

/-- The context number of a register value, where the context is open. -/
def Job.openCtx (j : Job) (w : Word) : Option (Fin 4 × HashCtx) :=
  if h : w.toNat < 4 then (j.hash[w.toNat]).map (fun x => (⟨w.toNat, h⟩, x)) else none

/-- Change a context. -/
def Job.setHash (j : Job) (i : Fin 4) (h : Option HashCtx) : Job := { j with hash := j.hash.set i.val h i.isLt }

/-- The lowest context not open: the number HSH.INIT returns (DEDUCED, log 26). -/
def Job.freeCtx (j : Job) : Option (Fin 4) := (List.finRange 4).find? (fun i => (j.hash[i]).isNone)

/-- Open a context with the algorithm and flags of gA (R157). -/
def openHash (sel : Word) (key : Option Handle) (loaded : Bool) : HashCtx :=
  { alg := sel.setWidth 8, custom := sel.getLsbD 8, xof := sel.getLsbD 9, pr := sel.getLsbD 10, key := key, loaded := loaded,
    wantS := sel.getLsbD 8 && isKmac (sel.setWidth 8) }

/-- HSH_INIT (R157). -/
def execHshInit (l : LaneId) (d a : GReg) (s : State) : Host.Outcome State Fault Refusal :=
  ok (laneStep l true [] (fun s j c =>
    match j.freeCtx with
    | none => (s, .trap hashTrap)
    | some i =>
      if !unkeyed ((c.rg a).setWidth 8) then (s, .trap hashTrap)
      else (s.modJob j.slot (fun x => x.setHash i (some (openHash (c.rg a) none true))), .ok (c.wg d (BitVec.ofNat 64 i.val)))) s)

/-- The key of HSH.KINIT: its type is the algorithm's and its usage permits a MAC, or DERIVE for a KMAC key (R157, Table 07-6). -/
def hashPermitted (alg : BitVec 8) (n : Node) : Bool :=
  n.ktype == alg && (n.may uMacGen || n.may uMacVer || (isKmac alg && n.may uDerive))

/-- HSH_KINIT (R194). -/
def execHshKinit (l : LaneId) (d a : GReg) (k : KReg) (s : State) : Host.Outcome State Fault Refusal :=
  ok (laneStep l true [] (fun s j c =>
    match c.rk k with
    | none => (s, .trap { cause := 0x0B })
    | some h =>
      match j.freeCtx with
      | none => (s, .trap hashTrap)
      | some i =>
        let alg : BitVec 8 := (c.rg a).setWidth 8
        if !keyed alg then (s, .trap hashTrap)
        else match s.keyNode j.bound h with
          | none => (s, .trap (keyTrap St.keyAttrDenied 0x01 h))
          | some n =>
            if !hashPermitted alg n then (s, .trap (keyTrap St.keyAttrDenied 0x01 h))
            else
              let here := n.origin != .derived || s.cutHit j.hollow (hInst h) (hNode h) j.bound
              (s.modJob j.slot (fun x => x.setHash i (some { openHash (c.rg a) (some h) here with openedAt := s.frame.num })), .ok (c.wg d (BitVec.ofNat 64 i.val)))) s)

/-- The trap of a pointer used for a window range: fields that must be zero, then the kernel half at U (R97). -/
def Ctx.ptrTrap (c : Ctx) (write : Bool) (p : Word) (n : Nat) : Option Trap :=
  let t (cause : BitVec 8) : Trap := { cause := cause, kind := some (fsynKind (if write then .write else .read) false), faddr := some p }
  if n = 0 then none
  else if !(ptrOk p) then some (t 0x04)
  else if c.level = .u && ptrK p then some (t 0x06)
  else none

/-- What the check of a window range named by an engine instruction finds: none, or the failed part and its CAUSE. A range beyond the window bound reports CAUSE 4, range: Table 09-8 lists no window bound (R104, R141, R345, R346; DESIGN CHOICE, log 136). -/
def rangeRefused (c : Ctx) (p : Word) (n : Nat) : Option (Refused × Nat) :=
  if n = 0 then none
  else if !(inWin (ptrVa p)) || decide (c.winSize < ptrVa p - winBase + n) then some ({ cause := 4 }, 0)
  else
    (((parts (ptrVa p - winBase) n).zipIdx.find? (fun (b, _) => c.colourAt b != ptrColour p))).map
      (fun (b, k) => ({ cause := 8, expected := ptrColour p, found := c.colourAt b }, k))

/-- Report a refused range of an engine instruction (R348); master and address are the lane's own. -/
def State.rangeReport (s : State) (l : LaneId) (j : Job) (c : Ctx) (write : Bool) (p : Word) (n : Nat) (r : Refused × Nat) : State :=
  let a := laneAcc l (s.lane l) j c (if write then .write else .read) none
  let at_ := (parts (ptrVa p - winBase) n).getD r.2 0
  s.violate (a.report_ s.frame.num 2 (localAddr l (c.winAt + at_)) n r.2 r.1) none

/-- The status of a failed access of a hash request to the window: DETAIL 0x8000 (R71, R349). -/
def rangeStatus (r : Refused × Nat) : BitVec 7 := if r.1.cause = 8 then St.colourMismatch else St.accessFault

/-- A context begins to wait: the frame, and its place among all waits begun (R196). -/
def HashCtx.waits (h : HashCtx) (s : State) : HashCtx := { h with since := s.frame.num, turn := s.engines.waits }

/-- One more wait has begun. -/
def State.bumpWaits (s : State) : State := { s with engines := { s.engines with waits := s.engines.waits + 1 } }

/-- Length of a squeeze. -/
def HashReq.squeezeLen : HashReq → Option Nat
  | .squeeze _ n => some n
  | .absorb _ _ _ => none

/-- Queue a request on a context, which begins to wait; its first squeeze is noted (R157, R158, R196). -/
def HashCtx.queue (h : HashCtx) (r : HashReq) (s : State) : HashCtx :=
  let h1 := if h.reqs = [] then h.waits s else h
  { h1 with reqs := h.reqs ++ [r], fixed := h.fixed.or r.squeezeLen }

/-- Let the engines of an algorithm start what waits. -/
def State.dispatchEngines (s : State) (alg : BitVec 8) : State := if alg = 0x40 then s.dispatchDrbg else s.dispatchHash

/-- Queue a request of an instruction and let the engines start. -/
def State.queueHash (s : State) (j : Job) (i : Fin 4) (h : HashCtx) (r : HashReq) : State :=
  (s.modJob j.slot (fun x => x.setHash i (some (h.queue r s)))).bumpWaits.dispatchEngines h.alg

/-- Absorbed bytes of a DRBG context are additional input, taken at once, or behind the squeezes issued before (R202). -/
def State.absorb (s : State) (j : Job) (i : Fin 4) (h : HashCtx) (bytes : Bytes) (off n : Nat) : State :=
  if h.alg = 0x40 ∧ h.reqs = [] then s.modJob j.slot (fun x => x.setHash i (some { h with msg := h.msg ++ bytes }))
  else s.queueHash j i h (.absorb bytes off n)

/-- HSH_ABS (R158). -/
def execHshAbs (l : LaneId) (d a b : GReg) (s : State) : Host.Outcome State Fault Refusal :=
  ok (laneStep l true [] (fun s j c =>
    match j.openCtx (c.rg d) with
    | none => (s, .trap hashTrap)
    | some (i, h) =>
      let p := c.rg a
      let n := (c.rg b).toNat
      match c.ptrTrap false p n, rangeRefused c p n with
      | some t, _ => (s, .trap t)
      | none, some r => (s.rangeReport l j c false p n r, .fail (rangeStatus r) 0x8000)
      | none, none =>
        let off := ptrVa p - winBase
        if j.busyAt off n then (s, .wait)
        else (s.absorb j i h (Memory.readBytes c.window off n) off n, .ok c)) s)

/-- HSH_ABSP (R158). -/
def execHshAbsp (l : LaneId) (d a b : GReg) (s : State) : Host.Outcome State Fault Refusal :=
  ok (laneStep l true [] (fun s j c =>
    match j.openCtx (c.rg d) with
    | none => (s, .trap hashTrap)
    | some (i, h) =>
      let p : BitVec 2 := (c.rg a).setWidth 2
      let n := (c.rg b).toNat
      if n = 0 then (s.absorb j i h [] 0 0, .ok c)
      else if j.remains p < n then (s, .trap emptyTrap)
      else match j.pull p n with
        | .wait => (s, .wait)
        | .empty => (s, .trap emptyTrap)
        | .got bs =>
          let s1 := s.pulled j p bs.length
          (s1.absorb j i h bs 0 0, .ok c)) s)

/-- HSH_SQZ (R158). -/
def execHshSqz (l : LaneId) (d a b : GReg) (s : State) : Host.Outcome State Fault Refusal :=
  ok (laneStep l true [] (fun s j c =>
    match j.openCtx (c.rg d) with
    | none => (s, .trap hashTrap)
    | some (i, h) =>
      let p := c.rg a
      let n := (c.rg b).toNat
      if !h.allows n then (s, .trap hashTrap)
      else match c.ptrTrap true p n, rangeRefused c p n with
        | some t, _ => (s, .trap t)
        | none, some r => (s.rangeReport l j c true p n r, .fail (rangeStatus r) 0x8000)
        | none, none =>
          let off := ptrVa p - winBase
          if j.busyAt off n then (s, .wait)
          else (s.queueHash j i h (.squeeze off n), .ok c)) s)

/-- HSH_WAIT (R161). -/
def execHshWait (l : LaneId) (a : GReg) (s : State) : Host.Outcome State Fault Refusal :=
  ok (ctlStep l (fun s j c =>
    match j.openCtx (c.rg a) with
    | none => s.takeTrap l c hashTrap c.pc
    | some (i, h) =>
      if h.reqs = [] then s.retire l true c.pc { c with pc := c.pc + 4 }
      else s.endSlice l (.waiting (.hash i))) s)

/-- HSH.FREE closes the context at once, outstanding requests included; the spec does not say what becomes of them (R158; DESIGN CHOICE, log 137). -/
def Job.closeCtx (j : Job) (i : Fin 4) : Job := j.setHash i none

/-- HSH_FREE (R158). -/
def execHshFree (l : LaneId) (a : GReg) (s : State) : Host.Outcome State Fault Refusal :=
  ok (laneStep l true [] (fun s j c =>
    match j.openCtx (c.rg a) with
    | none => (s, .trap hashTrap)
    | some (i, _) =>
      ({ s.modJob j.slot (fun x => x.closeCtx i) with
          engines := { s.engines with chunk := s.engines.chunk.map (fun q => match q with
            | some (x, y, m) => if x = j.slot ∧ y = i then none else some (x, y, m) | none => none) } }, .ok c)) s)

/-! ## Chunks done (R195, R161) -/

/-- Absorb a chunk: the customisation string first where it is due (R157). -/
def HashCtx.take (h : HashCtx) (bytes : Bytes) : HashCtx := if h.wantS then { h with s := h.s ++ bytes } else { h with msg := h.msg ++ bytes }

/-- The head request of a context is complete. -/
def HashCtx.pop (h : HashCtx) (s : State) : HashCtx := { h.waits s with reqs := h.reqs.drop 1, wantS := false }

/-- Absorbs at the head of a DRBG context are additional input of its next squeeze (R202). -/
def takeExtra (msg : Bytes) : List HashReq → Bytes × List HashReq
  | .absorb bytes _ _ :: rs => takeExtra (msg ++ bytes) rs
  | rs => (msg, rs)

/-- A job waiting for a context whose requests are done becomes RUNNABLE (R161). -/
def State.signalHash (s : State) (slot : Nat) (i : Fin 4) : State :=
  s.modJob slot (fun j => match j.hash[i] with
    | some h => if h.reqs = [] ∧ j.st = .waiting (.hash i) then { j with st := .runnable } else j
    | none => j)

/-- A chunk of n bytes of a context is done (R195). -/
def State.chunkDone (s : State) (slot : Nat) (i : Fin 4) (n : Nat) : State :=
  match s.job slot with
  | none => s
  | some j =>
    match j.hash[i] with
    | none => s
    | some h =>
      match h.reqs with
      | [] => s
      | .absorb bytes off len :: rs =>
        let h1 := h.take (bytes.take n)
        let h2 := if bytes.length ≤ n then h1.pop s else { h1.waits s with reqs := .absorb (bytes.drop n) off len :: rs }
        (s.bumpWaits.modJob slot (fun x => x.setHash i (some h2))).signalHash slot i
      | .squeeze off m :: _ =>
        let out := h.squeeze (s.hashKey j h) m
        let h1 := { h.pop s with squeezed := h.squeezed + m }
        ((s.bumpWaits.modCtx slot (fun c => { c with window := Memory.writeBytes c.window off out })).modJob slot
          (fun x => x.setHash i (some h1))).signalHash slot i

/-- HASH_CHUNK_DONE (R195). -/
def execHashChunkDone (engine : Fin 16) (s : State) : Host.Outcome State Fault Refusal :=
  ok (match s.engines.chunk[engine] with
      | none => s
      | some (slot, i, n) =>
        let s1 := { s with engines := { s.engines with chunk := s.engines.chunk.set engine.val none engine.isLt } }
        (s1.chunkDone slot i n).dispatchHash)

/-! ## A derivation ends (R194, R250, R278) -/

/-- DERIVATION_DONE (R250). -/
def execDerivationDone (hollow : Bool) (inst node version : Nat) (s : State) : Host.Outcome State Fault Refusal :=
  ok (match s.nodeAt inst node version with
      | none => s
      | some n =>
        let bound := [(node, version)]
        let e : CutEntry := { hollow := hollow, inst := inst, node := node, level := n.level, versions := s.pathVersions inst bound node,
                              reachable := true, value := s.keyAlong inst bound (s.path inst node) }
        let s1 := { s with quarry := { s.quarry with cut := cutInsert s.quarry.cut e } }
        (s1.loadContexts hollow inst node version).dispatchHash)

end Sys2Proof.Machine
end

