-- ==== Sys2Proof/Machine/KeyMake.lean ====
section
/-! DEFINITION. Making nodes: key-creation records, their checks, reserving an index, the node a creation gives, draws of the unit itself (R226, R251, R252, R258 to R260). -/

namespace Sys2Proof.Machine

/-! ## Draws of the unit (R201) -/

/-- The unit draws n random bytes; the DRBG instance that serves is left open and counts them (R201, Table 12-5; log 28). -/
def State.takeRandom (s : State) (n : Nat) : Bytes × State :=
  let i := (Config.draw 3 s.free).toNat
  let r := ({ s with free := s.free + 1 }).takeBytes n
  (r.1, r.2.countGlob (50 + i) n)

/-! ## Key-creation records (R260) -/

/-- A key-creation record read from 64 bytes (Table 07-8A). -/
def parseCreation (b : Bytes) : Creation :=
  let f (o n : Nat) : Nat := leNat ((b.drop o).take n)
  let len := f 9 1
  { parent := BitVec.ofNat 64 (f 0 8), ktype := BitVec.ofNat 8 (f 8 1), labelLen := len, usage := BitVec.ofNat 16 (f 10 2),
    policy := BitVec.ofNat 16 (f 12 2), uses := f 16 5, bind := f 24 1, label := (b.drop 32).take (min len 32),
    rsv := f 14 2 != 0 || f 21 3 != 0 || f 25 7 != 0 || ((b.drop (32 + len)).take (32 - len)).any (· != 0) || f 10 2 / 8192 != 0 }

/-- The 64 bytes of a key-creation record (Table 07-8A). -/
def creationBytes (r : Creation) : Bytes :=
  leBytes 8 r.parent.toNat ++ leBytes 1 r.ktype.toNat ++ leBytes 1 r.labelLen ++ leBytes 2 r.usage.toNat ++ leBytes 2 r.policy.toNat ++ zeros 2 ++
  leBytes 5 r.uses ++ zeros 3 ++ leBytes 1 r.bind ++ zeros 7 ++ padTo 32 r.label

/-- A malformed record (R260). -/
def State.badCreation (s : State) (inst : Nat) (r : Creation) : Bool :=
  let inv := (r.policy.extractLsb' 8 6).toNat
  r.rsv || decide (32 < r.labelLen) || !typeKnown r.ktype || (decide (0 < inv) && decide (inv < 16)) || r.policy.getLsbD 15 ||
    (r.bind != 0 && (((s.inst inst).map (·.binds)).bind (fun t => tget t r.bind)).isNone)

/-- The parent's check: Table 07-8, and it must be ACTIVE or EXHAUSTED (R260). -/
def State.parentRefused (s : State) (inst : Nat) (h : Handle) : Option (BitVec 7) :=
  s.checkHandle inst h

/-- What refuses a creation, in the order of R260; extra slots are those beyond the first. -/
def State.creationRefused (s : State) (inst : Nat) (r : Creation) (slots : Nat) : Option (BitVec 7) :=
  if s.badCreation inst r then some St.descInvalid
  else match s.parentRefused inst r.parent with
    | some st => some st
    | none =>
      match s.node (hInst r.parent) (hNode r.parent) with
      | none => some St.keyUnknown
      | some p =>
        if !(p.may uDerive) || decide (11 ≤ p.level) || (r.usage.getLsbD uDerive && !derivable r.ktype) then some St.keyAttrDenied
        else if !s.slotRoom inst slots then some St.quota
        else none

/-- The node of a creation (R254, R260): USE_LIM follows USES; under the session root EXP_URESET is set (R251). -/
def State.nodeOf (s : State) (inst : Nat) (r : Creation) (origin : Origin) (material pub : Bytes) : Node :=
  let p := s.node inst (hNode r.parent)
  let pol := (r.policy &&& 0x3FFF) ||| (if r.uses = 0 then 0 else 0x4000) ||| (if s.quarry.l2.isNone then 0x0020 else 0)
  let gen := (s.dirOf inst (s.freeIndex inst)).lastGen + 1
  { labelDig := labelDigest r.label, parent := hNode r.parent, level := (p.elim 3 (·.level)) + 1, origin := origin, ktype := r.ktype,
    state := .active, allocGen := gen, gen := gen, usage := r.usage, policy := pol, useCnt := r.uses, bind := r.bind, invBlk := 0,
    useBlk := 0, ext := slotsOf material - 1, created := 0, material := material, pub := pub }

/-- Allocate the lowest free index for a node, PENDING until its commit; its slots are charged (R252, R253, R277). -/
def State.reserveNode (s : State) (inst : Nat) (n : Node) : Nat × State :=
  let i := s.freeIndex inst
  let s1 := s.modDir inst i (fun e => { e with state := .allocated, lastGen := n.gen, node := some { n with state := .pending } })
  (i, s1.chargeSlots inst (slotsOf n.material))

/-- Give back an index reserved for a node that is not created. -/
def State.unreserve (s : State) (inst idx : Nat) : State :=
  match s.node inst idx with
  | some n =>
    if n.state = .pending then
      (s.modDir inst idx (fun e => { e with state := if 4094 ≤ e.lastGen then .dead else .free, node := none })).chargeSlots inst (-(slotsOf n.material : Int))
    else s
  | none => s

/-- The handle of a node in an instance (R252). -/
def State.handleOf (s : State) (inst idx : Nat) : Handle :=
  match s.node inst idx with
  | some n => mkHandle inst idx n.gen n.ktype
  | none => 0

/-- Stored material of a symmetric key: zero-filled to 64 bytes (Table 07-7). -/
def symMaterial (t : BitVec 8) (key : Bytes) : Bytes := padTo 64 (valueOf t key)

end Sys2Proof.Machine
end

