-- ==== Sys2Proof/Machine/PkeMath.lean ====
section
/-! DEFINITION. The arithmetic of the public-key operations: modular, RSA, Weierstrass, Edwards and Montgomery curves in full; of the lattice and hash-based schemes the checks of Table 06-6 (R222 to R224, R227, R231 to R233, R259). -/

namespace Sys2Proof.Config

/-- The label under which SHAKE256 derives randomness of an operation for a purpose: the spec says that it names both, not how (R227; free value, log 9). -/
opaque pkeLabel (op : BitVec 16) (purpose : Nat) : Bytes

/-- The two primes of an RSA key of so many bits for an exponent, from 64 random bytes; none at the candidate limit (R227, R231; log 8). -/
opaque rsaPrimes (bits e : Nat) (seed : Bytes) : Option (Nat × Nat)

/-- The nonce of an ECDSA signature at an attempt: hedged with a seed, or by RFC 6979 under the hash of a code (R224, R227, R232; log 8). -/
opaque ecNonce (set : Nat) (hash : Option Nat) (scalar : Nat) (digest seed : Bytes) (attempt : Nat) : Nat

/-- The scalar of a generated key, from 64 random bytes (R227; log 8). -/
opaque ecScalar (set : Nat) (seed : Bytes) : Nat

/-- A message too long for its RSA encoding ends with OPERAND_RANGE, otherwise with LENGTH_INVALID: the spec states neither (R232; free value, log 9). -/
opaque tooLongIsRange (op : BitVec 16) : Bool

/-- The encapsulation key of ML-KEM from d and z (R223; log 8). -/
opaque kemPublic (set : Nat) (d z : Bytes) : Bytes

/-- ML-KEM encapsulation with m: ciphertext and shared secret (R223; log 8). -/
opaque kemEncaps (set : Nat) (ek m : Bytes) : Bytes × Bytes

/-- ML-KEM decapsulation with d and z, the implicit-rejection secret where re-encryption fails (R223, R232; log 8). -/
opaque kemDecaps (set : Nat) (d z ct : Bytes) : Bytes

/-- The public key of ML-DSA from its seed (R223; log 8). -/
opaque dsaPublic (set : Nat) (seed : Bytes) : Bytes

/-- An ML-DSA signature: seed, prehash code, context, message, rnd; none at the iteration limit (R223, R231; log 8). -/
opaque dsaSign (set : Nat) (seed : Bytes) (prehash : Nat) (context message rnd : Bytes) : Option Bytes

/-- ML-DSA verification: public key, prehash code, context, message, signature (R223; log 8). -/
opaque dsaVerify (set : Nat) (pub : Bytes) (prehash : Nat) (context message sig : Bytes) : Bool

/-- The root of an XMSS tree from SK_SEED and PUB_SEED (R223; log 8). -/
opaque xmssRoot (skSeed pubSeed : Bytes) : Bytes

/-- The traversal state of a new XMSS key (R259; log 8). -/
opaque xmssState (skSeed pubSeed : Bytes) : Bytes

/-- An XMSS signature of a leaf: stored key, leaf index, message (R223, R228; log 8). -/
opaque xmssSign (form : Bytes) (leaf : Nat) (message : Bytes) : Bytes

/-- XMSS verification: parameter set, public key, message, signature (R223; log 8). -/
opaque xmssVerify (set : Nat) (pub message sig : Bytes) : Bool

/-- SLH-DSA verification: parameter set, public key, prehash code, context, message, signature (R223; log 8). -/
opaque slhVerify (set : Nat) (pub : Bytes) (prehash : Nat) (context message sig : Bytes) : Bool

end Sys2Proof.Config

namespace Sys2Proof.Machine

/-- OP [15:8]. -/
def opFam (op : BitVec 16) : Nat := op.toNat / 256
/-- OP [7:4]. -/
def opKind (op : BitVec 16) : Nat := op.toNat / 16 % 16
/-- OP [3:0]. -/
def opSet (op : BitVec 16) : Nat := op.toNat % 16

/-- Byte length of a Weierstrass parameter set. -/
def curveLen (set : Nat) : Nat := match set with | 1 | 4 => 32 | 2 | 5 => 48 | 3 => 66 | _ => 64

/-- ML-KEM encapsulation key and ciphertext lengths. -/
def kemLens (set : Nat) : Nat × Nat := match set with | 1 => (800, 768) | 2 => (1184, 1088) | _ => (1568, 1568)

/-- ML-DSA public key and signature lengths. -/
def dsaLens (set : Nat) : Nat × Nat := match set with | 1 => (1312, 2420) | 2 => (1952, 3309) | _ => (2592, 4627)

/-- Bytes of an Edwards public key and of a Montgomery one. -/
def edLens (set : Nat) : Nat × Nat := if set = 1 then (32, 32) else (57, 56)

/-! ## Results -/

/-- A status without a result. -/
def noOut (st : BitVec 7) : Config.PkeOut := { status := st, outs := [], secret := none }

/-- Outputs with status OK. -/
def outs (os : List Bytes) : Config.PkeOut := { status := St.ok, outs := os, secret := none }

/-- The verdict of a verification. -/
def verdict (good : Bool) : Config.PkeOut := noOut (if good then St.ok else St.authFail)

/-- n bytes that a seed gives for a purpose of an operation: SHAKE256 of the seed and the label (R227). -/
def pkeRandom (op : BitVec 16) (purpose : Nat) (seed : Option Bytes) (n : Nat) : Bytes :=
  Config.shake true (seed.getD [] ++ Config.pkeLabel op purpose) n

/-! ## Numbers -/

/-- Bits of a number. -/
def bitLen (n : Nat) : Nat := match n with | 0 => 0 | n => Nat.log2 n + 1

/-- b^e mod m by the bits of e, lowest first: k bits of the exponent. -/
def powMod (m : Nat) : Nat → Nat → Nat → Nat → Nat
  | 0, _, _, acc => acc % m
  | k + 1, b, e, acc => powMod m k (b * b % m) (e / 2) (if e % 2 = 1 then acc * b % m else acc)

/-- b^e mod m. -/
def modPow (m b e : Nat) : Nat := powMod m (bitLen e) (b % m) e 1

/-- Euclid's algorithm with the coefficient of the first number. -/
def euclid : Nat → Nat → Nat → Int → Int → Nat × Int
  | 0, r0, _, t0, _ => (r0, t0)
  | k + 1, r0, r1, t0, t1 => if r1 = 0 then (r0, t0) else euclid k r1 (r0 % r1) t1 (t0 - (r0 / r1 : Nat) * t1)

/-- The inverse of a modulo m of k bits, where it exists. -/
def invMod (a m k : Nat) : Option Nat :=
  let r := euclid (2 * k + 2) a m 1 0
  if r.1 = 1 then some (r.2.emod m).toNat else none

/-- The inverse of a modulo m, 0 where none exists. -/
def inv0 (m a : Nat) : Nat := (invMod (a % m) m (bitLen m)).getD 0

/-- a - b modulo m. -/
def subMod (m a b : Nat) : Nat := (a % m + (m - b % m)) % m

/-- A modulus that is refused: even, below so many bits, or its first byte zero (Table 06-6). -/
def badModulus (minBits : Nat) (m : Bytes) : Bool :=
  decide (beNat m % 2 = 0) || decide (beNat m < 2 ^ (minBits - 1)) || m.headD 0 == 0

/-! ## Modular arithmetic (R222, R232) -/

/-- A modular operation: modulus, then operands, then the value (R232, R233). -/
def modular (m : Bytes) (ops : List Bytes) (f : Nat → Option Nat) : Config.PkeOut :=
  if badModulus 64 m then noOut St.modulusInvalid
  else if ops.any (fun o => decide (beNat m ≤ beNat o)) then noOut St.operandRange
  else match f (beNat m) with
    | some v => outs [beBytes m.length v]
    | none => noOut St.operandRange

/-! ## RSA (R222 to R224, R232) -/

/-- The digest under a hash code of Table 04-8; 32 and 64 bytes of the SHAKEs (R224; log 8). -/
def digestOf (code : Nat) (m : Bytes) : Bytes :=
  if code = 0x18 then Config.shake false m 32 else if code = 0x19 then Config.shake true m 64 else Config.hash code m

/-- Bytes of that digest. -/
def hashLen (code : Nat) : Nat :=
  match code with
  | 1 | 5 | 0x11 => 28 | 3 | 0x13 => 48 | 4 | 0x14 | 0x19 => 64 | _ => 32

/-- MGF1 of RFC 8017. -/
def mgf1 (code : Nat) (seed : Bytes) (n : Nat) : Bytes :=
  ((List.range (n / hashLen code + 1)).flatMap (fun i => digestOf code (seed ++ beBytes 4 i))).take n

/-- The last arc of a hash's object identifier in DigestInfo (RFC 8017). -/
def hashArc (code : Nat) : Nat :=
  match code with
  | 1 => 4 | 2 => 1 | 3 => 2 | 4 => 3 | 5 => 5 | 6 => 6 | 0x11 => 7 | 0x12 => 8 | 0x13 => 9 | 0x14 => 10 | 0x18 => 11 | _ => 12

/-- DigestInfo of a digest (RFC 8017). -/
def digestInfo (code : Nat) (d : Bytes) : Bytes :=
  ([0x30, 17 + d.length, 0x30, 0x0D, 0x06, 0x09, 0x60, 0x86, 0x48, 0x01, 0x65, 0x03, 0x04, 0x02, hashArc code, 0x05, 0x00, 0x04, d.length].map (BitVec.ofNat 8)) ++ d

/-- EMSA-PKCS1-v1_5 in k bytes; none where they are too few (RFC 8017). -/
def emsaPkcs1 (code : Nat) (d : Bytes) (k : Nat) : Option Bytes :=
  let t := digestInfo code d
  if k < t.length + 11 then none else some ([0x00, 0x01] ++ List.replicate (k - t.length - 3) 0xFF ++ [0x00] ++ t)

/-- Clear the bits above the number of an encoded message (RFC 8017). -/
def clearTop (b : Bytes) (bits : Nat) : Bytes := beBytes b.length (beNat b % 2 ^ bits)

/-- EMSA-PSS for a modulus of so many bits; none where it is too short (RFC 8017). -/
def emsaPss (code : Nat) (d salt : Bytes) (modBits : Nat) : Option Bytes :=
  let emBits := modBits - 1
  let emLen := (emBits + 7) / 8
  let h := hashLen code
  if emLen < h + salt.length + 2 then none
  else
    let hash := digestOf code (zeros 8 ++ d ++ salt)
    let db := zeros (emLen - salt.length - h - 2) ++ [0x01] ++ salt
    let masked := clearTop (xorBytes db (mgf1 code hash db.length)) (8 * db.length - (8 * emLen - emBits))
    some (masked ++ hash ++ [0xBC])

/-- EMSA-PSS verification (RFC 8017). -/
def pssGood (code : Nat) (d : Bytes) (saltLen modBits : Nat) (m : Nat) : Bool :=
  let emBits := modBits - 1
  let emLen := (emBits + 7) / 8
  let h := hashLen code
  let em := beBytes emLen m
  if emLen < h + saltLen + 2 ∨ 2 ^ (8 * emLen) ≤ m ∨ em.getLastD 0 ≠ 0xBC then false
  else
    let masked := em.take (emLen - h - 1)
    let hash := (em.drop (emLen - h - 1)).take h
    let top := 8 * masked.length - (8 * emLen - emBits)
    let db := clearTop (xorBytes masked (mgf1 code hash masked.length)) top
    let pad := emLen - h - saltLen - 2
    beNat masked < 2 ^ top && db.take pad == zeros pad && db.getD pad 0 == 0x01 &&
      digestOf code (zeros 8 ++ d ++ db.drop (pad + 1)) == hash

/-- EME-OAEP encoding in k bytes; none where the message is too long (RFC 8017). -/
def oaepEncode (code : Nat) (label m seed : Bytes) (k : Nat) : Option Bytes :=
  let h := hashLen code
  if k < m.length + 2 * h + 2 then none
  else
    let db := digestOf code label ++ zeros (k - m.length - 2 * h - 2) ++ [0x01] ++ m
    let maskedDb := xorBytes db (mgf1 code seed db.length)
    some ([0x00] ++ xorBytes seed (mgf1 code maskedDb h) ++ maskedDb)

/-- EME-OAEP decoding; none where it fails (RFC 8017). -/
def oaepDecode (code : Nat) (label em : Bytes) : Option Bytes :=
  let h := hashLen code
  if em.length < 2 * h + 2 then none
  else
    let maskedDb := em.drop (h + 1)
    let seed := xorBytes ((em.drop 1).take h) (mgf1 code maskedDb h)
    let db := xorBytes maskedDb (mgf1 code seed maskedDb.length)
    let rest := (db.drop h).dropWhile (· == 0)
    if em.headD 0 = 0 ∧ db.take h = digestOf code label ∧ rest.headD 0 = 0x01 then some (rest.drop 1) else none

/-- A stored RSA key read (Table 07-7): bytes of the modulus, p, q, n, e. The five-value form where its length and n fit, otherwise p, q, e. -/
structure RsaKey where
  k : Nat
  p : Nat
  q : Nat
  n : Nat
  e : Nat
deriving DecidableEq, Repr

/-- Read a stored RSA key (Table 07-7). -/
def rsaKey (form : Bytes) : RsaKey :=
  let at_ (o l : Nat) : Nat := beNat ((form.drop o).take l)
  let k := (form.length - 32) * 2 / 7
  let h := k / 2
  let n := at_ (5 * h) k
  if 7 * h + 32 = form.length ∧ k % 2 = 0 ∧ at_ 0 h * at_ h h = n then { k := k, p := at_ 0 h, q := at_ h h, n := n, e := at_ (7 * h) 32 }
  else
    let b := (form.length - 32) / 2
    { k := 2 * b, p := at_ 0 b, q := at_ b b, n := at_ 0 b * at_ b b, e := at_ (2 * b) 32 }

/-- The stored form of an RSA key up to 8,192 bits: p, q, dP, dQ, qInv, n, e (Table 07-7). -/
def rsaForm (k p q e : Nat) : Bytes :=
  let h := k / 2
  beBytes h p ++ beBytes h q ++ beBytes h (inv0 (p - 1) e) ++ beBytes h (inv0 (q - 1) e) ++ beBytes h (inv0 p q) ++ beBytes k (p * q) ++ beBytes 32 e

/-- c to the private exponent, by the two primes (Table 07-7). -/
def RsaKey.exp (x : RsaKey) (c : Nat) : Nat :=
  let mp := modPow x.p c (inv0 (x.p - 1) x.e)
  let mq := modPow x.q c (inv0 (x.q - 1) x.e)
  mq + x.q * (subMod x.p mp mq * inv0 x.p x.q % x.p)

/-- The modulus as bytes. -/
def RsaKey.modulus (x : RsaKey) : Bytes := beBytes x.k x.n

/-- The parameter block of a call (R224): mode, hash code, salt length. -/
def modeOf (x : List Bytes) : Nat := ((x.getD 1 []).getD 0 0).toNat
/-- Byte 1: the hash code. -/
def hashOf (x : List Bytes) : Nat := ((x.getD 1 []).getD 1 0).toNat
/-- Byte 2: the salt length. -/
def saltOf (x : List Bytes) : Nat := ((x.getD 1 []).getD 2 0).toNat

/-- The status of a message too long for its encoding. -/
def tooLong (op : BitVec 16) : Config.PkeOut := noOut (if Config.tooLongIsRange op then St.operandRange else St.lengthInvalid)

/-- RSA.SIGN (R222, R224, R232). -/
def rsaSign (op : BitVec 16) (key : Option Bytes) (x : List Bytes) (seed : Option Bytes) : Config.PkeOut :=
  let r := rsaKey (key.getD [])
  let d := x.getD 0 []
  let sign (m : Nat) : Config.PkeOut := outs [beBytes r.k (r.exp m)]
  if badModulus 1024 r.modulus then noOut St.modulusInvalid
  else match modeOf x with
    | 0 => if r.n ≤ beNat d then noOut St.operandRange else sign (beNat d)
    | 1 => (match emsaPkcs1 (hashOf x) d r.k with | some em => sign (beNat em) | none => tooLong op)
    | _ => (match emsaPss (hashOf x) d (pkeRandom op 1 seed (saltOf x)) (bitLen r.n) with | some em => sign (beNat em) | none => tooLong op)

/-- A public exponent that is refused: even or below 3 (Table 06-6). -/
def badExponent (e : Bytes) : Bool := beNat e % 2 == 0 || decide (beNat e < 3)

/-- RSA.VERIFY (R222, R224, R232). -/
def rsaVerify (x : List Bytes) : Config.PkeOut :=
  let nb := x.getD 2 []
  let n := beNat nb
  let s := beNat (x.getD 4 [])
  let d := x.getD 0 []
  if badModulus 1024 nb then noOut St.modulusInvalid
  else if badExponent (x.getD 3 []) then noOut St.operandRange
  else if n ≤ s then noOut St.authFail
  else
    let m := modPow n s (beNat (x.getD 3 []))
    verdict (match modeOf x with
      | 0 => m == beNat d
      | 1 => (match emsaPkcs1 (hashOf x) d nb.length with | some em => m == beNat em | none => false)
      | _ => pssGood (hashOf x) d (saltOf x) (bitLen n) m)

/-- RSA.DECRYPT (R222, R224, R232): a ciphertext at or above n is out of range in raw mode, a decoding failure under OAEP. -/
def rsaDecrypt (key : Option Bytes) (x : List Bytes) : Config.PkeOut :=
  let r := rsaKey (key.getD [])
  let c := x.getD 0 []
  if badModulus 1024 r.modulus then noOut St.modulusInvalid
  else if modeOf x = 0 then (if r.n ≤ beNat c then noOut St.operandRange else outs [beBytes r.k (r.exp (beNat c))])
  else if r.n ≤ beNat c ∨ c.length ≠ r.k then noOut St.authFail
  else match oaepDecode (hashOf x) (x.getD 4 []) (beBytes r.k (r.exp (beNat c))) with
    | some m => outs [m]
    | none => noOut St.authFail

/-- RSA.ENCRYPT (R222, R224, R232); a raw message at or above n is an operand out of range (R233). -/
def rsaEncrypt (op : BitVec 16) (x : List Bytes) (seed : Option Bytes) : Config.PkeOut :=
  let nb := x.getD 2 []
  let m := x.getD 0 []
  let e := beNat (x.getD 3 [])
  let enc (v : Nat) : Config.PkeOut := outs [beBytes nb.length (modPow (beNat nb) v e)]
  if badModulus 1024 nb then noOut St.modulusInvalid
  else if badExponent (x.getD 3 []) then noOut St.operandRange
  else if modeOf x = 0 then (if beNat nb ≤ beNat m then noOut St.operandRange else enc (beNat m))
  else match oaepEncode (hashOf x) (x.getD 4 []) m (pkeRandom op 2 seed (hashLen (hashOf x))) nb.length with
    | some em => enc (beNat em)
    | none => tooLong op

/-- RSA.KEYGEN (R222, R231, R232). -/
def rsaKeygen (op : BitVec 16) (x : List Bytes) (seed : Option Bytes) : Config.PkeOut :=
  let bits := leNat (((x.getD 1 []).drop 2).take 2)
  let e := beNat (x.getD 3 [])
  if badExponent (x.getD 3 []) then noOut St.operandRange
  else match Config.rsaPrimes bits e (pkeRandom op 3 seed 64) with
    | none => noOut St.faultDetected
    | some (p, q) => { status := St.ok, outs := [beBytes (bits / 8) (p * q)], secret := some (rsaForm (bits / 8) p q e) }

/-! ## Weierstrass curves (R222, R223, R232) -/

/-- A curve y^2 = x^3 + a x + b over p, base point g of prime order n, coordinates of len bytes. -/
structure Curve where
  len : Nat
  p : Nat
  a : Nat
  b : Nat
  g : Nat × Nat
  n : Nat

/-- P-256 (R221). -/
def p256 : Curve :=
  { len := 32
    p := 0xffffffff00000001000000000000000000000000ffffffffffffffffffffffff
    a := 0xffffffff00000001000000000000000000000000fffffffffffffffffffffffc
    b := 0x5ac635d8aa3a93e7b3ebbd55769886bc651d06b0cc53b0f63bce3c3e27d2604b
    g := (0x6b17d1f2e12c4247f8bce6e563a440f277037d812deb33a0f4a13945d898c296,
      0x4fe342e2fe1a7f9b8ee7eb4a7c0f9e162bce33576b315ececbb6406837bf51f5)
    n := 0xffffffff00000000ffffffffffffffffbce6faada7179e84f3b9cac2fc632551 }

/-- P-384 (R221). -/
def p384 : Curve :=
  { len := 48
    p := 0xfffffffffffffffffffffffffffffffffffffffffffffffffffffffffffffffeffffffff0000000000000000ffffffff
    a := 0xfffffffffffffffffffffffffffffffffffffffffffffffffffffffffffffffeffffffff0000000000000000fffffffc
    b := 0xb3312fa7e23ee7e4988e056be3f82d19181d9c6efe8141120314088f5013875ac656398d8a2ed19d2a85c8edd3ec2aef
    g := (0xaa87ca22be8b05378eb1c71ef320ad746e1d3b628ba79b9859f741e082542a385502f25dbf55296c3a545e3872760ab7,
      0x3617de4a96262c6f5d9e98bf9292dc29f8f41dbd289a147ce9da3113b5f0b8c00a60b1ce1d7e819d7a431d7c90ea0e5f)
    n := 0xffffffffffffffffffffffffffffffffffffffffffffffffc7634d81f4372ddf581a0db248b0a77aecec196accc52973 }

/-- P-521 (R221). -/
def p521 : Curve :=
  { len := 66
    p := 0x1ffffffffffffffffffffffffffffffffffffffffffffffffffffffffffffffffffffffffffffffffffffffffffffffffffffffffffffffffffffffffffffffffff
    a := 0x1fffffffffffffffffffffffffffffffffffffffffffffffffffffffffffffffffffffffffffffffffffffffffffffffffffffffffffffffffffffffffffffffffc
    b := 0x51953eb9618e1c9a1f929a21a0b68540eea2da725b99b315f3b8b489918ef109e156193951ec7e937b1652c0bd3bb1bf073573df883d2c34f1ef451fd46b503f00
    g := (0xc6858e06b70404e9cd9e3ecb662395b4429c648139053fb521f828af606b4d3dbaa14b5e77efe75928fe1dc127a2ffa8de3348b3c1856a429bf97e7e31c2e5bd66,
      0x11839296a789a3bc0045c8a5fb42c7d1bd998f54449579b446817afbd17273e662c97ee72995ef42640c550b9013fad0761353c7086a272c24088be94769fd16650)
    n := 0x1fffffffffffffffffffffffffffffffffffffffffffffffffffffffffffffffffa51868783bf2f966b7fcc0148f709a5d03bb5c9b8899c47aebb6fb71e91386409 }

/-- brainpoolP256r1 (R221). -/
def bp256 : Curve :=
  { len := 32
    p := 0xa9fb57dba1eea9bc3e660a909d838d726e3bf623d52620282013481d1f6e5377
    a := 0x7d5a0975fc2c3057eef67530417affe7fb8055c126dc5c6ce94a4b44f330b5d9
    b := 0x26dc5c6ce94a4b44f330b5d9bbd77cbf958416295cf7e1ce6bccdc18ff8c07b6
    g := (0x8bd2aeb9cb7e57cb2c4b482ffc81b7afb9de27e1e3bd23c23a4453bd9ace3262,
      0x547ef835c3dac4fd97f8461a14611dc9c27745132ded8e545c1d54c72f046997)
    n := 0xa9fb57dba1eea9bc3e660a909d838d718c397aa3b561a6f7901e0e82974856a7 }

/-- brainpoolP384r1 (R221). -/
def bp384 : Curve :=
  { len := 48
    p := 0x8cb91e82a3386d280f5d6f7e50e641df152f7109ed5456b412b1da197fb71123acd3a729901d1a71874700133107ec53
    a := 0x7bc382c63d8c150c3c72080ace05afa0c2bea28e4fb22787139165efba91f90f8aa5814a503ad4eb04a8c7dd22ce2826
    b := 0x4a8c7dd22ce28268b39b55416f0447c2fb77de107dcd2a62e880ea53eeb62d57cb4390295dbc9943ab78696fa504c11
    g := (0x1d1c64f068cf45ffa2a63a81b7c13f6b8847a3e77ef14fe3db7fcafe0cbd10e8e826e03436d646aaef87b2e247d4af1e,
      0x8abe1d7520f9c2a45cb1eb8e95cfd55262b70b29feec5864e19c054ff99129280e4646217791811142820341263c5315)
    n := 0x8cb91e82a3386d280f5d6f7e50e641df152f7109ed5456b31f166e6cac0425a7cf3ab6af6b7fc3103b883202e9046565 }

/-- brainpoolP512r1 (R221). -/
def bp512 : Curve :=
  { len := 64
    p := 0xaadd9db8dbe9c48b3fd4e6ae33c9fc07cb308db3b3c9d20ed6639cca703308717d4d9b009bc66842aecda12ae6a380e62881ff2f2d82c68528aa6056583a48f3
    a := 0x7830a3318b603b89e2327145ac234cc594cbdd8d3df91610a83441caea9863bc2ded5d5aa8253aa10a2ef1c98b9ac8b57f1117a72bf2c7b9e7c1ac4d77fc94ca
    b := 0x3df91610a83441caea9863bc2ded5d5aa8253aa10a2ef1c98b9ac8b57f1117a72bf2c7b9e7c1ac4d77fc94cadc083e67984050b75ebae5dd2809bd638016f723
    g := (0x81aee4bdd82ed9645a21322e9c4c6a9385ed9f70b5d916c1b43b62eef4d0098eff3b1f78e2d0d48d50d1687b93b97d5f7c6d5047406a5e688b352209bcb9f822,
      0x7dde385d566332ecc0eabfa9cf7822fdf209f70024a57b1aa000c55b881f8111b2dcde494a5f485e5bca4bd88a2763aed1ca2b2fa8f0540678cd1e0f3ad80892)
    n := 0xaadd9db8dbe9c48b3fd4e6ae33c9fc07cb308db3b3c9d20ed6639cca70330870553e5c414ca92619418661197fac10471db1d381085ddaddb58796829ca90069 }

/-- The curve of a parameter set (Table 06-1). -/
def curveOf (set : Nat) : Curve := match set with | 1 => p256 | 2 => p384 | 3 => p521 | 4 => bp256 | 5 => bp384 | _ => bp512

/-- The sum of two points; none is the point at infinity. -/
def Curve.add (c : Curve) (u v : Option (Nat × Nat)) : Option (Nat × Nat) :=
  match u, v with
  | none, v => v
  | u, none => u
  | some (x1, y1), some (x2, y2) =>
    if x1 = x2 ∧ (y1 + y2) % c.p = 0 then none
    else
      let l := if x1 = x2 then (3 * x1 * x1 + c.a) * inv0 c.p (2 * y1) % c.p else subMod c.p y2 y1 * inv0 c.p (subMod c.p x2 x1) % c.p
      let x := subMod c.p (l * l) (x1 + x2)
      some (x, subMod c.p (l * subMod c.p x1 x) y1)

/-- k times a point, by the bits of k, lowest first. -/
def Curve.mulBits (c : Curve) : Nat → Nat → Option (Nat × Nat) → Option (Nat × Nat) → Option (Nat × Nat)
  | 0, _, _, acc => acc
  | f + 1, k, u, acc => c.mulBits f (k / 2) (c.add u u) (if k % 2 = 1 then c.add acc u else acc)

/-- k times a point. -/
def Curve.mul (c : Curve) (k : Nat) (u : Option (Nat × Nat)) : Option (Nat × Nat) := c.mulBits (bitLen k) k u none

/-- A point lies on the curve. -/
def Curve.has (c : Curve) (x y : Nat) : Bool := decide (x < c.p ∧ y < c.p ∧ y * y % c.p = (x * x * x + c.a * x + c.b) % c.p)

/-- Decode a point of SEC 1, uncompressed or compressed; none where it is not on the curve, at infinity or not decodable (R223, R232). The primes of all six curves are 3 modulo 4. -/
def Curve.decode (c : Curve) (b : Bytes) : Option (Nat × Nat) :=
  let x := beNat ((b.drop 1).take c.len)
  match (b.headD 0).toNat with
  | 4 =>
    let y := beNat (b.drop (1 + c.len))
    if b.length = 2 * c.len + 1 ∧ c.has x y then some (x, y) else none
  | 2 | 3 =>
    let y := modPow c.p (x * x * x + c.a * x + c.b) ((c.p + 1) / 4)
    if b.length = c.len + 1 ∧ c.has x y then some (x, if y % 2 = (b.headD 0).toNat % 2 then y else (c.p - y) % c.p) else none
  | _ => none

/-- A point uncompressed (SEC 1). -/
def Curve.encode (c : Curve) (u : Option (Nat × Nat)) : Bytes :=
  match u with
  | some (x, y) => [0x04] ++ beBytes c.len x ++ beBytes c.len y
  | none => zeros (2 * c.len + 1)

/-- The leftmost bits of a digest as a number (SEC 1). -/
def Curve.digestNat (c : Curve) (d : Bytes) : Nat := beNat d / 2 ^ (8 * d.length - bitLen c.n)

/-- ECDSA with the nonces of successive attempts, until neither r nor s is 0 (R232). -/
def Curve.sign (c : Curve) (d z : Nat) (nonce : Nat → Nat) : Nat → Nat → Option (Nat × Nat)
  | 0, _ => none
  | f + 1, i =>
    let k := nonce i % (c.n - 1) + 1
    let r := ((c.mul k (some c.g)).elim 0 (·.1)) % c.n
    let s := inv0 c.n k * (z + r * d) % c.n
    if r = 0 ∨ s = 0 then c.sign d z nonce f (i + 1) else some (r, s)

/-- The private scalar of a stored key is in range (Table 06-6). -/
def Curve.scalarOk (c : Curve) (d : Nat) : Bool := decide (0 < d ∧ d < c.n)

/-- ECDSA.SIGN: hedged or deterministic; attempts without end are a fault of the nonces (R222, R224, R232). -/
def ecdsaSign (op : BitVec 16) (key : Option Bytes) (x : List Bytes) (seed : Option Bytes) : Config.PkeOut :=
  let c := curveOf (opSet op)
  let d := beNat ((key.getD []).take c.len)
  if !c.scalarOk d then noOut St.operandRange
  else
    let hash := if modeOf x = 1 then some (hashOf x) else none
    let hedge := if modeOf x = 1 then [] else pkeRandom op 4 seed 64
    match c.sign d (c.digestNat (x.getD 0 [])) (Config.ecNonce (opSet op) hash d (x.getD 0 []) hedge) 64 0 with
    | some (r, s) => outs [beBytes c.len r ++ beBytes c.len s]
    | none => noOut St.faultDetected

/-- ECDSA.VERIFY (R222, R232, R233). -/
def ecdsaVerify (op : BitVec 16) (x : List Bytes) : Config.PkeOut :=
  let c := curveOf (opSet op)
  match c.decode (x.getD 2 []) with
  | none => noOut St.pointInvalid
  | some q =>
    let r := beNat ((x.getD 4 []).take c.len)
    let s := beNat ((x.getD 4 []).drop c.len)
    if r = 0 ∨ s = 0 ∨ c.n ≤ r ∨ c.n ≤ s then noOut St.authFail
    else
      let w := inv0 c.n s
      let u := c.add (c.mul (c.digestNat (x.getD 0 []) * w % c.n) (some c.g)) (c.mul (r * w % c.n) (some q))
      verdict (match u with | some (ux, _) => ux % c.n == r | none => false)

/-- ECDH (R222, R232, R233). -/
def ecdh (op : BitVec 16) (key : Option Bytes) (x : List Bytes) : Config.PkeOut :=
  let c := curveOf (opSet op)
  let d := beNat ((key.getD []).take c.len)
  if !c.scalarOk d then noOut St.operandRange
  else match c.decode (x.getD 2 []) with
    | none => noOut St.pointInvalid
    | some q => (match c.mul d (some q) with
      | some (ux, _) => outs [beBytes c.len ux]
      | none => noOut St.resultZero)

/-- EC KEYGEN (R222, R227): the public point, the scalar with it (Table 07-7). -/
def ecKeygen (op : BitVec 16) (seed : Option Bytes) : Config.PkeOut :=
  let c := curveOf (opSet op)
  let d := Config.ecScalar (opSet op) (pkeRandom op 3 seed 64) % (c.n - 1) + 1
  let pub := c.encode (c.mul d (some c.g))
  { status := St.ok, outs := [pub], secret := some (beBytes c.len d ++ pub) }

/-- VALIDATE (R222, R232). -/
def validatePoint (op : BitVec 16) (x : List Bytes) : Config.PkeOut :=
  noOut (if ((curveOf (opSet op)).decode (x.getD 2 [])).isSome then St.ok else St.pointInvalid)

/-! ## Edwards curves (R222, R223, R232; RFC 8032) -/

/-- A curve a x^2 + y^2 = 1 + d x^2 y^2 over p, base point g of order l, cofactor h. -/
structure Edwards where
  len : Nat
  p : Nat
  a : Nat
  d : Nat
  g : Nat × Nat
  l : Nat
  h : Nat

/-- The prime of Ed25519 and X25519. -/
def p25519 : Nat := 2 ^ 255 - 19
/-- The prime of Ed448 and X448. -/
def p448 : Nat := 2 ^ 448 - 2 ^ 224 - 1

/-- Ed25519. -/
def ed25519 : Edwards :=
  { len := 32, p := p25519, a := p25519 - 1, d := 37095705934669439343138083508754565189542113879843219016388785533085940283555
    g := (15112221349535400772501151409588531511454012693041857206046113283949847762202, 46316835694926478169428394003475163141307993866256225615783033603165251855960)
    l := 2 ^ 252 + 27742317777372353535851937790883648493, h := 8 }

/-- Ed448. -/
def ed448 : Edwards :=
  { len := 57, p := p448, a := 1, d := p448 - 39081
    g := (224580040295924300187604334099896036246789641632564134246125461686950415467406032909029192869357953282578032075146446173674602635247710,
          298819210078481492676017930443930673437544040154080242095928241372331506189835876003536878655418784733982303233503462500531545062832660)
    l := 2 ^ 446 - 13818066809895115352007386748515426880336692474882178609894547503885, h := 4 }

/-- The curve of a parameter set (Table 06-1). -/
def edOf (set : Nat) : Edwards := if set = 1 then ed25519 else ed448

/-- The sum of two points. -/
def Edwards.add (c : Edwards) (u v : Nat × Nat) : Nat × Nat :=
  let t := c.d * u.1 * v.1 * u.2 * v.2 % c.p
  ((u.1 * v.2 + v.1 * u.2) * inv0 c.p (1 + t) % c.p, subMod c.p (u.2 * v.2) (c.a * u.1 * v.1) * inv0 c.p (subMod c.p 1 t) % c.p)

/-- k times a point, by the bits of k, lowest first. -/
def Edwards.mulBits (c : Edwards) : Nat → Nat → Nat × Nat → Nat × Nat → Nat × Nat
  | 0, _, _, acc => acc
  | f + 1, k, u, acc => c.mulBits f (k / 2) (c.add u u) (if k % 2 = 1 then c.add acc u else acc)

/-- k times a point. -/
def Edwards.mul (c : Edwards) (k : Nat) (u : Nat × Nat) : Nat × Nat := c.mulBits (bitLen k) k u (0, 1)

/-- A square root modulo p, where there is one: p is 5 modulo 8 for Ed25519, 3 modulo 4 for Ed448. -/
def Edwards.sqrt (c : Edwards) (v : Nat) : Option Nat :=
  let r := if c.p % 4 = 3 then modPow c.p v ((c.p + 1) / 4) else modPow c.p v ((c.p + 3) / 8)
  let s := if r * r % c.p = v % c.p then r else r * modPow c.p 2 ((c.p - 1) / 4) % c.p
  if s * s % c.p = v % c.p then some s else none

/-- The bit of an encoded point that holds the sign of x. -/
def Edwards.signBit (c : Edwards) : Nat := 8 * c.len - 1

/-- Encode a point. -/
def Edwards.encode (c : Edwards) (u : Nat × Nat) : Bytes := leBytes c.len (u.2 + (u.1 % 2) * 2 ^ c.signBit)

/-- Decode a point; none where it is not decodable. -/
def Edwards.decode (c : Edwards) (b : Bytes) : Option (Nat × Nat) :=
  let v := leNat b
  let y := v % 2 ^ c.signBit
  let sign := v / 2 ^ c.signBit
  if b.length ≠ c.len ∨ c.p ≤ y then none
  else match c.sqrt (subMod c.p 1 (y * y) * inv0 c.p (subMod c.p c.a (c.d * y * y)) % c.p) with
    | none => none
    | some x => if x = 0 ∧ sign = 1 then none else some (if x % 2 = sign then x else c.p - x, y)

/-- What the hashes of a signature begin with: mode 0 pure, 1 prehash, 2 context (RFC 8032); pure Ed25519 has none. -/
def edDom (set mode : Nat) (context : Bytes) : Bytes :=
  if set = 1 then
    (if mode = 0 then [] else ascii "SigEd25519 no Ed25519 collisions" ++ leBytes 1 (if mode = 1 then 1 else 0) ++ leBytes 1 context.length ++ context)
  else ascii "SigEd448" ++ leBytes 1 (if mode = 1 then 1 else 0) ++ leBytes 1 context.length ++ context

/-- The hash of the scheme: SHA-512, or 114 bytes of SHAKE256. -/
def edHash (set : Nat) (b : Bytes) : Bytes := if set = 1 then Config.hash 4 b else Config.shake true b 114

/-- The message as signed: hashed first in prehash mode. -/
def edMessage (set mode : Nat) (m : Bytes) : Bytes := if mode = 1 then (if set = 1 then Config.hash 4 m else Config.shake true m 64) else m

/-- The secret scalar of a seed, and the bytes that go into its nonces. -/
def edExpand (set : Nat) (seed : Bytes) : Nat × Bytes :=
  let h := edHash set seed
  if set = 1 then (leNat (h.take 32) / 8 * 8 % 2 ^ 254 + 2 ^ 254, h.drop 32)
  else (leNat (h.take 55) / 4 * 4 + ((h.getD 55 0).toNat ||| 128) * 2 ^ 440, h.drop 57)

/-- The public key of a seed. -/
def edPublic (set : Nat) (seed : Bytes) : Bytes := (edOf set).encode ((edOf set).mul (edExpand set seed).1 (edOf set).g)

/-- EDDSA.SIGN (R222 to R224). -/
def eddsaSign (op : BitVec 16) (key : Option Bytes) (x : List Bytes) : Config.PkeOut :=
  let set := opSet op
  let c := edOf set
  let k := key.getD []
  let (a, pre) := edExpand set (k.take c.len)
  let pub := (k.drop c.len).take c.len
  let dom := edDom set (modeOf x) (x.getD 3 [])
  let m := edMessage set (modeOf x) (x.getD 0 [])
  let r := leNat (edHash set (dom ++ pre ++ m)) % c.l
  let rb := c.encode (c.mul r c.g)
  outs [rb ++ leBytes c.len ((r + leNat (edHash set (dom ++ rb ++ pub ++ m)) % c.l * a) % c.l)]

/-- EDDSA.VERIFY: the public key decodable and not of small order; S below L and R decodable; the equation with the cofactor (R222, R232, R233). -/
def eddsaVerify (op : BitVec 16) (x : List Bytes) : Config.PkeOut :=
  let set := opSet op
  let c := edOf set
  match c.decode (x.getD 2 []) with
  | none => noOut St.pointInvalid
  | some a =>
    if c.mul c.h a = (0, 1) then noOut St.pointInvalid
    else
      let rb := (x.getD 4 []).take c.len
      let s := leNat ((x.getD 4 []).drop c.len)
      match c.decode rb with
      | none => noOut St.authFail
      | some r =>
        if c.l ≤ s then noOut St.authFail
        else
          let dom := edDom set (modeOf x) (x.getD 3 [])
          let k := leNat (edHash set (dom ++ rb ++ x.getD 2 [] ++ edMessage set (modeOf x) (x.getD 0 []))) % c.l
          verdict (c.mul (c.h * s) c.g == c.mul c.h (c.add r (c.mul k a)))

/-- EdDSA KEYGEN (R222, R227): the seed and the public key with it (Table 07-7). -/
def eddsaKeygen (op : BitVec 16) (seed : Option Bytes) : Config.PkeOut :=
  let k := padTo (edLens (opSet op)).1 (pkeRandom op 3 seed (edLens (opSet op)).1)
  { status := St.ok, outs := [edPublic (opSet op) k], secret := some (k ++ edPublic (opSet op) k) }

/-! ## X25519 and X448 (RFC 7748) -/

/-- One step of the ladder on (x2 : z2) and (x3 : z3), their difference having the coordinate u. -/
def ladderStep (p a24 u : Nat) (s : (Nat × Nat) × (Nat × Nat)) : (Nat × Nat) × (Nat × Nat) :=
  let (x2, z2) := s.1
  let (x3, z3) := s.2
  let aa := (x2 + z2) * (x2 + z2) % p
  let bb := subMod p x2 z2 * subMod p x2 z2 % p
  let e := subMod p aa bb
  let da := subMod p x3 z3 * (x2 + z2) % p
  let cb := (x3 + z3) * subMod p x2 z2 % p
  ((aa * bb % p, e * (aa + a24 * e) % p), ((da + cb) * (da + cb) % p, u * (subMod p da cb * subMod p da cb % p) % p))

/-- The ladder over the bits of a scalar below bit f, highest first. -/
def ladder (p a24 u k : Nat) : Nat → (Nat × Nat) × (Nat × Nat) → (Nat × Nat) × (Nat × Nat)
  | 0, s => s
  | f + 1, s =>
    if k.testBit f then
      (let t := ladderStep p a24 u (s.2, s.1); ladder p a24 u k f (t.2, t.1))
    else ladder p a24 u k f (ladderStep p a24 u s)

/-- X25519 or X448 of a scalar and a u-coordinate (RFC 7748). -/
def xdhValue (set : Nat) (scalar u : Bytes) : Bytes :=
  let p := if set = 1 then p25519 else p448
  let k := if set = 1 then leNat scalar / 8 * 8 % 2 ^ 254 + 2 ^ 254 else leNat scalar / 4 * 4 % 2 ^ 447 + 2 ^ 447
  let v := (if set = 1 then leNat u % 2 ^ 255 else leNat u) % p
  let r := ladder p (if set = 1 then 121665 else 39081) v k (if set = 1 then 255 else 448) ((1, 0), (v, 1))
  leBytes (edLens set).2 (r.1.1 * modPow p r.1.2 (p - 2) % p)

/-- The base point's u-coordinate. -/
def xBase (set : Nat) : Bytes := leBytes (edLens set).2 (if set = 1 then 9 else 5)

/-- XDH: every u decodes, an all-zero secret is RESULT_ZERO (R222, R232). -/
def xdh (op : BitVec 16) (key : Option Bytes) (x : List Bytes) : Config.PkeOut :=
  let v := xdhValue (opSet op) ((key.getD []).take (edLens (opSet op)).2) (x.getD 2 [])
  if leNat v = 0 then noOut St.resultZero else outs [v]

/-- X KEYGEN (R222, R227). -/
def xdhKeygen (op : BitVec 16) (seed : Option Bytes) : Config.PkeOut :=
  let n := (edLens (opSet op)).2
  let k := padTo n (pkeRandom op 3 seed n)
  { status := St.ok, outs := [xdhValue (opSet op) k (xBase (opSet op))], secret := some (k ++ xdhValue (opSet op) k (xBase (opSet op))) }

/-! ## Lattice and hash-based schemes (R222, R223, R231, R232) -/

/-- ML-KEM KEYGEN: d and z, the encapsulation key, its digest (Table 07-7). -/
def mlKemKeygen (op : BitVec 16) (seed : Option Bytes) : Config.PkeOut :=
  let d := padTo 64 (pkeRandom op 3 seed 64)
  let ek := padTo (kemLens (opSet op)).1 (Config.kemPublic (opSet op) (d.take 32) (d.drop 32))
  { status := St.ok, outs := [ek], secret := some (d ++ ek ++ leBytes 32 (Config.sha3 ek).toNat) }

/-- The 12-bit coefficients of an encapsulation key (FIPS 203). -/
def kemCoeffs (ek : Bytes) : List Nat :=
  (List.range ((ek.length - 32) / 3)).flatMap (fun i =>
    let v := leNat ((ek.drop (3 * i)).take 3)
    [v % 4096, v / 4096])

/-- ML-KEM ENCAPS: a coefficient at or above q is out of range (R232). -/
def mlKemEncaps (op : BitVec 16) (x : List Bytes) (seed : Option Bytes) : Config.PkeOut :=
  let ek := x.getD 2 []
  if (kemCoeffs ek).any (fun v => decide (3329 ≤ v)) then noOut St.operandRange
  else
    let r := Config.kemEncaps (opSet op) ek (padTo 32 (pkeRandom op 5 seed 32))
    outs [padTo (kemLens (opSet op)).2 r.1, padTo 32 r.2]

/-- ML-KEM DECAPS: a ciphertext that fails re-encryption gives the implicit-rejection secret, status OK (R232). -/
def mlKemDecaps (op : BitVec 16) (key : Option Bytes) (x : List Bytes) : Config.PkeOut :=
  let k := key.getD []
  outs [padTo 32 (Config.kemDecaps (opSet op) (k.take 32) ((k.drop 32).take 32) (x.getD 0 []))]

/-- ML-DSA KEYGEN. -/
def mlDsaKeygen (op : BitVec 16) (seed : Option Bytes) : Config.PkeOut :=
  let k := padTo 32 (pkeRandom op 3 seed 32)
  let pk := padTo (dsaLens (opSet op)).1 (Config.dsaPublic (opSet op) k)
  { status := St.ok, outs := [pk], secret := some (k ++ pk) }

/-- ML-DSA SIGN: hedged or deterministic; the iteration limit is FAULT_DETECTED (R224, R231). -/
def mlDsaSign (op : BitVec 16) (key : Option Bytes) (x : List Bytes) (seed : Option Bytes) : Config.PkeOut :=
  let rnd := if modeOf x = 1 then zeros 32 else padTo 32 (pkeRandom op 6 seed 32)
  match Config.dsaSign (opSet op) ((key.getD []).take 32) (hashOf x) (x.getD 3 []) (x.getD 0 []) rnd with
  | some sig => outs [padTo (dsaLens (opSet op)).2 sig]
  | none => noOut St.faultDetected

/-- ML-DSA VERIFY. -/
def mlDsaVerify (op : BitVec 16) (x : List Bytes) : Config.PkeOut :=
  verdict (Config.dsaVerify (opSet op) (x.getD 2 []) (hashOf x) (x.getD 3 []) (x.getD 0 []) (x.getD 4 []))

/-- The public key of XMSS-SHAKE256_16_256: its identifier, root, PUB_SEED (SP 800-208). -/
def xmssPublic (root pubSeed : Bytes) : Bytes := beBytes 4 0x11 ++ padTo 32 root ++ padTo 32 pubSeed

/-- XMSS KEYGEN: SK_SEED, SK_PRF, PUB_SEED, root, traversal state (Table 07-7); the state leaves the form within 32 slots. -/
def xmssKeygen (op : BitVec 16) (seed : Option Bytes) : Config.PkeOut :=
  let k := padTo 96 (pkeRandom op 3 seed 96)
  let root := padTo 32 (Config.xmssRoot (k.take 32) (k.drop 64))
  { status := St.ok, outs := [xmssPublic root (k.drop 64)], secret := some (k ++ root ++ (Config.xmssState (k.take 32) (k.drop 64)).take 3904) }

/-- XMSS SIGN of a leaf. -/
def xmssSignLeaf (key : Option Bytes) (x : List Bytes) (leaf : Nat) : Config.PkeOut :=
  outs [padTo 2692 (Config.xmssSign (key.getD []) leaf (x.getD 0 []))]

/-- XMSS VERIFY: a leaf index beyond the tree fails at once (R232). -/
def xmssVerify (op : BitVec 16) (x : List Bytes) : Config.PkeOut :=
  let sig := x.getD 4 []
  if 2 ^ (if opSet op = 1 then 16 else 20) ≤ beNat (sig.take 4) then noOut St.authFail
  else verdict (Config.xmssVerify (opSet op) (x.getD 2 []) (x.getD 0 []) sig)

/-- SLH-DSA VERIFY. -/
def slhVerify (op : BitVec 16) (x : List Bytes) : Config.PkeOut :=
  verdict (Config.slhVerify (opSet op) (x.getD 2 []) (hashOf x) (x.getD 3 []) (x.getD 0 []) (x.getD 4 []))

/-! ## Stored forms (Table 07-7, R259) -/

/-- The private part of a stored form and the public part behind it, in bytes, for the types whose form is the two of them. -/
def pairForm (t : BitVec 8) : Option (Nat × Nat) :=
  let set := t.toNat % 16
  match t.toNat / 16 with
  | 4 => if 1 ≤ set ∧ set ≤ 6 then some (curveLen set, 2 * curveLen set + 1) else none
  | 5 => if set = 1 ∨ set = 2 then some ((edLens set).1, (edLens set).1)
         else if set = 3 ∨ set = 4 then some ((edLens (set - 2)).2, (edLens (set - 2)).2) else none
  | 7 => some (32, (dsaLens set).1)
  | _ => none

/-- The length of an asymmetric stored form is that of its type, within 32 slots (R259, Table 07-7). -/
def formOk (t : BitVec 8) (form : Bytes) : Bool :=
  decide (form.length ≤ 4032) &&
    (match pairForm t with
     | some (a, b) => form.length == a + b
     | none =>
       if t = 0x30 then (form.length - 32) * 2 % 14 == 0 && decide (32 + 448 ≤ form.length ∧ form.length ≤ 3616) || decide (1056 < form.length ∧ form.length ≤ 2080)
       else if t.toNat / 16 = 6 then form.length == 96 + (kemLens (t.toNat % 16)).1
       else decide (128 ≤ form.length))

/-- The public part of a stored key (R259): n and the 32-byte e; the public point or key; the encapsulation key; an XMSS public key. -/
def publicPart (t : BitVec 8) (form : Bytes) : Bytes :=
  match pairForm t with
  | some (a, b) => (form.drop a).take b
  | none =>
    if t = 0x30 then (rsaKey form).modulus ++ beBytes 32 (rsaKey form).e
    else if t.toNat / 16 = 6 then (form.drop 64).take (kemLens (t.toNat % 16)).1
    else xmssPublic ((form.drop 96).take 32) ((form.drop 64).take 32)

end Sys2Proof.Machine
end

