-- ==== Sys2Proof/Machine/PkeUnit.lean ====
section
/-! DEFINITION. The public-key engines: operation codes, the checks of a call, region sets, times, engines that may start, the start of a call (R209 to R231). -/

namespace Sys2Proof.Machine

/-! ## Operation codes and their operands (Tables 06-1, 06-2) -/

/-- What Table 06-2 gives for an operation: the key's type and usage bit, permitted lengths of IN0 to IN4 (empty: absent), IN5 (0 absent, 1 optional, 2 required), permitted lengths of OUT0 and OUT1, which output is the secret, and whether it is a key generation. -/
structure OpSpec where
  key : Option (BitVec 8 × Nat) := none
  ins : List (List (Nat × Nat)) := []
  in5 : Nat := 0
  out0 : List (Nat × Nat) := []
  out1 : List (Nat × Nat) := []
  secret : Option Nat := none
  keygen : Bool := false
deriving DecidableEq, Repr

/-- Exactly n bytes. -/
def len (n : Nat) : List (Nat × Nat) := [(n, n)]

/-- A point of a curve, compressed or uncompressed. -/
def pointLen (n : Nat) : List (Nat × Nat) := [(n + 1, n + 1), (2 * n + 1, 2 * n + 1)]

/-- A message. -/
def anyLen : List (Nat × Nat) := [(0, 65535)]

/-- Modular arithmetic, RSA (Table 06-2). -/
def specMod (k : Nat) : Option OpSpec :=
  let n := [(8, 2048)]
  let small := [(1, 2048)]
  if k = 1 ∨ k = 2 ∨ k = 3 then some { ins := [n, n, n], out0 := n }
  else if k = 4 ∨ k = 5 then some { ins := [small, small, n], out0 := n }
  else if k = 6 then some { ins := [small, [], n], out0 := n }
  else none

/-- RSA (Table 06-2). -/
def specRsa (k : Nat) : Option OpSpec :=
  let v := [(1, 2048)]
  match k with
  | 1 => some { key := some (0x30, uSign), ins := [v, len 8], out0 := v }
  | 2 => some { ins := [v, len 8, [(128, 2048)], [(1, 32)], v] }
  | 3 => some { key := some (0x30, uAgree), ins := [[(128, 2048)], len 8, [], [], [(0, 1024)]], in5 := 1, out0 := v, secret := some 0 }
  | 4 => some { ins := [[(0, 2048)], len 8, [(128, 2048)], [(1, 32)], [(0, 1024)]], out0 := [(128, 2048)] }
  | 5 => some { ins := [[], len 8, [], [(1, 32)]], in5 := 2, out0 := [(128, 1024)], out1 := len 8, keygen := true }
  | _ => none

/-- Weierstrass curves (Table 06-2). -/
def specEc (k set : Nat) : Option OpSpec :=
  let n := curveLen set
  if set = 0 ∨ 6 < set then none
  else match k with
  | 1 => some { key := some (BitVec.ofNat 8 (0x40 + set), uSign), ins := [[(1, 64)], len 8], out0 := len (2 * n) }
  | 2 => some { ins := [[(1, 64)], [], pointLen n, [], len (2 * n)] }
  | 3 => some { key := some (BitVec.ofNat 8 (0x40 + set), uAgree), ins := [[], [], pointLen n], in5 := 1, out0 := len n, secret := some 0 }
  | 4 => some { in5 := 1, out0 := len (2 * n + 1), out1 := len 8, keygen := true }
  | 5 => some { ins := [[], [], pointLen n] }
  | _ => none

/-- Edwards and Montgomery curves (Table 06-2). -/
def specEd (k set : Nat) : Option OpSpec :=
  let p := if set = 1 then 32 else 57
  let u := if set = 1 then 32 else 56
  let sig := if set = 1 then 64 else 114
  if set = 0 ∨ 2 < set then none
  else match k with
  | 1 => some { key := some (BitVec.ofNat 8 (0x50 + set), uSign), ins := [anyLen, len 8, [], [(0, 255)]], out0 := len sig }
  | 2 => some { ins := [anyLen, len 8, len p, [(0, 255)], len sig] }
  | 3 => some { key := some (BitVec.ofNat 8 (0x52 + set), uAgree), ins := [[], [], len u], in5 := 1, out0 := len u, secret := some 0 }
  | 4 => some { in5 := 1, out0 := len p, out1 := len 8, keygen := true }
  | 5 => some { in5 := 1, out0 := len u, out1 := len 8, keygen := true }
  | _ => none

/-- ML-KEM (Table 06-2). -/
def specKem (k set : Nat) : Option OpSpec :=
  let (ek, ct) := kemLens set
  if set = 0 ∨ 3 < set then none
  else match k with
  | 1 => some { in5 := 1, out0 := len ek, out1 := len 8, keygen := true }
  | 2 => some { ins := [[], [], len ek], in5 := 1, out0 := len ct, out1 := len 32, secret := some 1 }
  | 3 => some { key := some (BitVec.ofNat 8 (0x60 + set), uAgree), ins := [len ct], in5 := 1, out0 := len 32, secret := some 0 }
  | _ => none

/-- ML-DSA (Table 06-2). -/
def specDsa (k set : Nat) : Option OpSpec :=
  let (pk, sig) := dsaLens set
  if set = 0 ∨ 3 < set then none
  else match k with
  | 1 => some { in5 := 1, out0 := len pk, out1 := len 8, keygen := true }
  | 2 => some { key := some (BitVec.ofNat 8 (0x70 + set), uSign), ins := [anyLen, len 8, [], [(0, 255)]], out0 := len sig }
  | 3 => some { ins := [anyLen, len 8, len pk, [(0, 255)], len sig] }
  | _ => none

/-- XMSS (Table 06-2). -/
def specXmss (k set : Nat) : Option OpSpec :=
  match k, set with
  | 1, 1 => some { in5 := 2, out0 := len 68, out1 := len 8, keygen := true }
  | 2, 1 => some { key := some (0x81, uSign), ins := [anyLen], out0 := len 2692 }
  | 3, 1 => some { ins := [anyLen, [], len 68, [], len 2692] }
  | 3, 2 => some { ins := [anyLen, [], len 68, [], len 2820] }
  | _, _ => none

/-- SLH-DSA verification (Table 06-2): public keys of 32, 48 or 64 bytes by the set. -/
def specSlh (k set : Nat) : Option OpSpec :=
  if k ≠ 3 ∨ set = 0 ∨ 12 < set then none
  else
    let n := match (set - 1) % 6 with | 0 | 1 => 32 | 2 | 3 => 48 | _ => 64
    some { ins := [anyLen, len 8, len n, [(0, 255)], [(1, 65535)]] }

/-- Table 06-2 for an operation code; none where the code is not assigned (R221). -/
def opSpec (op : BitVec 16) : Option OpSpec :=
  match opFam op with
  | 0 => if op = 0x0010 then some {} else if op = 0x0020 then some { ins := [anyLen, anyLen, anyLen, anyLen, anyLen] }
         else if op = 0x0030 then some { out0 := [(16, 256)] } else none
  | 1 => if opSet op = 0 then specMod (opKind op) else none
  | 2 => if opSet op = 0 then specRsa (opKind op) else none
  | 3 => specEc (opKind op) (opSet op)
  | 4 => specEd (opKind op) (opSet op)
  | 5 => specKem (opKind op) (opSet op)
  | 6 => specDsa (opKind op) (opSet op)
  | 7 => specXmss (opKind op) (opSet op)
  | 8 => specSlh (opKind op) (opSet op)
  | _ => none

/-- A length is permitted: none listed means absent. -/
def lenOk (rs : List (Nat × Nat)) (n : Nat) : Bool :=
  if rs = [] then n == 0 else rs.any (fun r => decide (r.1 ≤ n ∧ n ≤ r.2))

/-- A hash code of Table 04-8. -/
def hashCode (b : Byte) : Bool := unkeyed b && b != 0x40

/-- The parameter block is in form for its operation (R224). -/
def paramsOk (op : BitVec 16) (p : Bytes) : Bool :=
  let b (i : Nat) : Byte := p.getD i 0
  let zeroFrom (i : Nat) : Bool := (p.drop i).all (· == 0)
  let f := opFam op
  let k := opKind op
  if f = 2 ∧ (k = 1 ∨ k = 2) then
    decide ((b 0).toNat ≤ 2) && (if b 0 = 0 then b 1 == 0 else hashCode (b 1)) &&
      (if b 0 = 2 then decide ((b 2).toNat ≤ 64) else b 2 == 0) && zeroFrom 3
  else if f = 2 ∧ (k = 3 ∨ k = 4) then
    decide ((b 0).toNat ≤ 1) && (if b 0 = 0 then b 1 == 0 else hashCode (b 1)) && zeroFrom 2
  else if f = 2 then
    let bits := leNat ((p.drop 2).take 2)
    b 0 == 0 && b 1 == 0 && decide (1024 ≤ bits) && decide (bits ≤ 8192) && bits % 1024 == 0 && zeroFrom 4
  else if f = 3 then decide ((b 0).toNat ≤ 1) && (if b 0 = 0 then b 1 == 0 else hashCode (b 1)) && zeroFrom 2
  else if f = 4 then decide ((b 0).toNat ≤ 2) && (b 0 != 2 || opSet op == 1) && zeroFrom 1
  else if f = 6 ∧ k = 2 then decide ((b 0).toNat ≤ 1) && (b 1 == 0 || hashCode (b 1)) && zeroFrom 2
  else b 0 == 0 && (b 1 == 0 || hashCode (b 1)) && zeroFrom 2

/-! ## Contexts and windows -/

/-- The context of a job wherever it stands (R218). -/
def State.ctxOf (s : State) (j : Job) : Ctx :=
  match s.lanes.toList.find? (fun x => x.run == some j.slot) with
  | some x => x.bank
  | none =>
    match s.lanes.toList.findSome? (fun x => tget x.resident j.slot) with
    | some c => c
    | none => j.block

/-- Bytes of a job's window (R218). -/
def State.windowBytes (s : State) (j : Job) (r : Nat × Nat) : Bytes := Memory.readBytes (s.ctxOf j).window r.1 r.2

/-! ## The call block (Table 04-10) -/

/-- The call a block describes, queued at a place. -/
def parseCall (b : Bytes) (off order : Nat) (key : Option Handle) : PkeCall :=
  let f (o n : Nat) : Nat := leNat ((b.drop o).take n)
  { op := BitVec.ofNat 16 (f 0 2), blockOff := off, chain := (f 2 2).testBit 4, key := key,
    ins := (List.range 6).map (fun i => (f (8 + 4 * i) 2, f (10 + 4 * i) 2)),
    outs := (List.range 2).map (fun i => (f (0x20 + 4 * i) 2, f (0x22 + 4 * i) 2)), order := order }

/-- Reserved bits of a call block are zero (R8, R225). -/
def blockReserved (b : Bytes) : Bool :=
  leNat ((b.drop 2).take 2) / 32 == 0 && (b.drop 4).take 4 == zeros 4 && (b.drop 0x28).take 24 == zeros 24

/-- Input i names a retained operand (R214). -/
def PkeCall.retains (c : PkeCall) (i : Nat) : Bool := c.chain && c.ins.getD i (0, 0) == (0xFFFF, 0)

/-- S0 to S5 of a job's region, empty without one (R214). -/
def Job.staged (j : Job) : List Bytes := (j.region.map (·.retained)).getD []

/-- The bytes of input i: from the window, or the retained operand (R214, R218). -/
def State.inputOf (s : State) (j : Job) (c : PkeCall) (i : Nat) : Bytes :=
  if c.retains i then j.staged.getD i [] else s.windowBytes j (c.ins.getD i (0, 0))

/-- IN5 carries a key-creation record, or names a staged one (R214, R226). -/
def PkeCall.creates (c : PkeCall) : Bool := ((c.ins.getD 5 (0, 0)).2 == 64 || c.retains 5) && opFam c.op != 0

/-- Lengths of outputs as Table 06-2 gives them for the call: a secret that becomes a node gives its 8-byte handle (R226). -/
def OpSpec.outLens (p : OpSpec) (c : PkeCall) (i : Nat) : List (Nat × Nat) :=
  if p.secret = some i && c.creates then len 8
  else if i = 0 then p.out0
  else if p.keygen && !c.creates then []
  else p.out1

/-- The relation Table 06-2 gives between input lengths: a and b of MODMUL, MODADD and MODSUB are no longer than m. -/
def lensRelated (op : BitVec 16) (len : Nat → Nat) : Bool :=
  if opFam op = 1 ∧ opKind op ≤ 3 then decide (len 0 ≤ len 2) && decide (len 1 ≤ len 2) else true

/-- Input lengths stand in the relation so far as the window's ranges tell; retained operands are looked at when the operation starts (R214, R215). -/
def PkeCall.related (c : PkeCall) : Bool :=
  c.retains 2 || lensRelated c.op (fun i => if c.retains i then 0 else (c.ins.getD i (0, 0)).2)

/-- S0 to S5 after a STAGE call with these inputs: replaced, or with CHAIN 1 appended to operand by operand (R214, R223, Table 06-2). -/
def stagedAfter (chain : Bool) (old inputs : List Bytes) : List Bytes :=
  (List.range 6).map (fun i => (if chain then old.getD i [] else []) ++ inputs.getD i [])

/-- Bytes that would stand in S0 to S5 after a STAGE call. -/
def State.stageTotal (s : State) (j : Job) (c : PkeCall) : Nat :=
  ((stagedAfter c.chain j.staged ((List.range 6).map (s.inputOf j c))).map List.length).sum

/-- STAGE: at least one input, 48 KiB in all (Table 06-2). -/
def State.stageOk (s : State) (j : Job) (c : PkeCall) : Bool :=
  c.ins.any (fun r => r != (0, 0)) && decide (s.stageTotal j c ≤ 49152)

/-- OUT LEN is a capacity: none for an output the operation does not give, from 16 to 256 bytes for the output of NONCE, otherwise any but 0 (R222, R225; log 65). -/
def capOk (op : BitVec 16) (rs : List (Nat × Nat)) (n : Nat) : Bool :=
  if rs = [] then n == 0 else if op = 0x0030 then lenOk rs n else decide (0 < n)

/-- IN5: 64 bytes or S5 where the operation takes a record and the program may make keys, otherwise absent (R222, R226). -/
def PkeCall.in5Ok (c : PkeCall) (p : OpSpec) (mayMake : Bool) : Bool :=
  if c.creates then p.in5 != 0 && mayMake else (c.ins.getD 5 (0, 0)).2 == 0 && p.in5 != 2

/-- Every length, the parameter block and the key-record resource are as the tables give them (R215, R224, R226). -/
def State.callFormed (s : State) (j : Job) (c : PkeCall) (p : OpSpec) : Bool :=
  ((List.range 5).all (fun i => c.retains i && (p.ins.getD i [] != []) || lenOk (p.ins.getD i []) (c.ins.getD i (0, 0)).2)) &&
    (if c.op = 0x0020 then s.stageOk j c else c.in5Ok p (j.header.resources.getLsbD 4)) &&
    ((List.range 2).all (fun i => capOk c.op (p.outLens c i) (c.outs.getD i (0, 0)).2)) && c.related &&
    (p.ins.getD 1 [] != len 8 || paramsOk c.op (s.inputOf j c 1))

/-! ## Region sets (R210 to R213) -/

/-- Regions of 4 KiB for a modulus of n bytes. -/
def modulusRegions (n : Nat) : Nat := if n ≤ 256 then 2 else if n ≤ 512 then 4 else if n ≤ 1024 then 8 else 16

/-- Bytes of the modulus of a modular or RSA call: IN2, the key's public part (n and the 32-byte e), or the size asked for. -/
def State.modulusLen (s : State) (j : Job) (c : PkeCall) : Nat :=
  if opFam c.op = 2 ∧ opKind c.op = 5 then leNat (((s.inputOf j c 1).drop 2).take 2) / 8
  else
    let n := (s.inputOf j c 2).length
    if 0 < n then n else match c.key.bind (s.keyNode j.bound) with
      | some k => k.pub.length - 32
      | none => (j.region.bind (·.chained)).elim 0 (fun b => (rsaKey b).k)

/-- The region set a call needs (R210). -/
def State.regionSet (s : State) (j : Job) (c : PkeCall) : Nat :=
  let held := if c.op = 0x0020 then s.stageTotal j c else if c.chain then (j.staged.map List.length).sum else 0
  if 8192 < held then 16
  else match opFam c.op with
  | 1 | 2 => modulusRegions (s.modulusLen j c)
  | 6 | 7 => 4
  | 8 => 16
  | _ => 2

/-- Regions of an engine a job takes: its set, and the copy a repeat of its call works in (R210, R236). -/
def Job.regionsOn (j : Job) (e : Fin 16) : Nat :=
  match j.region with
  | some r => (if r.engine = some e then r.size else 0) + (if r.copy = some e then r.size else 0)
  | none => 0

/-- Regions of an engine that the repeats of the partner take. -/
def State.repeatRegions (s : State) (e : Fin 16) : Nat :=
  (s.pke.twinRepeats.map (fun r => if r.engine = some e ∧ r.digest = none then r.size else 0)).sum

/-- Regions of an engine taken. -/
def State.regionsUsed (s : State) (e : Fin 16) : Nat := (s.jobs.map (·.regionsOn e)).sum + s.repeatRegions e

/-- Regions of an engine taken by others than the job of a slot. -/
def State.regionsOfOthers (s : State) (e : Fin 16) (slot : Nat) : Nat :=
  ((s.jobs.filter (fun j => j.slot != slot)).map (·.regionsOn e)).sum + s.repeatRegions e

/-- A job has an operation outstanding (R213). -/
def Job.pkeBusy (j : Job) : Bool :=
  match j.pke with | some c => c.phase != .latched && c.phase != .aborted | none => false

/-- The job whose region on an engine is spilled next: least recently used, none outstanding (R213). -/
def State.spillVictim (s : State) (e : Fin 16) (slot : Nat) : Option Nat :=
  let rs := s.jobs.filterMap (fun j => match j.region with
    | some r => if r.engine = some e ∧ j.slot ≠ slot ∧ !j.pkeBusy then some (r.lru, j.slot) else none
    | none => none)
  (rs.foldl (fun (b : Option (Nat × Nat)) x => match b with | none => some x | some y => if x.1 < y.1 then some x else some y) none).map (·.2)

/-- Spill regions of other jobs on an engine until n are free beside the calling job's own; none where that cannot be (R213). -/
def State.makeRoom (s : State) (e : Fin 16) (slot n : Nat) : Nat → Option State
  | 0 => if s.regionsOfOthers e slot + n ≤ 16 then some s else none
  | k + 1 =>
    if s.regionsOfOthers e slot + n ≤ 16 then some s
    else match s.spillVictim e slot with
      | none => none
      | some v => (s.modJob v (fun j => { j with region := j.region.map (fun r => { r with engine := none }) })).makeRoom e slot n k

/-! ## Times (Tables 06-3 to 06-5, R229 to R231) -/

/-- Set bits of a number below 2^k. -/
def ones (n k : Nat) : Nat := ((List.range k).filter n.testBit).length

/-- A value of a row by modulus size in bytes (Table 06-3). -/
def bySize (n a b c d e f : Nat) : Nat :=
  if n ≤ 128 then a else if n ≤ 256 then b else if n ≤ 384 then c else if n ≤ 512 then d else if n ≤ 1024 then e else f

/-- MODMUL in nanoseconds for a modulus of n bytes (Table 06-5). -/
def modmulNs (n : Nat) : Nat := 1000 + (8 * n) * (8 * n) * 700 / (2048 * 2048)

/-- A value by curve set (Table 06-4), microseconds. -/
def byCurve (set a b c d e f : Nat) : Nat := match set with | 1 => a | 2 => b | 3 => c | 4 => d | 5 => e | _ => f

/-- The maximum time of a call in nanoseconds (Tables 06-3 to 06-5). -/
def State.pkeMaxNs (s : State) (j : Job) (c : PkeCall) : Nat :=
  let n := s.modulusLen j c
  let f := opFam c.op
  let k := opKind c.op
  let set := opSet c.op
  let e := beNat (s.inputOf j c 3)
  let scale (t : Nat) : Nat := t * (bitLen e + ones e 256 - 2) / 17
  let ex := s.inputOf j c 1
  let msg := (s.inputOf j c 0).length
  match f with
  | 0 => (if c.op = 0x0020 then 80 * ((((List.range 6).map (fun i => (s.inputOf j c i).length)).sum + 4095) / 4096) else if c.op = 0x0010 then 200 else 1000) + 4000
  | 1 =>
    if k ≤ 3 then modmulNs n + 4000
    else if k = 4 then bySize (max n ex.length) 1700000 1700000 12500000 12500000 94000000 730000000 + 4000
    else if k = 5 then (bitLen (beNat ex) + ones (beNat ex) (8 * ex.length)) * modmulNs n + 4000
    else 44000
  | 2 =>
    (match k with
     | 1 => bySize n 72000 470000 1440000 3267000 24250000 185960000 + 4000
     | 3 => bySize n 68000 458000 1414000 3222000 24080000 185300000 + 4000
     | 5 => bySize n 250000000 800000000 3000000000 8000000000 90000000000 90000000000
     | _ => scale (bySize n 6000 15000 32000 51000 190000 730000) + 4000)
  | 3 =>
    (match k with
      | 1 => 1000 * byCurve set 35 80 164 43 95 173 + 4000
      | 2 => 1000 * byCurve set 22 49 101 27 59 107 + 4000
      | 5 => 2000
      | _ => 1000 * byCurve set 13 29 60 16 35 63 + 4000)
  | 4 =>
    (match k with
     | 1 => (if set = 1 then 27000 + 42 * (msg / 128) else 73000 + 17 * (msg / 136) / 10)
     | 2 => (if set = 1 then 17000 + 42 * (msg / 128) else 45000 + 17 * (msg / 136) / 10)
     | _ => if set = 1 then 10000 else 25000) + 4000
  | 5 =>
    1000 * (match k, set with
      | 1, 1 => 12 | 2, 1 => 14 | 3, 1 => 17
      | 1, 2 => 16 | 2, 2 => 18 | 3, 2 => 22
      | 1, _ => 21 | 2, _ => 24 | _, _ => 29)
  | 6 =>
    1000 * (match k, set with
      | 1, 1 => 19 | 3, 1 => 19 | 2, 1 => 4540
      | 1, 2 => 29 | 3, 2 => 25 | 2, 2 => 6470
      | 1, _ => 42 | 3, _ => 35 | _, _ => 10960)
  | 7 => if k = 1 then 180004000 else if k = 2 then 70000 else 8000
  | _ =>
    1000 * (match set with
      | 1 => 60 | 2 => 170 | 3 => 95 | 4 => 250 | 5 => 160 | 6 => 340
      | 7 => 11 | 8 => 30 | 9 => 17 | 10 => 45 | 11 => 28 | _ => 60) + 4000

/-! ## Engines (R216, R217, R236) -/

/-- Engines that may start operations at the thermal level (Table 01-5). -/
def State.pkeCap (s : State) : Nat := match s.frame.level with | 0 => 16 | 1 => 14 | 2 => 12 | _ => 8

/-- An engine in service with its domain on. -/
def State.pkeUp (s : State) (e : Fin 16) : Bool := !s.fenced (elemOf .pke e.val) && !s.shut (pkeDomain e.val)

/-- Engines that may hold an assignment in this frame: in service and below the thermal cap (R217, Table 01-4). -/
def State.pkeCapacity (s : State) : Nat := ((List.finRange 16).filter (fun e => decide (e.val < s.pkeCap) && s.pkeUp e)).length

/-- A minimum in per-mille: after an adoption, where the minima of a resource add up to more than 1,000, each scaled by 1,000 over their sum (R393). -/
def State.minOf (s : State) (i r : Nat) : Nat :=
  let m (x : Inst) : Nat := x.share.mins.getD r 0
  let sum := (s.insts.map (fun (e : Nat × Inst) => m e.2)).sum
  let own := (s.inst i).elim 0 m
  if sum ≤ 1000 then own else own * 1000 / sum

/-- The instance an engine runs a call for. -/
def State.engineInst (s : State) (e : Fin 16) : Option Nat := (s.pke.running[e]).bind (fun slot => (s.job slot).map (·.inst))

/-- Engines that run calls of an instance, second engines of repeats included (R216, R236). -/
def State.enginesRunning (s : State) (inst : Nat) : Nat := ((List.finRange 16).filter (fun e => s.engineInst e == some inst)).length

/-- An engine that runs nothing. -/
def State.pkeIdle (s : State) (e : Fin 16) : Bool :=
  s.pkeUp e && (s.pke.running[e]).isNone && !(s.pke.twinRepeats.any (fun r => r.engine == some e && r.digest.isNone))

/-- Engines in R26 order. -/
def State.pkeOrder (s : State) : List (Fin 16) := (rotated 16 s.frame.num).filterMap (fun n => if h : n < 16 then some ⟨n, h⟩ else none)

/-- Operations that repeat and compare (Table 06-7). -/
def repeats (op : BitVec 16) : Bool :=
  match opSpec op with
  | some p => p.keygen || p.secret.isSome
  | none => false

/-- Operations that verify before release (Table 06-7). -/
def signs (op : BitVec 16) : Bool :=
  match opSpec op with
  | some p => match p.key with | some (_, u) => u == uSign | none => false
  | none => false

/-- Cross-check mode is in force (R239). -/
def State.crossChecks (s : State) : Bool := s.twin.xcheck && decide (s.twin.state = .paired)

/-- The second engine of a local repeat: of the same instance, then unassigned, then of another (R236). -/
def State.secondEngine (s : State) (e : Fin 16) (inst : Nat) : Option (Fin 16) :=
  let idle := s.pkeOrder.filter (fun x => x != e && s.pkeIdle x && decide (x.val < s.pkeCap))
  match idle.find? (fun x => s.frame.assigned[x] == some inst) with
  | some x => some x
  | none => match idle.find? (fun x => (s.frame.assigned[x]).isNone) with
    | some x => some x
    | none => idle.head?

/-- Only one engine is in service (R237). -/
def State.oneEngine (s : State) : Bool := ((List.finRange 16).filter s.pkeUp).length == 1

/-- An operation draws a seed at its start (R227). -/
def seeded (op : BitVec 16) (params : Bytes) : Bool :=
  let m := params.getD 0 0
  match opFam op, opKind op with
  | 0, 3 => true
  | 2, 1 => m == 2
  | 2, 4 => m == 1
  | 2, 5 => true
  | 3, 1 => m == 0
  | 3, 4 => true
  | 4, 4 => true
  | 4, 5 => true
  | 5, 1 => true
  | 5, 2 => true
  | 6, 1 => true
  | 6, 2 => m == 0
  | 7, 1 => true
  | _, _ => false

/-- A retained operand that is empty or of a wrong length ends the operation (R214); so does a chained key that is not there. -/
def PkeCall.chainBroken (c : PkeCall) : Bool :=
  let x (i : Nat) : Bytes := c.inputs.getD i []
  match opSpec c.op with
  | none => true
  | some p =>
    ((List.range 5).any (fun i => c.retains i && (x i == [] || !lenOk (p.ins.getD i []) (x i).length))) ||
      (c.retains 5 && (x 5).length != 64 && opFam c.op != 0) ||
      ((List.range 6).any c.retains && !lensRelated c.op (fun i => (x i).length)) ||
      (p.key.isSome && c.key.isNone && c.chainKey.isNone)

/-- The operation takes the job's chained private key (R214, R226). -/
def PkeCall.takesChained (c : PkeCall) : Bool := c.chain && c.key.isNone && ((opSpec c.op).bind (·.key)).isSome

/-- A chained call needs what was discarded when an engine was fenced: a retained operand nothing has replaced, S0 to S5 to append to, or the chained key (R238). -/
def PkeCall.needsLost (c : PkeCall) (r : Region0) : Bool :=
  (r.stale && (c.op == 0x0020 || (List.range 6).any c.retains)) || (c.takesChained && r.chained.isNone)

/-- The fenced engine whose discarded region a chained call needs (R238). -/
def Job.lostTo (j : Job) (c : PkeCall) : Option (Fin 16) :=
  if c.chain then j.region.bind (fun r => if c.needsLost r then r.lost else none) else none

/-- Put a call's record back in its job. -/
def State.setCall (s : State) (slot : Nat) (c : Option PkeCall) : State := s.modJob slot (fun j => { j with pke := c })

/-- Occupy an engine. -/
def State.occupy (s : State) (e : Fin 16) (slot : Option Nat) : State :=
  { s with pke := { s.pke with running := s.pke.running.set e.val slot e.isLt } }

/-- The region a call works in: zeroed for CHAIN 0, kept and grown for CHAIN 1 (R210, R211, R213). -/
def Job.regionFor (j : Job) (c : PkeCall) (size : Nat) (e : Fin 16) (frame : Nat) : Region0 :=
  match j.region with
  | some r => if c.chain then { r with size := max r.size size, engine := some e, copy := c.second, lru := frame }
              else { size := size, engine := some e, copy := c.second, lru := frame }
  | none => { size := size, engine := some e, copy := c.second, lru := frame }

/-- The call as its engine takes it up: what it reads at its start, kept where it starts again (R218, R227, R238). -/
def State.readCall (s : State) (j : Job) (c : PkeCall) : PkeCall :=
  if c.inputs = [] then
    { c with inputs := (List.range 6).map (s.inputOf j c), chainKey := if c.takesChained then j.region.bind (·.chained) else none }
  else c

/-- The seed of a call: the one it drew before, one of those an adopted job takes again, or 64 bytes drawn (R220, R227). -/
def State.callSeed (s : State) (j : Job) (c : PkeCall) : Option Bytes × State :=
  if c.seed.isSome || !seeded c.op (c.inputs.getD 1 []) then (c.seed, s)
  else match j.seeds with
    | old :: rest => (some old, s.modJob j.slot (fun (x : Job) => { x with seeds := rest }))
    | [] => (let r := s.takeRandom 64; (some r.1, r.2))

/-- A repeat-class call that runs twice on the only engine in service is counted; its event is recorded once in the frame (R237). -/
def State.countSingle (s : State) (e : Fin 16) : State :=
  { s with pke := { s.pke with singleRepeats := s.pke.singleRepeats + 1, singleEngine := e.val } }

/-- The engine starts a call: inputs are read, the seed is drawn, the region is taken; a call started again after a watchdog records event 0x4004 (R211, R218, R227, R244). -/
def State.startCall (s : State) (j : Job) (c : PkeCall) (e : Fin 16) (second : Option (Fin 16)) (size : Nat) : State :=
  let c0 := s.readCall j c
  let (seed, s1) := s.callSeed j c0
  let lost := if c.inputs = [] then j.lostTo c else none
  let st := if lost.isSome then St.faultDetected else if c0.chainBroken then St.accessFault else St.ok
  let here := repeats c.op && (c.localRepeat || !s.crossChecks)
  let c1 := { c0 with phase := .running, engine := some (lost.getD e), second := second, start := s.frame.num, seed := seed,
                      status := st, localRepeat := here, movedFrom := none }
  let s2 := s1.modJob j.slot (fun x => { x with pke := some c1, region := some (x.regionFor c1 size e s.frame.num) })
  let s3 := s2.occupy e (some j.slot)
  let s4 := match second with | some x => s3.occupy x (some j.slot) | none => s3
  let s5 := match c.movedFrom with | some f => s4.raise 0x4004 j.hollow f.val e.val c.op.toNat | none => s4
  if here && second.isNone then s5.countSingle e else s5

/-- Engines assigned to an instance before this one, in number order: an engine beyond the minimum is borrowed (R216). -/
def State.borrowed (s : State) (inst : Nat) (e : Fin 16) : Bool :=
  let floor := s.minOf inst 2 * s.pkeCapacity / 1000
  decide (floor ≤ ((List.finRange 16).filter (fun x => decide (x.val < e.val) && s.frame.assigned[x] == some inst)).length)

/-- The calls of an instance that wait, oldest first (R215). -/
def State.callQueue (s : State) (inst : Nat) : List (Job × PkeCall) :=
  sortBy (fun a b => decide (a.2.order ≤ b.2.order))
    (s.jobs.filterMap (fun j => match j.pke with
      | some c => if j.inst = inst ∧ c.phase = .queued then some (j, c) else none
      | none => none))

/-- One resource of five. -/
def Five.get (f : Five) : Nat → Nat
  | 0 => f.lanes | 1 => f.cipher | 2 => f.pke | 3 => f.hash | _ => f.drbg

/-- Units of a resource granted to an instance in this frame (R39). -/
def State.granted (s : State) (i r : Nat) : Nat := ((tget s.frame.grants i).getD {}).get r

/-- An instance runs fewer engines than its grant gives it: it may start a call (R216, R236). -/
def State.withinGrant (s : State) (inst : Nat) : Bool := decide (s.enginesRunning inst < s.granted inst 2)

/-- Start what one assigned idle engine may start: no engine at or above the thermal cap, none beyond the instance's grant, on a borrowed engine only within the lending horizon, where 0 counts as 1 (R40, R216, R217, R236, Table 01-7). -/
def State.startOn (s : State) (e : Fin 16) : State :=
  match s.frame.assigned[e] with
  | none => s
  | some inst =>
    if !s.pkeIdle e || s.pkeCap ≤ e.val || !s.withinGrant inst then s
    else
      let lim := max 1 s.frame.horizon * 10000
      match (s.callQueue inst).find? (fun x => !s.borrowed inst e || decide (s.pkeMaxNs x.1 x.2 ≤ lim)) with
      | none => s
      | some (j, c) =>
        let size := max (s.regionSet j c) (if c.chain then (j.region.map (·.size)).getD 0 else 0)
        let two := repeats c.op && (c.localRepeat || !s.crossChecks) && !s.oneEngine
        let second := if two then s.secondEngine e inst else none
        if two && second.isNone then s
        else match (s.makeRoom e j.slot size 16).bind (fun t => match second with | some x => t.makeRoom x j.slot size 16 | none => some t) with
          | none => s
          | some s1 => s1.startCall j c e second size

/-- From cycle 240 every assigned idle engine starts a call (R216). -/
def State.startCalls (s : State) : State :=
  if s.frame.cycle < 192 then s else s.pkeOrder.foldl (fun t e => t.startOn e) s

end Sys2Proof.Machine
end

