-- ==== Sys2Proof/Machine/Rom.lean ====
section
/-! DEFINITION. The ROM library's catalogue as program headers, and the program a descriptor names (Table 04-15, Table 04-16, R168, R169; log 31). -/

namespace Sys2Proof.Machine

/-- KEYn_SPEC: how the key is required, the usage bit it needs, counter-mode, invocations per job (Table 04-16). -/
def keySpec (required usage : Nat) (ctr : Bool) (invs : Nat) : Word :=
  BitVec.ofNat 64 (required + (if ctr then 4 else 0) + 8 * invs + 2 ^ (19 + usage))

/-- A required key with one usage bit. -/
def needs (usage : Nat) : Word := keySpec 2 usage false 0

/-- ARG_RSV for a fixed part that uses the given byte ranges: first byte and count (R168). -/
def reservedBut (used : List (Nat × Nat)) : BitVec 128 :=
  BitVec.ofNat 128 (((List.range 128).filter (fun i => !used.any (fun r => decide (r.1 ≤ i ∧ i < r.1 + r.2)))).foldl (fun n i => n + 2 ^ i) 0)

/-- Fields of the common argument block (Table 04-11). -/
def fIv (n : Nat) : Nat × Nat := (0, n)
def fAadLen : Nat × Nat := (0x10, 4)
def fTagLen : Nat × Nat := (0x18, 1)
def fAlg : Nat × Nat := (0x19, 1)
def fAux : Nat × Nat := (0x1A, 2)
def fOutLen : Nat × Nat := (0x1C, 4)
def fAux2 : Nat × Nat := (0x20, 16)
/-- The KSN in bytes 0 to 11 of AUX2. -/
def fKsn : Nat × Nat := (0x20, 12)
def fExpect : Nat × Nat := (0x40, 64)

/-- A ROM header with no argument block, standard personality, 16 KiB window and 16-byte blocks; the image is not in the spec (log 13, 31). -/
def romBase (id : Nat) : Header :=
  { magic := 0x47494E31, program := BitVec.ofNat 16 id, version := 0, hollow := false, personality := 1, windowKib := 16, block := 16,
    entry := Config.romEntry id, imageLen := 0, constLen := 0, lenMin := 0, lenMax := 2 ^ 40 - 1, padModes := 0, outFree := false,
    decrypt := false, cs3 := false, res := false, argFix := 0, argVar := 0xFFFF, argMax := 0, resOff := 0, resLen := 0, resources := 1,
    key0Spec := 0, key1Spec := 0, argRsv := 0, rsv := false }

/-- A header with an argument block that uses the given fields; with a tail, its length stands at 0x10 (Table 04-11). -/
def withArgs (h : Header) (used : List (Nat × Nat)) (tail : Bool) : Header :=
  { h with argFix := 0x80, argVar := if tail then 0x10 else 0xFFFF, argMax := if tail then 0x2080 else 0x80, argRsv := reservedBut used }

/-- PAD_MODES for ECB (0x00 to 0x03), CBC with stealing, partial blocks, XTS. -/
def padsEcb : BitVec 16 := 0x000F
def padsCbc : BitVec 16 := 0x002F
def padsAny : BitVec 16 := 0x0010
def padsXts : BitVec 16 := 0x0021

/-- AES and TDEA modes by position in their group: ECB, CBC, CTR, CFB, OFB (rows 0x0001 to 0x0008, 0x0011 to 0x0018). -/
def romCipher (h : Header) (k : Nat) (tdea : Bool) : Option Header :=
  let enc := needs uEncrypt
  let dec := needs uDecrypt
  let h := { h with block := if tdea then 8 else 16 }
  let iv : Nat × Nat := fIv (if tdea then 8 else 16)
  let cbc : BitVec 16 := if tdea then padsEcb else padsCbc
  match k with
  | 1 => some { h with padModes := padsEcb, key0Spec := enc }
  | 2 => some { h with padModes := padsEcb, key0Spec := dec, decrypt := true }
  | 3 => some (withArgs { h with padModes := cbc, key0Spec := enc, cs3 := !tdea } [iv] false)
  | 4 => some (withArgs { h with padModes := cbc, key0Spec := dec, decrypt := true, cs3 := !tdea } [iv] false)
  | 5 => some (withArgs { h with padModes := padsAny, key0Spec := enc } (if tdea then [iv] else [iv, fAux]) false)
  | 6 => some (withArgs { h with padModes := padsAny, key0Spec := enc } [iv] false)
  | 7 => some (withArgs { h with padModes := padsAny, key0Spec := dec, decrypt := true } [iv] false)
  | 8 => some (withArgs { h with padModes := padsAny, key0Spec := enc } [iv] false)
  | _ => none

/-- Authenticated modes, XTS, MACs (rows 0x0021 to 0x002C). -/
def romAuth (h : Header) (id : Nat) : Option Header :=
  let p := { h with padModes := padsAny }
  let gcmLen := 2 ^ 36 - 32
  match id with
  | 0x21 => some (withArgs { p with key0Spec := keySpec 2 uEncrypt true 1, lenMax := gcmLen, res := true, resLen := 16 } [fIv 4, fTagLen, fAadLen] true)
  | 0x22 => some (withArgs { p with key0Spec := needs uDecrypt, lenMax := gcmLen, decrypt := true } [fIv 12, fTagLen, fExpect, fAadLen] true)
  | 0x23 => some (withArgs { p with key0Spec := keySpec 2 uMacGen true 1, lenMax := gcmLen, res := true, resLen := 16 } [fIv 4, fTagLen, fAadLen] true)
  | 0x24 => some (withArgs { p with key0Spec := needs uMacVer, lenMax := gcmLen } [fIv 12, fTagLen, fExpect] false)
  | 0x25 => some (withArgs { p with key0Spec := needs uEncrypt } [fIv 13, fAux, fTagLen, fAadLen] true)
  | 0x26 => some (withArgs { p with key0Spec := needs uDecrypt, decrypt := true } [fIv 13, fAux, fTagLen, fExpect, fAadLen] true)
  | 0x27 => some (withArgs { h with padModes := padsXts, key0Spec := needs uEncrypt, lenMin := 16, lenMax := 2 ^ 24 } [fAux2] false)
  | 0x28 => some (withArgs { h with padModes := padsXts, key0Spec := needs uDecrypt, lenMin := 16, lenMax := 2 ^ 24, decrypt := true } [fAux2] false)
  | 0x29 => some (withArgs { p with key0Spec := needs uMacGen } [fTagLen] false)
  | 0x2A => some (withArgs { p with key0Spec := needs uMacVer } [fTagLen, fExpect] false)
  | 0x2B => some (withArgs { p with key0Spec := needs uMacGen, block := 8 } [fTagLen] false)
  | 0x2C => some (withArgs { p with key0Spec := needs uMacVer, block := 8 } [fTagLen, fExpect] false)
  | _ => none

/-- Key wrapping (rows 0x0031 to 0x0034). -/
def romWrap (h : Header) (id : Nat) : Option Header :=
  let b := { h with block := 8 }
  match id with
  | 0x31 => some { b with padModes := 1, key0Spec := needs uWrap, lenMin := 16, lenMax := 2 ^ 31 }
  | 0x32 => some { b with padModes := 1, key0Spec := needs uUnwrap, lenMin := 24, lenMax := 2 ^ 31 + 8, decrypt := true }
  | 0x33 => some { b with padModes := padsAny, key0Spec := needs uWrap, lenMin := 1, lenMax := 2 ^ 31 }
  | 0x34 => some { b with padModes := padsAny, key0Spec := needs uUnwrap, lenMin := 16, lenMax := 2 ^ 31 + 8, decrypt := true }
  | _ => none

/-- Hashes, MACs over hashes and random output (rows 0x0041 to 0x0061). -/
def romHash (h : Header) (id : Nat) : Option Header :=
  let p := { h with padModes := padsAny, resources := 2 }
  match id with
  | 0x41 => some (withArgs { p with key0Spec := needs uMacGen, outFree := true } [fAlg, fTagLen, fOutLen] false)
  | 0x42 => some (withArgs { p with key0Spec := needs uMacVer } [fAlg, fTagLen, fExpect] false)
  | 0x43 => some (withArgs { p with key0Spec := needs uMacGen, outFree := true } [fAlg, fTagLen, fOutLen, fAadLen] true)
  | 0x44 => some (withArgs { p with key0Spec := needs uMacVer } [fAlg, fTagLen, fExpect, fAadLen] true)
  | 0x51 => some (withArgs { p with outFree := true } [fAlg, fOutLen] false)
  | 0x52 => some (withArgs { p with outFree := true } [fAlg, fOutLen] false)
  | 0x61 => some (withArgs { h with resources := 4, lenMax := 0, outFree := true } [fAlg, fOutLen, fAadLen] true)
  | _ => none

/-- Programs of the Hollow world and the copy (rows 0x0071 to 0x00F0). -/
def romHollow (h : Header) (id : Nat) : Option Header :=
  let w := { h with hollow := true }
  match id with
  | 0x71 => some (withArgs { w with key0Spec := needs uPin, key1Spec := needs uPin, lenMin := 8, lenMax := 16, resources := 5 } [fAlg, fAux, fAux2] false)
  | 0x81 => some (withArgs { w with key0Spec := needs uBdk, key1Spec := needs uPin, lenMin := 16, lenMax := 16, resources := 5 }
      [fAux, fKsn, fAlg, fIv 16, fExpect] false)
  | 0x82 => some (withArgs { w with key0Spec := needs uBdk, padModes := 1 } [fAux, fKsn, fIv 16, fExpect] false)
  | 0x83 => some (withArgs { w with key0Spec := needs uBdk } [fAux, fKsn, fIv 16, fExpect] false)
  | 0x91 => some (withArgs { w with key0Spec := needs uKbpk, key1Spec := 2, lenMax := 0, outFree := true, resources := 5 } [fOutLen] false)
  | 0x92 => some (withArgs { w with key0Spec := needs uKbpk, resources := 0x11, res := true, resLen := 8 } [fAux2] false)
  | 0xC0 => some { w with personality := 2, lenMin := 1, lenMax := 4096, resources := 1 }
  | 0xF0 => some { h with padModes := padsAny, resources := 0 }
  | _ => none

/-- The header of a ROM program (Table 04-15). -/
def romHeader (id : Nat) : Option Header :=
  let h := romBase id
  if id < 0x10 then romCipher h id false
  else if id < 0x20 then romCipher h (id - 0x10) true
  else if id < 0x30 then romAuth h id
  else if id < 0x40 then romWrap h id
  else if id < 0x70 then romHash h id
  else romHollow h id

/-- The key types a ROM program takes for KEY0 (false) and KEY1 (true) (Table 04-15). -/
def romKeyType (id : Nat) (second : Bool) (t : BitVec 8) : Bool :=
  if second then (if id = 0x91 then true else isAes t || isTdea t)
  else if id < 0x10 ∨ (0x21 ≤ id ∧ id ≤ 0x26) ∨ id = 0x29 ∨ id = 0x2A ∨ (0x31 ≤ id ∧ id ≤ 0x34) then isAes t
  else if id < 0x20 ∨ id = 0x2B ∨ id = 0x2C then isTdea t
  else if id = 0x27 ∨ id = 0x28 then isXts t
  else if id = 0x41 ∨ id = 0x42 then isHmac t
  else if id = 0x43 ∨ id = 0x44 then isKmac t
  else if id = 0x71 then isAes t || isTdea t
  else if id = 0x92 then isAes t || isTdea t
  else if 0x81 ≤ id ∧ id ≤ 0x91 then isAes t
  else true

/-- A ROM program that uses TDEA needs TDEA_OK of a TDEA key (rank 7). -/
def isTdeaProgram (id : Nat) : Bool := decide (0x10 < id ∧ id < 0x20) || id == 0x2B || id == 0x2C

/-- A program produces output through so0: the ROM rows whose output is DST; an owner program counts as one that does (R55; log 31). -/
def producesOutput (id : Nat) : Bool :=
  !([0x23, 0x24, 0x29, 0x2A, 0x2B, 0x2C, 0x42, 0x44, 0x83, 0x92].contains id)

/-- ROM programs (Table 04-15), in order of ID. -/
def romIds : List Nat := (List.range 0x100).filter (fun i => (romHeader i).isSome)

/-- The header and image of the program an instance names, if it is offered to the instance's personality (Table 02-11 rank 2). -/
def State.program (s : State) (inst id : Nat) : Option (Header × Bool) :=
  match s.inst inst with
  | none => none
  | some x =>
    let h := if id < 0x1000 then (romHeader id).map (fun h => (h, true)) else (tget x.progs id).map (fun p => (p.header, false))
    h.bind (fun r => if r.1.personality.getLsbD (x.share.personality - 1) then some r else none)

/-- The measurement of the program a job runs (R178). -/
def State.measureOfProgram (s : State) (inst id : Nat) : Dig :=
  if id < 0x1000 then Config.romMeasure id else ((s.inst inst).bind (fun x => tget x.progs id)).elim 0 (·.measure)

/-- The image and constants a job of a program keeps (R179); those of a ROM program are not in the spec (log 31). -/
def State.imageOfProgram (s : State) (inst id : Nat) : Bytes :=
  if id < 0x1000 then [] else ((s.inst inst).bind (fun x => tget x.progs id)).elim [] (·.image)

end Sys2Proof.Machine
end

