-- ==== Sys2Proof/Machine/Planner.lean ====
section
/-! DEFINITION. The planner: capacities, demand, grants, descriptors ready for admission (R21, R38 to R43, R63, R64). -/

namespace Sys2Proof.Machine

/-! ## Resources by number: 0 lanes, 1 cipher, 2 PKE, 3 hash, 4 DRBG (Table 01-4) -/

/-- Change one resource of five. -/
def Five.put (f : Five) (r v : Nat) : Five :=
  match r with
  | 0 => { f with lanes := v } | 1 => { f with cipher := v } | 2 => { f with pke := v } | 3 => { f with hash := v } | _ => { f with drbg := v }

/-! ## Capacity (R38, R42, R43, R138) -/

/-- Slots per lane at a thermal level (Table 01-5). -/
def slotCapOf (level : Nat) : Nat := match level with | 0 => 32 | 1 => 28 | 2 => 24 | _ => 16

/-- Slots per lane permitted in this frame. -/
def State.slotCap (s : State) : Nat := slotCapOf s.frame.level

/-- A lane the planner may grant on: in service, its cluster on, not stopped, and the Hollow running for a Hollow lane (R127, R359, R360, R365). -/
def State.laneUp (s : State) (n : Nat) : Bool :=
  match s.lanes.toList[n]? with
  | none => false
  | some x => !s.fenced (90 + n) && !s.shut (laneDomain n) && !x.stopped && (!x.hollow || s.hollowUp)

/-- First slot a lane offers: 10 in the frame of a world change (R138). -/
def Lane.firstSlot (x : Lane) : Nat := if x.changed then 10 else 0

/-- An element in service is under a forced test (R467). -/
def State.forced (s : State) (e : Nat) : Bool := (s.elem e).forcing.isSome && !s.fenced e

/-- Elements from number e on, n of them, under a forced test. -/
def State.forcedIn (s : State) (e n : Nat) : Nat := ((List.range n).filter (fun k => s.forced (e + k))).length

/-- Slots a lane offers in this frame: a forced test takes one in 7 frames (R467; log 30). -/
def State.laneSlots (s : State) (n : Nat) : Nat :=
  if s.laneUp n then
    s.slotCap - (s.lanes.toList.getD n {}).firstSlot - (if s.forced (90 + n) && s.frame.num % 7 == 0 then 1 else 0)
  else 0

/-- Cipher cores in service (R189). -/
def State.coresUp (s : State) : Nat := ((List.range 20).filter (fun n => !s.fenced n && !s.shut (coreDomain n))).length

/-- One per-mille of the cipher capacity, in dispatches; a forced test takes 60 cycles of a core (R189, R467). -/
def State.cipherUnit (s : State) : Nat := (s.coresUp * 11116 - 60 * s.forcedIn 0 20) / 1000

/-- Hash engines of a kind in service. -/
def State.hashUp (s : State) (sha : Bool) : Nat :=
  if sha then ((List.range 8).filter (fun n => !s.fenced (26 + n) && !s.shut (hashDomain (8 + n)))).length
  else ((List.range 6).filter (fun n => !s.fenced (20 + n) && !s.shut (hashDomain n))).length

/-- Cycles of a kind of hash engine per frame, 12,000 an engine, less 60 for each under a forced test (R196, R467). -/
def State.hashCycles (s : State) (sha : Bool) : Nat :=
  12000 * s.hashUp sha - 60 * (if sha then s.forcedIn 26 8 else s.forcedIn 20 6)

/-- DRBG instances in service. -/
def State.drbgUp (s : State) : Nat := ((List.range 8).filter (fun n => !s.fenced (34 + n))).length

/-- One per-mille of the DRBG output, in bytes: 60 with all eight in service, a forced test taking 60 of an instance's 12,000 cycles (R203, R467). -/
def State.drbgUnit (s : State) : Nat := 60 * (200 * s.drbgUp - s.forcedIn 34 8) / 1600

/-- The capacity of a resource in grant units (Table 01-4). -/
def State.capacity (s : State) (r : Nat) : Nat :=
  match r with
  | 0 => ((List.range 64).map s.laneSlots).sum
  | 2 => s.pkeCapacity
  | _ => 1000

/-! ## Demand (R21, R39) -/

/-- Slots a job asks for: 4 when newly admitted, else the slots used in the previous frame plus 1, up to 32; none while it waits (R21). -/
def Job.asks (j : Job) (frame : Nat) : Nat :=
  match j.st with
  | .runnable => if j.admittedAt = frame then 4 else min 32 (j.used + 1)
  | .running => min 32 (j.used + 1)
  | _ => 0

/-- Round up a division. -/
def ceilDiv (a b : Nat) : Nat := if b = 0 then 0 else (a + b - 1) / b

/-- Cycles of hash requests a job has queued, in 288ths of a per-mille (R196; log 30). -/
def State.hashQueued (s : State) (j : Job) : Nat :=
  (j.ctxs.map (fun e => if e.2.alg = 0x40 then 0 else
    (if isSha2 e.2.alg then 3 else 4) * ((e.2.reqs.map (e.2.chunkCycles (s.hashKey j e.2).length)).sum))).sum

/-- DRBG bytes a job has queued. -/
def Job.drbgQueued (j : Job) : Nat :=
  (j.ctxs.map (fun e => if e.2.alg = 0x40 then (e.2.reqs.map (fun r => match r with | .squeeze _ n => n | .absorb _ _ _ => 0)).sum else 0)).sum

/-- The demand of an instance as measured at the end of a frame: work done in it and work still queued (R39; log 30). -/
def State.demandOf (s : State) (i : Nat) : Five :=
  let js := s.jobs.filter (fun j => j.inst == i && !j.finished)
  let w := (tget s.frame.worked i).getD {}
  { lanes := (js.map (fun j => j.asks (s.frame.num + 1))).sum
    cipher := ceilDiv (w.cipher + (s.cipher.reqs.filter (fun r => r.inst == i && r.core.isNone)).length) s.cipherUnit
    pke := (js.filter (fun j => match j.pke with | some c => c.phase == .queued || c.phase == .running || c.phase == .computed | none => false)).length
    hash := ceilDiv (w.hash + (js.map s.hashQueued).sum) 288
    drbg := ceilDiv (w.drbg + (js.map Job.drbgQueued).sum) s.drbgUnit }

/-- Measure every instance's demand (R39). -/
def State.measure (s : State) : State :=
  { s with frame := { s.frame with demand := s.insts.map (fun e => (e.1, s.demandOf e.1)), worked := [] } }

/-! ## Descriptors that may be admitted (R24, R63, R64) -/

/-- Descriptors of a pair latched and fetched by the last cycle 0. -/
def QPair.arrived (q : QPair) : List Descriptor :=
  if q.active && !q.ringErr then q.fetched.take (min q.ready (q.sqLatched - q.taken).toNat) else []

/-- The manager may admit no work from an instance in any other state than ACTIVE (R312). -/
def Inst.admits (x : Inst) : Bool := decide (x.state = .active)

/-- The job slots an instance may still take (R24). -/
def State.quotaLeft (s : State) (i : Nat) : Nat := (s.inst i).elim 0 (fun x => x.share.jobSlots - s.inflightOf i)

/-- A little-endian field of a byte string. -/
def fieldAt (b : Bytes) (o n : Nat) : Nat := leNat ((b.drop o).take n)

/-- The descriptor in 64 bytes (Table 02-1). -/
def parseDescriptor (b : Bytes) : Descriptor :=
  { program := BitVec.ofNat 16 (fieldAt b 0 2), flags := BitVec.ofNat 16 (fieldAt b 2 2), seq := BitVec.ofNat 32 (fieldAt b 4 4),
    key0 := BitVec.ofNat 64 (fieldAt b 8 8), key1 := BitVec.ofNat 64 (fieldAt b 0x10 8), src := BitVec.ofNat 64 (fieldAt b 0x18 8),
    dst := BitVec.ofNat 64 (fieldAt b 0x20 8), length := BitVec.ofNat 40 (fieldAt b 0x28 5), padMode := BitVec.ofNat 8 (fieldAt b 0x2D 1),
    priority := BitVec.ofNat 16 (fieldAt b 0x2E 2), deadline := BitVec.ofNat 24 (fieldAt b 0x30 3), rsv33 := BitVec.ofNat 8 (fieldAt b 0x33 1),
    stepBudget := BitVec.ofNat 24 (fieldAt b 0x34 3), rsv37 := BitVec.ofNat 8 (fieldAt b 0x37 1), arg := BitVec.ofNat 64 (fieldAt b 0x38 8) }

/-! ## Candidates in the order of R23, R64 and R492 -/

/-- A descriptor that may be admitted: a ring's, or a network request's with its argument length, OUT_CAP, argument and input. -/
structure Candidate where
  inst : Nat
  q : Option (Fin 4)
  net : Option (BitVec 32 × Nat)
  desc : Descriptor
  argLen : Nat := 0
  outCap : Nat := 0
  arg : Bytes := []
  input : Bytes := []
deriving DecidableEq, Repr

/-- ORDERED (Table 02-2). -/
def isOrdered (d : Descriptor) : Bool := d.flags.getLsbD 4

/-- The descriptors of a ring up to an ORDERED one that must wait (Table 02-2, R64). -/
def orderedFrom {α : Type} (ordered : α → Bool) : Bool → List α → List α
  | _, [] => []
  | busy, d :: ds => if busy && ordered d then [] else d :: orderedFrom ordered true ds

/-- A job of a pair is in flight. -/
def State.pairBusy (s : State) (i : Nat) (q : Fin 4) : Bool := s.jobs.any (fun j => j.inst == i && j.q == some q)

/-- A request of a session is in flight. -/
def State.sessionBusy (s : State) (i : Nat) (id : BitVec 32) : Bool :=
  s.jobs.any (fun j => j.inst == i && (match j.net with | some (n, _) => n == id | none => false))

/-- Candidates of a ring. -/
def State.ringCandidates (s : State) (i : Nat) (x : Inst) (q : Fin 4) : List Candidate :=
  (orderedFrom isOrdered (s.pairBusy i q) (x.qs[q].arrived)).map (fun d => { inst := i, q := some q, net := none, desc := d })

/-- One from each list in turn. -/
def interleave {α : Type} : Nat → List (List α) → List α
  | 0, _ => []
  | k + 1, ls => (ls.filterMap List.head?) ++ interleave k (ls.map (List.drop 1))

/-- The candidate of a request message (R491). -/
def netCandidate (i : Nat) (id : BitVec 32) (msg : Nat) (b : Bytes) : Candidate :=
  let n := fieldAt b 64 4
  { inst := i, q := none, net := some (id, msg), desc := parseDescriptor b, argLen := n, outCap := fieldAt b 68 4,
    arg := (b.drop 72).take n, input := b.drop (72 + n) }

/-- Requests of a session whose last fragment had arrived by cycle 0, by MSG (R492). -/
def Session.requests (x : Session) (frame : Nat) : List Candidate :=
  let ms := sortBy (fun (a b : NetMsg) => decide (a.msg ≤ b.msg)) (x.msgs.filter (fun m => m.whole.isSome && !m.taken && decide (m.arrived < frame)))
  ms.map (fun m => netCandidate x.inst x.id m.msg (m.whole.getD []))

/-- Network candidates of an instance, by ascending SESSION (R492). -/
def State.netCandidates (s : State) (i : Nat) : List Candidate :=
  let ss := sortBy (fun (a b : Session) => decide (a.id.toNat ≤ b.id.toNat)) (s.net.sessions.filter (fun x => x.inst == i))
  ss.flatMap (fun x => orderedFrom (fun (c : Candidate) => isOrdered c.desc) (s.sessionBusy i x.id) (x.requests s.frame.num))

/-- Candidates of an instance within its quota: rings one descriptor at a time from ring F mod 4, then network requests (R24, R64, R492). -/
def State.candidates (s : State) (i : Nat) : List Candidate :=
  match s.inst i with
  | none => []
  | some x =>
    if !x.admits then []
    else
      let f := s.frame.num % 4
      let rings := ((List.finRange 4).drop f ++ (List.finRange 4).take f).map (fun q => s.ringCandidates i x q)
      let n := (rings.map List.length).foldl max 0
      (interleave n rings ++ s.netCandidates i).take (s.quotaLeft i)

/-! ## Demand and limits of an instance (R39) -/

/-- Descriptors counted as demand of the previous frame: those that may be admitted, in the order of admission (R39, R64, R492). -/
def State.arrivals (s : State) (i : Nat) : List Descriptor := (s.candidates i).map (·.desc)

/-- The whole minimum of a resource in grant units. -/
def State.floorOf (s : State) (i r : Nat) : Nat := s.minOf i r * s.capacity r / 1000

/-- The whole maximum of a resource in grant units. -/
def State.ceilOf (s : State) (i r : Nat) : Nat := ((s.inst i).elim 0 (fun x => x.share.maxs.getD r 0)) * s.capacity r / 1000

/-- RESOURCES bit of a share-controlled resource: cipher 0, hash 1, DRBG 2, PKE 3 (Table 04-16). -/
def resourceBit (r : Nat) : Nat := match r with | 1 => 0 | 3 => 1 | 4 => 2 | _ => 3

/-- Demand of an instance with the work that arrives in this frame (R39). -/
def State.demandNow (s : State) (i r : Nat) : Nat :=
  let d := ((tget s.frame.demand i).getD {}).get r
  let new := s.arrivals i
  if r = 0 then d + 4 * new.length
  else if new.any (fun e => match s.program i e.program.toNat with | some (h, _) => h.resources.getLsbD (resourceBit r) | none => false)
    then max d (s.floorOf i r)
  else d

/-! ## Grants (R39 to R41) -/

/-- One round of lending in rotating order: one unit to each instance that still asks and is below its maximum. -/
def lendRound : List (Nat × Nat × Nat × Nat) → Nat → List (Nat × Nat × Nat × Nat) × Nat
  | [], spare => ([], spare)
  | (i, d, g, c) :: xs, spare =>
    if 0 < spare ∧ g < d ∧ g < c then
      (let r := lendRound xs (spare - 1); ((i, d, g + 1, c) :: r.1, r.2))
    else
      (let r := lendRound xs spare; ((i, d, g, c) :: r.1, r.2))

/-- Lend spare capacity until none is left or nobody may take more. -/
def lend : Nat → List (Nat × Nat × Nat × Nat) → Nat → List (Nat × Nat × Nat × Nat)
  | 0, xs, _ => xs
  | k + 1, xs, spare =>
    let r := lendRound xs spare
    if r.2 = spare then xs else lend k r.1 r.2

/-- The grants of one resource (R39, R41). -/
def State.grantsOf (s : State) (r : Nat) : List (Nat × Nat) :=
  let cap := s.capacity r
  let base := s.instOrder.map (fun i => (i, s.demandNow i r, min (s.demandNow i r) (s.floorOf i r), s.ceilOf i r))
  let spare := cap - (base.map (fun x => x.2.2.1)).sum
  let out := if s.frame.lendEn then lend cap base spare else base
  out.map (fun x => (x.1, x.2.2.1))

/-- The grants of this frame (R39). -/
def State.computeGrants (s : State) : Table Five :=
  let g (r : Nat) := s.grantsOf r
  let a := (List.range 5).map g
  s.insts.map (fun e => (e.1, (List.range 5).foldl (fun f r => f.put r (tnat (a.getD r []) e.1)) {}))

end Sys2Proof.Machine
end

