-- ==== Sys2Proof/Machine/PkeCalls.lean ====
section
/-! DEFINITION. Public-key calls from a lane, their completion, abort, and the repeats of the partner (R159 to R162, R215, R218, R225, R226, R234 to R242). -/

namespace Sys2Proof.Machine

/-! ## PKE.CALL (R159, R215) -/

/-- Reason 0x30: a malformed call block or an operation outstanding (Table 04-1). -/
def callTrap : Trap := engineTrap St.accessFault 0x30

/-- The pointer of the call block moved to a window offset, its colour kept (R345). -/
def ptrAt (p : Word) (off : Nat) : Word := p - BitVec.ofNat 64 (ptrVa p) + BitVec.ofNat 64 (winBase + off)

/-- The first range of a call that lies outside the window or has another colour (R159, R345). -/
def Ctx.callRange (c : Ctx) (p : Word) (rs : List (Bool × Nat × Nat)) : Option (Bool × Word × Nat × (Refused × Nat)) :=
  rs.findSome? (fun r => (rangeRefused c (ptrAt p r.2.1) r.2.2).map (fun x => (r.1, ptrAt p r.2.1, r.2.2, x)))

/-- The key check at issue: reason 0x01 unless type and usage are the operation's (R226). -/
def State.callKey (s : State) (j : Job) (c : Ctx) (call : PkeCall) (useKey : Bool) (k : KReg) (p : OpSpec) : Trap ⊕ Option Handle :=
  match p.key with
  | none => .inr none
  | some (t, u) =>
    if !useKey then (if call.chain then .inr none else .inl callTrap)
    else match c.rk k with
      | none => .inl { cause := 0x0B }
      | some h =>
        match s.keyNode j.bound h with
        | some n => if n.ktype == t && n.may u then .inr (some h) else .inl (keyTrap St.keyAttrDenied 0x01 h)
        | none => .inl (keyTrap St.keyAttrDenied 0x01 h)

/-- The checks of a call whose block has been read, and the call queued (R215). -/
def State.queueCall (s : State) (j : Job) (c : Ctx) (d : GReg) (call : PkeCall) (useKey : Bool) (k : KReg) (p : OpSpec) : State × LaneRes :=
  match s.callKey j c call useKey k p with
  | .inl t => (s, .trap t)
  | .inr h =>
    if (call.chain && j.region.isNone) || !s.callFormed j { call with key := h } p then (s, .trap callTrap)
    else
      let s1 := s.setCall j.slot (some { call with key := h })
      (({ s1 with pke := { s1.pke with nextOrder := s1.pke.nextOrder + 1 } }).startCalls, .ok (c.wg d 0))

/-- PKE_CALL (R215). -/
def execPkeCall (l : LaneId) (d a : GReg) (s : State) : Host.Outcome State Fault Refusal :=
  ok (laneStep l true [] (fun s j c =>
    let p := c.rg a
    match c.ptrTrap false p 64, rangeRefused c p 64 with
    | some t, _ => (s, .trap t)
    | none, some r => (s.rangeReport l j c false p 64 r, .trap (refusedTrap .read false p r.1))
    | none, none =>
      let b := Memory.readBytes c.window (ptrVa p - winBase) 64
      let call := parseCall b (ptrVa p - winBase) s.pke.nextOrder none
      let fl := leNat ((b.drop 2).take 2)
      match opSpec call.op with
      | none => (s, .trap callTrap)
      | some sp =>
        if j.pkeBusy || !blockReserved b then (s, .trap callTrap)
        else match c.callRange p (call.ins.map (fun r => (false, r.1, r.2)) ++ call.outs.map (fun r => (true, r.1, r.2))) with
          | some (w, q, n, r) => (s.rangeReport l j c w q n r, .trap (refusedTrap (if w then .write else .read) false q r.1))
          | none => s.queueCall j c d call (fl.testBit 0) (Fin.ofNat 8 (fl / 2 % 8)) sp) s)

/-! ## PKE.WAIT and PKE.ABORT (R160 to R162, R242) -/

/-- PKE_WAIT (R160). -/
def execPkeWait (l : LaneId) (d : GReg) (s : State) : Host.Outcome State Fault Refusal :=
  ok (ctlStep l (fun s j c =>
    let give (t : State) (w : Word) : State := t.retire l true c.pc { c.wg d w with pc := c.pc + 4 }
    match j.pke with
    | none => give { s with free := s.free + 1 } (Config.draw 64 s.free)
    | some q =>
      if q.phase = .aborted then give (s.setCall j.slot none) (St.aborted.setWidth 64)
      else if q.phase = .latched then
        (if q.status = St.ok || q.status = St.authFail then give (s.setCall j.slot none) (q.status.setWidth 64)
         else s.takeTrap l c { engineTrap q.status 0x31 with key := q.key } c.pc)
      else s.endSlice l (.waiting .pke)) s)

/-- The abort of an outstanding operation: a queued call is dropped, a started one stops and its region is zeroed by abort-complete (R241, R242). -/
def State.abortCall (s : State) (slot : Nat) (q : PkeCall) : State :=
  if q.phase = .queued then s.modJob slot (fun j => { j with pke := some { q with phase := .aborted }, region := none })
  else s.setCall slot (some { q with phase := .aborting })

/-- PKE_ABORT (R162). -/
def execPkeAbort (l : LaneId) (d : GReg) (s : State) : Host.Outcome State Fault Refusal :=
  ok (laneStep l true [] (fun s j c =>
    match j.pke with
    | none => (s, .ok (c.wg d 2))
    | some q =>
      if q.phase = .latched then (s, .ok (c.wg d 0))
      else if q.phase = .aborted || q.phase = .aborting then (s, .ok (c.wg d 1))
      else (s.abortCall j.slot q, .ok (c.wg d 1))) s)

/-- Free the engines that run a job's call, and the copy of its region on the second (R236, R241). -/
def State.freeEngines (s : State) (slot : Nat) : State :=
  State.modJob { s with pke := { s.pke with running := s.pke.running.map (fun r => if r = some slot then none else r) } } slot
    (fun j => { j with region := j.region.map (fun r => { r with copy := none }) })

/-- An index reserved for a secret is given back (R241). -/
def State.dropMade (s : State) (j : Job) (q : PkeCall) : State :=
  match q.made with | some i => s.unreserve j.inst i | none => s

/-- The lengths of OUT0 and OUT1 vary: RSA signatures, decryptions and generated moduli (R225). -/
def variesOut (op : BitVec 16) : Bool := opFam op == 2 && (opKind op == 1 || opKind op == 3 || opKind op == 5)

/-- Write outputs to the window, with the byte counts where they vary (R218, R225). -/
def Ctx.putOuts (c : Ctx) (q : PkeCall) (outs : List Bytes) (counts : Nat × Nat) : Ctx :=
  let w0 := Memory.writeBytes c.window (q.outs.getD 0 (0, 0)).1 (outs.getD 0 [])
  let w1 := Memory.writeBytes w0 (q.outs.getD 1 (0, 0)).1 (outs.getD 1 [])
  { c with window :=
      if variesOut q.op then Memory.writeBytes w1 (q.blockOff + 0x28) (leBytes 4 counts.1 ++ leBytes 4 counts.2) else w1 }

/-- Outputs written and not latched are zeroed, their byte counts with them (R242). -/
def State.zeroOuts (s : State) (j : Job) (q : PkeCall) : State :=
  if q.wrote = [] then s else s.modCtx j.slot (fun c => c.putOuts q (q.wrote.map zeros) (0, 0))

/-- An abort is complete: the engines are free, the region with its spilled copy and its copy on a repeat engine is zeroed, no output and no node is left (R241 to R243). -/
def State.abortDone (s : State) (j : Job) (q : PkeCall) : State :=
  ((((s.dropMade j q).freeEngines j.slot)).zeroOuts j q).modJob j.slot (fun x =>
    { x with
      pke := if x.finished then none
             else some { q with phase := .aborted, engine := none, second := none, results := [], secret := none, made := none, inputs := [], chainKey := none, wrote := [] }
      region := none
      st := if x.st = .waiting .pke then .runnable else x.st })

/-- PKE_ABORT_COMPLETE (R241). -/
def execPkeAbortComplete (job : Nat) (s : State) : Host.Outcome State Fault Refusal :=
  ok (match s.job job with
      | none => s
      | some j =>
        match j.pke with
        | none => s
        | some q =>
          if q.phase ≠ .aborting then s
          else
            let s2 := s.abortDone j q
            let s3 := if s.crossChecks && repeats q.op && !q.localRepeat then { s2 with twin := { s2.twin with aborts := s2.twin.aborts ++ [job] } } else s2
            s3.startCalls)

/-! ## Failed checks (R238) -/

/-- A call goes back to its queue with what it read at its start (R218, R227, R238). -/
def PkeCall.again (q : PkeCall) : PkeCall :=
  { q with phase := .queued, engine := none, second := none, status := St.ok, results := [], secret := none, made := none }

/-- The code of the operation an engine runs, for its instance or for the partner; 0 with none (Table 06-10). -/
def State.opOn (s : State) (e : Fin 16) : Nat :=
  match ((s.pke.running[e]).bind s.job).bind (·.pke) with
  | some q => q.op.toNat
  | none => (s.pke.twinRepeats.find? (fun r => r.engine == some e && r.digest.isNone)).elim 0 (fun r => r.call.op.toNat)

/-- Fence an engine: its retained regions are discarded; event 0x4002 (R238, Table 06-10). -/
def State.fencePke (s : State) (e : Fin 16) (cause elemCause op : Nat) : State :=
  let s1 := s.fence (elemOf .pke e.val) elemCause
  let s2 := { s1 with jobs := s1.jobs.map (fun (j : Job) =>
    { j with region := j.region.map (fun (r : Region0) => if r.engine = some e then { r with retained := [], chained := none, lost := some e, stale := true, engine := none } else r) }) }
  s2.raise 0x4002 false e.val cause op

/-- The engines that take part in a call. -/
def State.enginesOf (s : State) (slot : Nat) : List (Fin 16) := (List.finRange 16).filter (fun e => s.pke.running[e] == some slot)

/-- A check has failed: FAULT_DETECTED, no output, no node, the region cleared, the engines fenced (R238). -/
def State.checkFailed (s : State) (j : Job) (q : PkeCall) (es : List (Fin 16)) (kind : Nat) (memory : Bool) : State :=
  let s1 := (s.dropMade j q).freeEngines j.slot
  let s2 := if memory then s1 else s1.raise 0x4001 j.hollow (q.engine.elim 0 (·.val)) q.op.toNat kind
  let s3 := es.foldl (fun t e => t.fencePke e (if memory then 4 else 3) (if memory then 6 else 5) q.op.toNat) s2
  s3.modJob j.slot (fun x =>
    { x with pke := some { q with phase := .written, status := St.faultDetected, results := [], secret := none, made := none }, region := none })

/-! ## Results written (R218, R225, R226, R236) -/

/-- The digest an engine forms over its status and outputs (R236). -/
def callDigest (q : PkeCall) : Dig := Config.sha3 (leBytes 1 q.status.toNat ++ q.results.flatten ++ q.secret.getD [])

/-- The type a creation record may name for the secret of an operation: the private key's type of a key generation, a symmetric type the secret fills otherwise (R226; log 29). -/
def secretFits (op : BitVec 16) (t : BitVec 8) (secret : Bytes) : Bool :=
  match opFam op, opKind op with
  | 2, 5 => t == 0x30
  | 3, 4 => t.toNat == 0x40 + opSet op
  | 4, 4 => t.toNat == 0x50 + opSet op
  | 4, 5 => t.toNat == 0x52 + opSet op
  | 5, 1 => t.toNat == 0x60 + opSet op
  | 6, 1 => t.toNat == 0x70 + opSet op
  | 7, 1 => t == 0x81
  | _, _ => derivable t && decide (keyLen t ≤ secret.length)

/-- The node a secret becomes, or the status that refuses it (R226, R260). -/
def State.secretNode (s : State) (j : Job) (q : PkeCall) (secret : Bytes) : BitVec 7 ⊕ Node :=
  let r := parseCreation (q.inputs.getD 5 [])
  let mat := if derivable r.ktype then symMaterial r.ktype secret else secret
  match s.creationRefused j.inst r (slotsOf mat) with
  | some st => .inl st
  | none =>
    if !secretFits q.op r.ktype secret then .inl St.descInvalid
    else .inr (s.nodeOf j.inst r .generated mat (if derivable r.ktype then [] else publicPart r.ktype mat))

/-- What a call leaves in its region as S0 to S5: what it wrote to OUT0 and OUT1, after any operation but STAGE and FREE (R214). -/
def Region0.keep (r : Region0) (q : PkeCall) (outs : List Bytes) : Region0 :=
  if q.op = 0x0010 ∨ q.op = 0x0020 then r else { r with retained := outs, stale := false }

/-- End a call with a status and no output. -/
def State.failCall (s : State) (j : Job) (q : PkeCall) (st : BitVec 7) : State :=
  s.modJob j.slot (fun x => { x with
    pke := some { q with phase := .written, status := st, results := [], secret := none }
    region := x.region.map (fun r => r.keep q []) })

/-- Outputs fit their ranges (R225). -/
def PkeCall.fits (q : PkeCall) (outs : List Bytes) : Bool :=
  (List.range 2).all (fun i => decide ((outs.getD i []).length ≤ (q.outs.getD i (0, 0)).2))

/-- Write the outputs of a call and leave results in its region (R211, R214, R218, R226). -/
def State.putResult (s : State) (j : Job) (q : PkeCall) (outs : List Bytes) (made : Option Nat) : State :=
  if !q.fits outs then (s.dropMade j { q with made := made }).failCall j q St.lengthInvalid
  else
    let keep := (opSpec q.op).elim false (·.keygen) && !q.creates
    (s.modCtx j.slot (fun c => c.putOuts q outs ((outs.getD 0 []).length, (outs.getD 1 []).length))).modJob j.slot (fun x =>
      { x with
        pke := some { q with phase := .written, made := made, results := [], secret := none, inputs := [], chainKey := none, wrote := outs.map List.length }
        region := x.region.map (fun r => { r.keep q outs with chained := if keep then q.secret else r.chained }) })

/-- The outputs with the handle in place of the secret. -/
def withHandle (q : PkeCall) (h : Handle) : List Bytes :=
  let hb := leBytes 8 h.toNat
  match (opSpec q.op).bind (·.secret) with
  | some i => (List.range 2).map (fun k => if k = i then hb else q.results.getD k [])
  | none => [q.results.getD 0 [], hb]

/-- The secret a call yields: its own, or the output that carries it. -/
def PkeCall.secretBytes (q : PkeCall) : Bytes :=
  match (opSpec q.op).bind (·.secret) with
  | some i => q.results.getD i []
  | none => q.secret.getD []

/-- A call whose check has passed ends (R218, R226). -/
def State.finishCall (s : State) (j : Job) (q : PkeCall) : State :=
  if q.status ≠ St.ok then s.failCall j q q.status
  else if q.creates then
    match s.secretNode j q q.secretBytes with
    | .inl st => s.failCall j q st
    | .inr n =>
      let (i, s1) := s.reserveNode j.inst n
      s1.putResult j q (withHandle q (s1.handleOf j.inst i)) (some i)
  else s.putResult j q q.results none

/-- The repeat of the partner that an engine has finished: its digest is kept for the exchange, its outputs are discarded (R239). -/
def State.repeatDone (s : State) (e : Fin 16) (check : PkeCheck) : State :=
  let s1 := { s with pke := { s.pke with twinRepeats := s.pke.twinRepeats.map (fun r =>
    if r.engine = some e ∧ check = .memory ∧ r.digest.isNone then { r with engine := none } else r) } }
  if check = .memory && s.pke.twinRepeats.any (fun r => r.engine == some e && r.digest.isNone) then s1.fencePke e 4 6 (s.opOn e) else s1

/-- What a check finds of a call: an operation that carries no check has none to fail (R234, Table 06-7). -/
def PkeCall.checked (q : PkeCall) (check : PkeCheck) : PkeCheck :=
  if check = .failed && !(repeats q.op || signs q.op) then .good else check

/-- PKE_OPERATION_DONE (R218). -/
def execPkeOperationDone (e : Fin 16) (check : PkeCheck) (s : State) : Host.Outcome State Fault Refusal :=
  ok (match s.pke.running[e] with
      | none => (s.repeatDone e check).startCalls
      | some slot =>
        match s.job slot with
        | none => s.occupy e none
        | some j =>
          match j.pke with
          | none => s.occupy e none
          | some q =>
            if q.phase ≠ .computed then s
            else match q.checked check with
              | .failed => (s.checkFailed j q (s.enginesOf slot) (if signs q.op then 1 else 2) false).startCalls
              | .memory => (s.checkFailed j q [e] 2 true).startCalls
              | .good =>
                if repeats q.op && !q.localRepeat then (s.freeEngines slot).startCalls
                else ((s.freeEngines slot).finishCall j q).startCalls)

/-! ## The repeat on the partner (R239, R240) -/

/-- The engine a repeat of the partner takes: idle and assigned to the shadow's instance. -/
def State.repeatEngine (s : State) (inst : Nat) : Option (Fin 16) :=
  s.pkeOrder.find? (fun e => s.pkeIdle e && s.frame.assigned[e] == some inst)

/-- Calls a confirmed checkpoint carries for a job slot and that are not being repeated yet (R239). -/
def State.repeatDue (s : State) (slot : Nat) : Option (CkptCall × Nat) :=
  s.twin.got.findSome? (fun b =>
    if b.confirmed && decide (b.frame < s.frame.num) then (b.calls.find? (fun c => c.slot == slot)).map (fun c => (c, b.frame)) else none)

/-- The unit as its partner sees its own instances: the shadows under the partner's numbers (R376, R379; log 35). -/
def State.shadowView (s : State) : State := { s with insts := s.twin.shadows.map (fun (e : Nat × Inst) => (if e.1 = 1024 then 0 else e.1, e.2)) }

/-- The keys a job of the partner is bound to: node index and version (R263). -/
def State.replicaBound (s : State) (slot : Nat) : List (Nat × Nat) := (s.twin.jobs.find? (fun r => r.job.slot == slot)).elim [] (·.bound)

/-- Regions the repeat of the partner's call takes (R210): by its inputs, the modulus of its key in the replica, or the size asked for. -/
def State.repeatSize (s : State) (c : CkptCall) : Nat :=
  let pub := (c.key.bind (fun h => s.shadowView.keyNode (s.replicaBound c.slot) h)).elim 0 (fun n => n.pub.length - 32)
  match opFam c.op with
  | 1 | 2 => modulusRegions (if opKind c.op = 5 then leNat (((c.inputs.getD 1 []).drop 2).take 2) / 8
      else max (c.inputs.getD 2 []).length (max pub (c.chained.elim 0 (fun b => (rsaKey b).k))))
  | 6 | 7 => 4
  | _ => 2

/-- An engine takes up a repeat of the partner, anew where the engine that ran it was fenced, once it has room for its regions (R213, R239). -/
def State.beginRepeat (s : State) (c : CkptCall) (f : Nat) (e : Fin 16) : State :=
  match s.makeRoom e 16384 (s.repeatSize c) 16 with
  | none => s
  | some t =>
    let others := t.pke.twinRepeats.filter (fun r => !(r.call.slot == c.slot && r.ckpt == f))
    { t with pke := { t.pke with twinRepeats := others ++ [{ call := c, ckpt := f, engine := some e, size := s.repeatSize c }] } }

/-- XCHECK_REPEAT_START (R239). -/
def execXcheckRepeatStart (job : Nat) (s : State) : Host.Outcome State Fault Refusal :=
  ok (match s.repeatDue job with
      | none => s
      | some (c, f) =>
        if !s.crossChecks || s.pke.twinRepeats.any (fun r => r.call.slot == job && r.ckpt == f && (r.engine.isSome || r.digest.isSome)) then s
        else match s.repeatEngine c.inst with
          | none => s
          | some e => s.beginRepeat c f e)

end Sys2Proof.Machine
end

