-- ==== Sys2Proof/Machine/Unit.lean ====
section
/-! DEFINITION. The unit as a whole: the pair's state, halting, fail-silence, zeroing of keys, the Hollow's restart and halt, the commit's discard of staged changes (R35, R360 to R362, R386, R387). -/

namespace Sys2Proof.Config

/-- The payload bytes of an exchange frame: the spec names its content, not its layout (R374; log 9). -/
opaque linkExchange (x : Exchange) : Bytes

/-- The payload bytes of any other frame the unit sends on channels 1 to 5 and 7 (R374, R498, R500; log 9). -/
opaque linkMsg (m : Machine.TwinMsg) : Bytes

end Sys2Proof.Config

namespace Sys2Proof.Machine

/-! ## The pair -/

/-- TWN_STAT.STATE codes. -/
def pairCode : PairState → Nat
  | .unpaired => 0 | .pairing => 1 | .paired => 2 | .split => 3 | .solo => 4 | .resync => 5 | .silent => 6

/-- Pair ID [31:0] as events report it. -/
def State.pairId (s : State) : Nat := (s.twin.record.elim 0 (·.1.toNat)) % 2 ^ 32

/-- Change TWN_STAT.STATE: event 0x7001, and vector 2 at the tail (R410, R480). -/
def State.setPair (s : State) (st : PairState) : State :=
  if s.twin.state = st then s
  else
    ({ s with twin := { s.twin with state := st }, host := { s.host with vec2 := true } }).raise 0x7001 false
      (pairCode st) (pairCode s.twin.state) s.pairId

/-- The unit belongs to a pair: it holds the pairing record (R372). -/
def State.inPair (s : State) : Bool := s.twin.record.isSome

/-- The partner takes part in every frame (R29, R385). -/
def State.isPaired (s : State) : Bool := decide (s.twin.state = .paired)

/-! ## Link frames (R498 to R500) -/

/-- The header of a link frame (Table 13-11). -/
def linkHead (channel : Nat) (l : LinkFrame) (len : Nat) : Bytes :=
  leBytes 1 channel ++ leBytes 1 ((if l.first then 1 else 0) + (if l.last then 2 else 0)) ++ leBytes 2 len ++ zeros 4 ++ leBytes 8 l.seq ++ leBytes 8 l.frame

/-- The key of the link, once both units hold the same L2 and know both nonces: N_L is the offering unit's (R499). -/
def State.linkKey (s : State) : Bytes :=
  let own := s.twin.nonces.1.getD 0
  let other := s.twin.nonces.2.getD 0
  let nl := if s.twin.offered then own else other
  let nj := if s.twin.offered then other else own
  kmac256 (leBytes 32 (s.quarry.l2.getD 0).toNat)
    (ascii "TWINLINK" ++ leBytes 16 (s.twin.record.elim 0 (·.1.toNat)) ++ leBytes 16 nl.toNat ++ leBytes 16 nj.toNat) 32 (ascii "WL9640 T")

/-- The IV of a link frame: the sender's pairing role, 3 zero bytes, SEQ (R499). -/
def linkIv (offered : Bool) (seq : Nat) : Bytes := leBytes 1 (if offered then 0 else 1) ++ zeros 3 ++ leBytes 8 seq

/-- Payload and TAG of a link frame: enciphered under the link's key, or in clear with a digest before keying (R499). -/
def State.linkSeal (s : State) (offered : Bool) (channel : Nat) (l : LinkFrame) (payload : Bytes) : Bytes × BitVec 128 :=
  let h := linkHead channel l payload.length
  if s.twin.keyed then Config.gcm s.linkKey (linkIv offered l.seq) h payload
  else (payload, BitVec.ofNat 128 (leNat ((leBytes 32 (Config.sha3 (h ++ payload)).toNat).take 16)))

/-- The payload of a message of the link (R374, R498). -/
def TwinMsg.payload : TwinMsg → Bytes
  | .exchange x => Config.linkExchange x
  | .pairing step b => leBytes 1 step ++ b
  | m => Config.linkMsg m

/-- The next SEQ of the link in the direction of sending (R498); the frame enters the replay buffer unless it is a marker or a retry (R500). A unit of transfer is one frame, whatever its length (log 155). -/
def State.sendTwin (s : State) (channel : Nat) (m : TwinMsg) : State :=
  if !s.twin.up then s
  else
    let l : LinkFrame := { seq := s.twin.txSeq, frame := s.frame.num, tag := 0 }
    let r := s.linkSeal s.twin.offered channel l m.payload
    let l1 := { l with tag := r.2 }
    let t := { s.twin with
      txSeq := l.seq + 1
      kept := if channel = 1 ∨ channel = 7 then s.twin.kept else s.twin.kept ++ [(l1, m, r.1)] }
    { s with twin := t }.emit (.twin l1 m r.1)

/-! ## Frames -/

/-- The frame tick runs: the unit runs, is halted with its tails going on, or runs its power-fail sequence; a silent unit issues nothing (R387, R404). -/
def State.ticks (s : State) : Bool :=
  s.frame.ticking && !s.twin.silent && (decide (s.power.run = .running) || decide (s.power.run = .halted) || decide (s.power.run = .failing))

/-- The work of frames goes on: admission, slices, grants. -/
def State.works (s : State) : Bool := s.frame.ticking && !s.twin.silent && s.running

/-- A phase of the frame (Table 01-1): it takes place at its cycle, once a frame, and only after the phases that precede it; presented at another point, or to a unit without a frame tick, it does not take place (log 126). -/
def State.phase (s : State) (after at_ : Nat) (f : State → State) : State :=
  if s.ticks && decide (after ≤ s.frame.cycle) && decide (s.frame.cycle < at_) then f { s with frame := { s.frame with cycle := at_ } } else s

/-- A phase of the work of frames: on a unit that is halted or failing only its cycle passes. -/
def State.workPhase (s : State) (after at_ : Nat) (f : State → State) : State :=
  s.phase after at_ (fun t => if t.works then f t else t)

/-! ## Vectors and rings -/

/-- Vector 1 of an instance, or vector 0 where VECTORS is 1 (R76, R304, R312). -/
def State.signal1 (s : State) (i : Nat) : State :=
  s.msix i (if (s.inst i).elim false (fun x => x.share.vectors == 1) then 0 else 1)

/-- Set RING_ERR: admission from the pair stops; vector 1 when it becomes 1 (R65, R76). -/
def State.ringError (s : State) (i : Nat) (q : Fin 4) : State :=
  if (s.inst i).elim true (fun x => x.qs[q].ringErr) then s
  else (s.modQ i q (fun x => { x with ringErr := true })).signal1 i

/-- The doorbell values of a pair break R65: more than 2^s pending or behind the head, or the completion head beyond the tail. -/
def QPair.broken (q : QPair) : Bool :=
  decide (2 ^ q.sqLog < (q.sqTail - q.sqHead).toNat) || decide (2 ^ q.cqLog < (q.cqTail - q.cqHead).toNat)

/-! ## Zeroing and halting -/

/-- A lane with nothing on it. -/
def Lane.clear (x : Lane) : Lane :=
  { x with run := none, bank := {}, idle := {}, resident := [], grants := [], tlb := [], walks := [], dcache := [], tags := [], entry := none, stopped := false, stepping := false }

/-- The engines lose their work: key-schedule store, hash contexts, DRBG states, operand memories, lane local stores (Tables 10-9, 11-10). -/
def State.zeroEngines (s : State) : State :=
  { s with
    cipher := {}
    engines := { s.engines with
      keccakCredit := [], shaCredit := [], drbgCredit := [], chunk := Vector.replicate 16 none, pool := []
      drbg := Vector.replicate 8 {} }
    pke := { s.pke with running := Vector.replicate 16 none, twinRepeats := [] }
    lanes := s.lanes.map Lane.clear
    jobs := s.jobs.map (fun (j : Job) =>
      { j with
        block := {}
        hash := Vector.replicate 4 none
        region := none
        pke := none }) }

/-- The derivation engine with L0 to L3 and the cut cache zeroed (Tables 10-9, 11-10). -/
def State.zeroKeys (s : State) : State :=
  { s with quarry := { s.quarry with l0 := none, l1 := none, l2 := none, session := none, ownerKeys := false, cut := [] } }

/-- The unit halts: every unreleased job ends with DEVICE_HALTED (R80, R81, R386). -/
def State.haltUnit (s : State) : State :=
  { s.squashAll (fun _ => true) St.deviceHalted (fun _ => 0) false with power := { s.power with run := .halted, faultN := true } }

/-- The unit goes fail-silent: one silent marker, then nothing is issued; key stores, caches and operand memories are zeroed; a second failure within an hour leaves it silent until the next power cycle (R387). -/
def State.failSilent (s : State) (cause : Nat) : State :=
  let again := s.twin.failures.any (fun f => decide (s.frame.num < f + 360000000))
  let s1 := (s.sendTwin 3 (.silent cause)).setPair .silent
  let s2 := { s1.zeroEngines.zeroKeys with jobs := [] }
  { s2 with
    twin := { s2.twin with silent := true, stuck := s.twin.stuck || again, failures := s.twin.failures ++ [s.frame.num], unserved := decide (s.twin.state = .split) }
    power := { s2.power with syncOut := false, faultN := true } }

/-- The unit diagnoses itself faulty: fail-silent in a pair, halted without a partner; event 0x7005 (R386). -/
def State.diagnose (s : State) (cause detail : Nat) : State :=
  let s1 := s.raise 0x7005 false cause detail 0
  if s.inPair then s1.failSilent cause else s1.haltUnit

/-! ## The Hollow (R360 to R362) -/

/-- Bits [31:0] of a measurement. -/
def hash32 (d : Dig) : Nat := d.toNat % 2 ^ 32

/-- The Hollow halts until unit reset: event 0x2006; in a pair the unit then diagnoses itself faulty (R362). -/
def State.haltHollow (s : State) (cause : Nat) (measured : Dig) : State :=
  let s1 := ({ s with prot := { s.prot with hollow := .halted, restartAt := none, restartDue := none } }).raise 0x2006 true cause (hash32 measured) 0
  if s.inPair then s1.diagnose 3 cause else s1

/-- Addresses of the Hollow control partition (Table 09-2). -/
def inHollowPart (a : Nat) : Bool := decide (0xC002000000 ≤ a) && decide (a < 0xC002400000)

/-- Restarts begun in the last 100,000 frames. -/
def State.recentRestarts (s : State) : List Nat := s.prot.restarts.filter (fun f => decide (s.frame.num < f + 100000))

/-- A Hollow restart begins at cycle 0: event 0x2004, challenges and migration keys lost, the Hollow control partition zeroed; a fourth within 100,000 frames halts it instead (Table 09-15, R362). -/
def State.beginRestart (s : State) (cause : Nat) : State :=
  let recent := s.recentRestarts
  if 3 ≤ recent.length then s.haltHollow 3 (s.prot.bootHash.getD 0)
  else
    ({ s with
      prot := { s.prot with hollow := .restarting, restartDue := none, restartAt := some s.frame.num, watchdog := 0, restarts := s.frame.num :: recent }
      quarry := { s.quarry with challenges := [] }
      mail := { s.mail with targets := [] }
      mem := s.mem.filter (fun (c : Host.Cell) => !inHollowPart c.1) }).raise 0x2004 true cause (recent.length + 1) 0

/-! ## Discarding what is staged (Table 10-9) -/

/-- What stands staged now (R31). -/
def State.cutHere (s : State) : Cut :=
  { changes := s.staged.length, log := s.prot.log.length, sas := (s.passes.a.staged.length, s.passes.b.staged.length)
    world := s.prot.worldStaged, ctrl := s.frame.stagedCtrl, lend := s.frame.stagedLend, twin := s.twin.stagedCtrl
    revert := s.passes.revertStaged, period := s.passes.periodStaged, swapNow := s.passes.swapNow, switchDue := s.passes.switchDue
    pf := s.host.pfStaged, regs := s.net.regStaged }

/-- The state with what stood staged at cycle 0 alone: the part of each list up to the cut, each single setting as it was then (R31). -/
def State.withCut (s : State) : State :=
  let c := s.cut
  let p := s.passes
  { s with
    staged := s.staged.take c.changes
    frame := { s.frame with stagedCtrl := c.ctrl, stagedLend := c.lend }
    prot := { s.prot with log := s.prot.log.take c.log, worldStaged := c.world }
    twin := { s.twin with stagedCtrl := c.twin }
    passes := { p with
      a := { p.a with staged := p.a.staged.take c.sas.1 }, b := { p.b with staged := p.b.staged.take c.sas.2 }
      revertStaged := c.revert, periodStaged := c.period, swapNow := c.swapNow, switchDue := c.switchDue }
    host := { s.host with pfStaged := c.pf }
    net := { s.net with regStaged := c.regs } }

/-- A single setting after the commit: the value staged after cycle 0 stays staged, else what the commit leaves. -/
def later {α : Type} [DecidableEq α] (atCut before after : α) : α := if before = atCut then after else before

/-- Give back after the commit what was staged after cycle 0 of the frame: it commits in the next frame (R31). -/
def State.giveLate (s before : State) : State :=
  let c := before.cut
  let p := s.passes
  let b := before.passes
  { s with
    staged := s.staged ++ before.staged.drop c.changes
    cut := {}
    frame := { s.frame with
      stagedCtrl := later c.ctrl before.frame.stagedCtrl s.frame.stagedCtrl
      stagedLend := later c.lend before.frame.stagedLend s.frame.stagedLend }
    prot := { s.prot with
      log := s.prot.log ++ before.prot.log.drop c.log
      worldStaged := later c.world before.prot.worldStaged s.prot.worldStaged }
    twin := { s.twin with stagedCtrl := later c.twin before.twin.stagedCtrl s.twin.stagedCtrl }
    passes := { p with
      a := { p.a with staged := p.a.staged ++ b.a.staged.drop c.sas.1 }
      b := { p.b with staged := p.b.staged ++ b.b.staged.drop c.sas.2 }
      revertStaged := later c.revert b.revertStaged p.revertStaged
      periodStaged := later c.period b.periodStaged p.periodStaged
      swapNow := later c.swapNow b.swapNow p.swapNow
      switchDue := later c.switchDue b.switchDue p.switchDue }
    host := { s.host with pfStaged := later c.pf before.host.pfStaged s.host.pfStaged }
    net := { s.net with regStaged := later c.regs before.net.regStaged s.net.regStaged } }

/-- Every staged change that has not committed is discarded unreplied (R404). -/
def State.dropStaged (s : State) : State :=
  { s with
    staged := [], cut := {}
    frame := { s.frame with stagedCtrl := none, stagedLend := none }
    prot := { s.prot with log := [], worldStaged := none, gates := s.prot.gates.filter (fun g => decide (g.commit ≤ s.frame.num)) }
    twin := { s.twin with stagedCtrl := none }
    passes := { s.passes with revertStaged := none, periodStaged := none, swapNow := false, switchDue := none }
    host := { s.host with pfStaged := none }
    net := { s.net with regStaged := (none, none, none) }
    life := { s.life with trans := s.life.trans.filter (fun t => t.committed) } }

end Sys2Proof.Machine
end

