-- ==== Sys2Proof/Machine/Frame.lean ====
section
/-! DEFINITION. Cycle 0 of a frame, thermal levels, frame alignment, grants (R15, R16, R39, R42 to R46, R63, R66, R82, R305). -/

namespace Sys2Proof.Machine

/-! ## Latching at cycle 0 (R63, R66, R82, R305) -/

/-- A pair whose EN is sampled as 1 after a 0 starts afresh: indices 0, PHASE 1, RING_ERR clear (R66). -/
def QPair.fresh (q : QPair) : QPair :=
  { q with sqHead := 0, taken := 0, cqTail := 0, phase := true, ringErr := false, active := true, sqLatched := 0, ready := 0, cqFull := false }

/-- What cycle 0 samples of a pair: EN, then its tail, its fetched descriptors and its cancels; cancels written while EN was 1 are latched for the jobs in flight also where EN is sampled as 0 (R63, R66, R82). -/
def QPair.latch (q : QPair) : QPair :=
  if !q.en then { q with active := false, cancelsNow := q.cancels, cancels := [] }
  else
    let p := if q.active then q else q.fresh
    { p with sqLatched := p.sqTail, ready := p.fetched.length, cancelsNow := p.cancels, cancels := [] }

/-- Doorbells are latched of an instance that is served here and not in a reset (R313, R378). -/
def Inst.latches (x : Inst) : Bool :=
  !(decide (x.state = .resetting) || decide (x.state = .removing) || decide (x.state = .dormant))

/-- Latch one instance: its pairs, and its mailbox tail unless it is frozen or exported (R305, R319). -/
def Inst.latch (x : Inst) : Inst :=
  if !x.latches then { x with laneEvents := 0 }
  else { x with
    qs := x.qs.map QPair.latch
    reqLatched := if decide (x.state = .frozen) then x.reqLatched else x.reqTail
    laneEvents := 0 }

/-- Pairs whose values still break R65 set RING_ERR (Table 02-6, note). -/
def State.recheckRings (s : State) : State :=
  s.insts.foldl (fun (t : State) (e : Nat × Inst) =>
    (List.finRange 4).foldl (fun (t : State) q =>
      if e.2.latches && e.2.qs[q].active && e.2.qs[q].broken then t.ringError e.1 q else t) t) s

/-- Latch every instance. -/
def State.latchAll (s : State) : State :=
  ({ s with insts := s.insts.map (fun (e : Nat × Inst) => (e.1, e.2.latch)) }).recheckRings

/-! ## Thermal levels (R42) -/

/-- Entry temperature of a level above T0 (Table 01-5). -/
def State.entryTemp (s : State) (level : Nat) : Int := (s.frame.thresh : Int) + 2 * ((level : Int) - 1)

/-- The highest level whose entry temperature a reading exceeds. -/
def State.levelFor (s : State) (tj : Int) : Nat :=
  if s.entryTemp 3 < tj then 3 else if s.entryTemp 2 < tj then 2 else if s.entryTemp 1 < tj then 1 else 0

/-- Change the level: event 0x1001, SHED_SEEN above T0 (R42, R44, R50). -/
def State.setLevel (s : State) (level : Nat) : State :=
  ({ s with frame := { s.frame with
      level := level, cool := 0, changed := true, shedSeen := s.frame.shedSeen || decide (0 < level) } }).raise 0x1001 false
    level s.frame.level (tc32 s.frame.tj)

/-- Latch a reading: raise the level, or count a cool reading (R42). -/
def State.thermal (s : State) (tj : Int) : State :=
  let s1 := { s with frame := { s.frame with tj := tj }, power := { s.power with tjMax := max s.power.tjMax tj } }
  if s.frame.level < s1.levelFor tj then s1.setLevel (s1.levelFor tj)
  else if 0 < s.frame.level && decide (tj ≤ s1.entryTemp s.frame.level - 2) then
    { s1 with frame := { s1.frame with cool := s.frame.cool + 1 } }
  else { s1 with frame := { s1.frame with cool := 0 } }

/-! ## Cycle 0 -/

/-- Calls that go on running twice on the only engine in service (R237). -/
def State.stillSingle (s : State) : Nat :=
  (s.jobs.filter (fun (j : Job) => j.pke.any (fun q => (q.phase == .running || q.phase == .computed) && q.localRepeat && q.second.isNone))).length

/-- The parts of the frame that a new frame clears. -/
def State.freshFrame (s : State) : State :=
  { s with
    frame := { s.frame with num := s.twin.jump.getD (s.frame.num + 1), cycle := 0, admitted := 0, changed := false, syncSeen := false }
    strata := { s.strata with frameIdx := s.strata.frameIdx + 1 }
    mail := { s.mail with consumed := 0 }
    pke := { s.pke with singleRepeats := s.stillSingle }
    jobs := s.jobs.map (fun (j : Job) => { j with yielded := false })
    lanes := s.lanes.map (fun (x : Lane) => { x with changed := false, grants := [], slotNow := 0, slotLast := 0 }) }

/-- Counts of frames: the Hollow watchdog, the validity of debug enables, heartbeats and FRAME_SYNC of the frame that ended (R356, R360, R388). -/
def State.countFrame (s : State) : State :=
  { s with
    prot := { s.prot with
      reported := []
      watchdog := if decide (s.prot.hollow = .running) then s.prot.watchdog + 1 else s.prot.watchdog
      dbgLeft := s.prot.dbgLeft.map (fun n => n - 1) }
    twin := { s.twin with
      missed := if s.twin.heartbeat then 0 else s.twin.missed + 1
      beats := if s.twin.heartbeat then s.twin.beats + 1 else 0
      jump := none
      syncMissed := if s.twin.partnerSync then 0 else s.twin.syncMissed + 1
      heartbeat := false
      partnerSync := false }
    power := { s.power with syncOut := s.running } }

/-- The body of the last checkpoint leaves in this frame, one refused once ahead of it (R374, R384). -/
def State.sendBodies (s : State) : State :=
  let again := s.twin.sent.filter (fun c => c.refusals == 1 && c.frame + 2 == s.frame.num)
  let last := s.twin.sent.filter (fun c => c.frame + 1 == s.frame.num)
  (again ++ last).foldl (fun (t : State) (c : Checkpoint) => t.sendTwin 2 (.body c.frame c.digest c.records)) s

/-- A restart of the Hollow that fell due begins (R360). -/
def State.restartIfDue (s : State) : State :=
  match s.prot.restartDue with
  | some c => if decide (s.prot.hollow = .running) then s.beginRestart c else { s with prot := { s.prot with restartDue := none } }
  | none => s

/-- Cycle 0 of frame P + 1 of a power failure: nothing is latched, staged changes are discarded (Table 10-9). -/
def State.failFrame (s : State) : State := { s.dropStaged with power := { s.power with run := .failing } }

/-- FRAME_START after the frame that ends has been measured. -/
def State.beginFrame (s : State) (tj : Int) : State :=
  let s1 := s.freshFrame.countFrame
  match s.power.fail with
  | some _ => s1.failFrame
  | none =>
    let s2 := (s1.restartIfDue).thermal tj
    let s3 := if s2.works then s2.latchAll else s2
    let s4 := if s3.inPair then (s3.sendTwin 1 (.marker s3.frame.num)).sendBodies else s3
    { s4 with cut := s4.cutHere }

/-- FRAME_START (R16). -/
def execFrameStart (tj : Int) (s : State) : Host.Outcome State Fault Refusal :=
  ok (if s.ticks && decide (11920 ≤ s.frame.cycle) then s.measure.beginFrame tj else s)

/-- THERMAL_FALLBACK (R42). -/
def execThermalFallback (s : State) : Host.Outcome State Fault Refusal :=
  ok (if s.ticks && decide (s.frame.cycle = 0) && decide (100 ≤ s.frame.cool) && decide (0 < s.frame.level) then s.setLevel (s.frame.level - 1) else s)

/-! ## Frame alignment (R45, R46) -/

/-- The offset a follower measures: beyond 50 ns it counts a frame, beyond 1 µs the heartbeat counts as missing (R46). -/
def State.measureOffset (s : State) (offset : Int) (marker : Bool) : State :=
  let beyond (n : Int) : Bool := decide (n < offset) || decide (offset < -n)
  { s with
    frame := { s.frame with
      offset := offset, syncMarker := marker, syncSeen := true
      badAlign := if beyond 50 then s.frame.badAlign + 1 else 0 }
    twin := if beyond 1000 then { s.twin with heartbeat := false } else s.twin }

/-- FRAME_SYNC_IN_EDGE (R45). -/
def execFrameSyncInEdge (offset : Int) (s : State) : Host.Outcome State Fault Refusal :=
  ok (if !s.ticks || !s.inPair then s
      else
        let s1 := { s with twin := { s.twin with partnerSync := true } }
        if s.frame.leader then s1 else s1.measureOffset offset false)

/-- ALIGN_WARN (R46). -/
def execAlignWarn (s : State) : Host.Outcome State Fault Refusal :=
  ok (if s.ticks && decide (16 ≤ s.frame.badAlign) then
        ({ s with frame := { s.frame with alignWarn := true, badAlign := 0 } }).raise 0x1002 false (tc32 s.frame.offset)
          (if s.frame.syncMarker then 1 else 0) 0
      else s)

/-! ## Grants (R39) -/

/-- GRANT_COMPUTE (R39). -/
def execGrantCompute (s : State) : Host.Outcome State Fault Refusal :=
  ok (s.workPhase 1 32 (fun t => { t with frame := { t.frame with grants := t.computeGrants } }))

end Sys2Proof.Machine
end

