-- ==== Sys2Proof/Machine/Admit.lean ====
section
/-! DEFINITION. Admission: candidates, checks by rank, reservations, cancels (R22 to R25, R52 to R57, R64, R78, R79, R82, R172, R262 to R265, R491, R492). -/

namespace Sys2Proof.Machine

/-! ## What a frame admits (R22, R23, R381) -/

/-- Bytes a checkpoint body already holds, apart from the admission records: header, calls in flight, finish records (Table 10-3). -/
def State.bodyBytes (s : State) : Nat :=
  64 + 64 * (s.jobs.filter (fun j => j.pke.isSome)).length + 48 * (s.jobs.filter (fun j => j.finished && j.finishCkpt.isNone)).length + 64 * s.mail.replies.length

/-- Descriptors this frame may admit: 2,048, in a pair what the body has room for beside a progress record (R22, R381). -/
def State.admitLimit (s : State) : Nat := if s.isPaired then min 2048 ((262144 - 18496 - s.bodyBytes) / 96) else 2048

/-- The descriptors this frame admits, in order: two from each instance, then the rest (R22, R23). -/
def State.toAdmit (s : State) : List Candidate :=
  let all := s.instOrder.map s.candidates
  (all.flatMap (List.take 2) ++ all.flatMap (List.drop 2)).take (min s.admitLimit (16384 - s.jobs.length))

/-! ## Checks by rank (Table 02-11, R78) -/

/-- The record map a job of program 0x00C0 names (R172). -/
def State.mapOf (s : State) (c : Candidate) : Option RecMap :=
  if c.desc.program = 0x00C0 then (s.inst c.inst).bind (fun x => tget x.maps (c.desc.arg.toNat % 256)) else none

/-- The key a handle word gives: none for type 0x00 (Table 02-1). -/
def handleOpt (h : Handle) : Option Handle := if hType h = 0 then none else some h

/-- Keys KEY0 and KEY1 of a candidate, from the map for program 0x00C0 (R172). -/
def State.keysOf (s : State) (c : Candidate) : List (Nat × Handle) :=
  let ks := match s.mapOf c with
    | some m => [(0, handleOpt m.key0), (1, handleOpt m.key1)]
    | none => [(0, handleOpt c.desc.key0), (1, handleOpt c.desc.key1)]
  ks.filterMap (fun k => k.2.map (fun h => (k.1, h)))

/-- KEYn_SPEC of a header. -/
def keySpecOf (h : Header) (k : Nat) : Word := if k = 0 then h.key0Spec else h.key1Spec

/-- How a header requires a key: 0 none, 1 optional, 2 required. -/
def specNeed (w : Word) : Nat := w.toNat % 4

/-- Invocations per job of a key specification. -/
def specInvs (w : Word) : Nat := w.toNat / 8 % 65536

/-- Usage bits a key specification requires. -/
def specUsage (w : Word) : BitVec 16 := BitVec.ofNat 16 (w.toNat / 2 ^ 19)

/-- A handle word that breaks R57: unused by the program and not zero. One the program uses whose type is 0x00 is a missing handle (rank 4). -/
def badHandle (w : Handle) (used : Bool) : Bool := !used && w != 0

/-- The first offending descriptor field at rank 1 (Table 02-8, Table 02-11). -/
def State.descFault (s : State) (c : Candidate) (h : Option Header) : Option Nat :=
  let d := c.desc
  let used (k : Nat) : Bool := h.elim true (fun h => specNeed (keySpecOf h k) != 0)
  let isNet := c.net.isSome
  let badMap := d.program == 0x00C0 && h.isSome && (d.arg.toNat / 256 != 0 || (s.mapOf c).isNone)
  let badArg := isNet && (decide (0 < c.argLen) && d.arg != 0 || decide (8320 < c.argLen))
  let checks : List (Bool × Nat) :=
    [(d.flags.toNat / 32 != 0 || (isNet && d.flags.toNat % 4 != 0), 0x02),
     (badHandle d.key0 (used 0), 0x08), (badHandle d.key1 (used 1), 0x10), (isNet && d.src != 0, 0x18),
     (if isNet then d.dst != 0 else d.dst == 0 && h.isSome && producesOutput d.program.toNat, 0x20),
     (h.elim (decide (6 ≤ d.padMode.toNat)) (fun h => if h.padModes = 0 then d.padMode != 0 else !(h.padModes.getLsbD d.padMode.toNat)), 0x2D),
     (d.priority.toNat / 4 != 0, 0x2E), (d.rsv33 != 0, 0x33), (d.rsv37 != 0, 0x37), (badMap || badArg, 0x38)]
  (checks.find? (·.1)).map (·.2)

/-- A resource the program needs has a maximum share of 0, or a key record would exceed the key-store bytes (rank 3). -/
def State.noShare (s : State) (c : Candidate) (h : Header) : Bool :=
  match s.inst c.inst with
  | none => true
  | some x =>
    let zero (r : Nat) : Bool := x.share.maxs.getD r 0 == 0
    zero 0 || (h.resources.getLsbD 0 && zero 1) || (h.resources.getLsbD 1 && zero 3) || (h.resources.getLsbD 2 && zero 4) ||
      (h.resources.getLsbD 3 && zero 2) || (h.resources.getLsbD 4 && !s.slotRoom c.inst 1)

/-- The usage bits a record map needs of key k (R326). -/
def mapUsage (m : RecMap) (k : Nat) : BitVec 16 :=
  let mac := m.ops.getLsbD 1 || m.ops.getLsbD 4
  let isMac := mac && (if m.macKey1 then k == 1 else k == 0)
  0x1000 ||| (if m.ops.getLsbD 0 then 0x0200 else 0) ||| (if isMac && m.ops.getLsbD 1 then 0x0020 else 0) |||
    (if isMac && m.ops.getLsbD 4 then 0x0010 else 0)

/-- The type a record map needs of its MAC key (R326). -/
def mapType (m : RecMap) (k : Nat) (t : BitVec 8) : Bool :=
  let mac := (m.ops.getLsbD 1 || m.ops.getLsbD 4) && (if m.macKey1 then k == 1 else k == 0)
  !mac || (if m.macAlg = 3 then isAes t else isTdea t)

/-- Rank 7 for one key: type, usage, counter mode, TDEA_OK, BRANCH, binding (Table 07-8, R256). -/
def State.keyDenied (s : State) (c : Candidate) (h : Header) (rom : Bool) (k : Nat × Handle) : Bool :=
  let id := c.desc.program.toNat
  let measure := s.measureOfProgram c.inst id
  match s.node (hInst k.2) (hNode k.2) with
  | none => true
  | some n =>
    n.ktype == 0x01 ||
    (match s.mapOf c with
     | some m => (n.usage &&& mapUsage m k.1) != mapUsage m k.1 || !mapType m k.1 n.ktype
     | none =>
       let w := keySpecOf h k.1
       (n.usage &&& specUsage w) != specUsage w || (rom && !romKeyType id (k.1 == 1) n.ktype) || (w.getLsbD 2 && !n.ctrMode)) ||
    (rom && isTdea n.ktype && !n.tdeaOk) ||
    (s.bindings (hInst k.2) (hNode k.2)).any (fun b => b != some measure)

/-- LENGTH breaks the program's limits or the block multiple of its PAD_MODE (rank 9, R153). -/
def State.lengthBad (s : State) (c : Candidate) (h : Header) : Bool :=
  let n := c.desc.length.toNat
  let m := c.desc.padMode
  let id := c.desc.program
  decide (n < h.lenMin) || decide (h.lenMax < n) ||
    ((m == 0 && h.padModes.getLsbD 0 || (h.decrypt && (m == 1 || m == 2 || m == 3))) && n % h.block != 0) ||
    (h.decrypt && (m == 1 || m == 2) && decide (n < h.block)) || (m == 5 && decide (n < h.block)) ||
    (id == 0x0034 && n % 8 != 0) || (id == 0x0071 && n != 8 && n != 16) ||
    (match s.mapOf c with | some r => n != r.recLen | none => false) ||
    (c.net.isSome && (decide (65536 < n) || decide (65536 < c.outCap) || c.input.length != n))

/-- Invocations the program declares for a key that serves in counter mode. -/
def State.invsFor (s : State) (c : Candidate) (h : Header) (k : Nat × Handle) : Nat :=
  match s.node (hInst k.2) (hNode k.2) with
  | some n => if n.ctrMode && (s.mapOf c).isNone then specInvs (keySpecOf h k.1) else 0
  | none => 0

/-- The first key, KEY0 before KEY1, that a check fails: its number as DETAIL. -/
def firstKey (ks : List (Nat × Handle)) (bad : Nat × Handle → Bool) : Option (BitVec 16) :=
  (ks.find? bad).map (fun k => BitVec.ofNat 16 k.1)

/-- A key the header requires is missing. -/
def keyMissing (h : Header) (ks : List (Nat × Handle)) (isMap : Bool) (k : Nat) : Bool :=
  !isMap && specNeed (keySpecOf h k) == 2 && !ks.any (fun e => e.1 == k)

/-- The first key, KEY0 before KEY1, that is missing where the program needs it or is unknown (rank 4). -/
def State.keyAbsent (s : State) (c : Candidate) (h : Header) : Option (BitVec 16) :=
  let ks := s.keysOf c
  ([0, 1].find? (fun k => keyMissing h ks (s.mapOf c).isSome k || ks.any (fun e => e.1 == k && s.keyUnknown c.inst e.2))).map (fun k => BitVec.ofNat 16 k)

/-- Ranks 4 to 11 over both keys. Rank 8 fails for no job: a job's operation is tenant work of class C1, which needs no token (Table 07-15). -/
def State.keyRanks (s : State) (c : Candidate) (h : Header) (rom : Bool) : Option (BitVec 7 × BitVec 16) :=
  let ks := s.keysOf c
  let at_ (f : Nat × Handle → Bool) (st : BitVec 7) : Option (BitVec 7 × BitVec 16) := (firstKey ks f).map (fun d => (st, d))
  ((s.keyAbsent c h).map (fun d => (St.keyUnknown, d))).or <|
  (at_ (fun k => s.keyGone k.2) St.keyGone).or <|
  (at_ (fun k => s.keyStale k.2) St.keyStale).or <|
  (at_ (fun k => s.keyDenied c h rom k) St.keyAttrDenied).or <|
  (if s.lengthBad c h then some (St.lengthInvalid, 0) else none).or <|
  (at_ (fun k => (s.node (hInst k.2) (hNode k.2)).elim false (fun n => n.state == .exhausted)) St.keyUseExhausted).or <|
  (at_ (fun k => (s.node (hInst k.2) (hNode k.2)).elim false (fun n => decide (n.invRemaining < s.invsFor c h k + s.invsOwed (hInst k.2) (hNode k.2)) && n.ctrMode)) St.counterExhausted)

/-- The first failing check of a descriptor: status and DETAIL (R78). -/
def State.refusal (s : State) (c : Candidate) : Option (BitVec 7 × BitVec 16) :=
  let p := s.program c.inst c.desc.program.toNat
  match s.descFault c (p.map (·.1)) with
  | some off => some (St.descInvalid, BitVec.ofNat 16 off)
  | none =>
    match p with
    | none => some (St.programUnknown, 0)
    | some (h, rom) => if s.noShare c h then some (St.quota, 0) else s.keyRanks c h rom

/-! ## Reservations (R78, R79, R264, R265) -/

/-- Take one use of a node for a job, or wait for its block (R264). -/
def State.jobUse (s : State) (slot inst idx : Nat) : State :=
  match s.node inst idx with
  | none => s
  | some n =>
    if !n.useLim then s
    else if n.hasUse then (s.takeUse inst idx)
    else
      (s.askUses inst idx).modJob slot (fun j => { j with usesWanted := j.usesWanted ++ [idx], st := .waiting .reservation })

/-- Take invocations of a counter-mode key for a job: what remains, and a wait for the next block where it is short; the next block is requested below 4,096 (R79, R265). -/
def State.jobInvs (s : State) (slot : Nat) (h : Handle) (k : Nat) : State :=
  match s.node (hInst h) (hNode h) with
  | none => s
  | some n =>
    if k = 0 then s
    else
      let r := n.takeInvs k
      let short := k - r.1.length
      let s1 := (s.modNode (hInst h) (hNode h) (fun _ => r.2)).modJob slot (fun j =>
        { j with
          invs := j.invs ++ [(h, r.1)]
          invsWanted := if 0 < short then j.invsWanted ++ [(h, short)] else j.invsWanted
          st := if 0 < short then .waiting .reservation else j.st })
      if r.2.invLeft < 4096 then s1.askInvs (hInst h) (hNode h) else s1

/-- Reserve for every key of a job: one use each, even where both name one node, and its invocations (R78). -/
def State.reserve (s : State) (slot : Nat) (c : Candidate) (h : Header) : State :=
  let ks := s.keysOf c
  let nodes := (ks.map (fun k => hNode k.2)).eraseDups
  let s1 := nodes.foldl (fun (t : State) n => t.jobUse slot c.inst n) s
  ks.foldl (fun (t : State) k => t.jobInvs slot k.2 (s.invsFor c h k)) s1

/-! ## Admitting one descriptor -/

/-- The lowest job slot not in flight (log 32). -/
def lowestSlot (used : List Nat) : Nat → Nat → Nat
  | 0, i => i
  | k + 1, i => if used.contains i then lowestSlot used k (i + 1) else i

/-- The mover a job is bound to: the first in service in the order of R26 (R151; log 33). -/
def State.freeMover (s : State) : Nat := ((rotated 16 s.frame.num).find? (fun m => !s.fenced (74 + m))).getD 0

/-- The descriptor leaves its ring, or its request its session (R62, R379, R492). -/
def State.takeCandidate (s : State) (c : Candidate) : State :=
  match c.q, c.net with
  | some q, _ => s.modQ c.inst q (fun x =>
      { x with
        taken := x.taken + 1, fetched := x.fetched.drop 1, ready := x.ready - 1, quiesced := false
        sqHead := if s.isPaired then x.sqHead else x.taken + 1 })
  | none, some (id, m) => { s with net := { s.net with sessions := s.net.sessions.map (fun (x : Session) =>
      if x.inst = c.inst ∧ x.id = id then { x with msgs := x.msgs.map (fun (y : NetMsg) => if y.msg = m then { y with taken := true } else y) } else x) } }
  | none, none => s

/-- The versions of its keys and of every ancestor that a job is bound to at its admission (R263). -/
def State.boundOf (s : State) (c : Candidate) : List (Nat × Nat) := ((s.keysOf c).flatMap (fun k => s.bindPath (hInst k.2) (hNode k.2))).eraseDups

/-- The job a candidate becomes, ADMITTED (R77). -/
def State.jobOf (s : State) (c : Candidate) (slot : Nat) : Job :=
  let id := c.desc.program.toNat
  let p := s.program c.inst id
  let x := s.inst c.inst
  let net := c.net.isSome
  { slot := slot, order := s.nextJob, inst := c.inst, q := c.q, net := c.net,
    ring := match c.q with | some q => x.elim 0 (fun x => x.qs[q].taken) | none => 0,
    desc := c.desc, admittedAt := s.frame.num, header := (p.map (·.1)).getD (romBase 0), rom := p.elim true (·.2),
    bound := s.boundOf c,
    tables := x.elim [] (·.tables), map := s.mapOf c, measure := s.measureOfProgram c.inst id, image := s.imageOfProgram c.inst id,
    outCap := if net then some c.outCap else none,
    ports := { src := if net then c.input else [], arg := if net && decide (0 < c.argLen) then some c.arg else none, mover := s.freeMover } }

/-- Admit one descriptor: it is in flight; a failing check finishes it, a passing one reserves for it (R25, R77, R78). -/
def State.admitOne (s : State) (c : Candidate) : State :=
  let slot := lowestSlot (s.jobs.map (·.slot)) 16384 0
  let j := s.jobOf c slot
  let s1 := { (s.takeCandidate c) with
    jobs := s.jobs ++ [j], nextJob := s.nextJob + 1, frame := { s.frame with admitted := s.frame.admitted + 1 } }
  let s2 := (s1.countInst c.inst 0 1).countGlob 58 1
  match s.refusal c with
  | some (st, d) => s2.endJob slot st d
  | none => (s2.modJob slot (fun j => { j with st := .runnable })).reserve slot c j.header

/-! ## Cancels (R82) -/

/-- Apply one cancel value of an instance: every unreleased job with that SEQ is squashed, or the value is counted as discarded. -/
def State.cancelOne (s : State) (i : Nat) (v : Reg32) : State :=
  if s.jobs.any (fun j => j.inst == i && j.desc.seq == v) then
    s.squashAll (fun j => j.inst == i && j.desc.seq == v) St.squashed (fun _ => 0) false
  else s.countInst i 13 1

/-- Apply the latched cancels of every pair in the order they were written. -/
def State.cancels (s : State) : State :=
  let s1 := s.insts.foldl (fun (t : State) (e : Nat × Inst) =>
    (e.2.qs.toList.flatMap (·.cancelsNow)).foldl (fun (t : State) v => t.cancelOne e.1 v) t) s
  { s1 with insts := s1.insts.map (fun (e : Nat × Inst) => (e.1, { e.2 with qs := e.2.qs.map (fun (q : QPair) => { q with cancelsNow := [] }) })) }

/-! ## Descriptor fetch (R63) -/

/-- Descriptors in the staging pool, and those being fetched. -/
def State.pooled (s : State) : Nat := (s.insts.map (fun (e : Nat × Inst) => (e.2.qs.toList.map (fun q => q.fetched.length + q.fetching)).sum)).sum

/-- Fetch what a pair has announced, at most 2,048 per ring and 8,192 in the pool, while the function may issue requests; a fetch past the end of the ring goes on at its start (R62, R63, R477). -/
def State.fetchMore (s : State) (i : Nat) (q : Fin 4) : State :=
  match s.inst i with
  | none => s
  | some x =>
    let p := x.qs[q]
    let n := min ((p.sqTail - p.taken).toNat - (p.fetched.length + p.fetching)) (min (2048 - (p.fetched.length + p.fetching)) (8192 - s.pooled))
    if !p.en || p.ringErr || n = 0 || !s.functionUp i then s
    else
      let at_ := (p.taken.toNat + p.fetched.length + p.fetching) % 2 ^ p.sqLog
      let m := min n (2 ^ p.sqLog - at_)
      let s1 := s.emit (.hostRead i (p.sqBase + BitVec.ofNat 64 (64 * at_)) (64 * m))
      (if m < n then s1.emit (.hostRead i p.sqBase (64 * (n - m))) else s1).modQ i q (fun y => { y with fetching := y.fetching + n })

/-- Fetch for every pair. -/
def State.fetchAll (s : State) : State :=
  s.insts.foldl (fun (t : State) (e : Nat × Inst) => (List.finRange 4).foldl (fun (t : State) q => t.fetchMore e.1 q) t) s

/-- Instances held back by their quota count a frame (Table 12-5). -/
def State.countHeld (s : State) : State :=
  s.insts.foldl (fun (t : State) (e : Nat × Inst) =>
    if s.quotaLeft e.1 = 0 && e.2.qs.any (fun q => q.arrived != []) then t.countInst e.1 12 1 else t) s

/-- Nothing is admitted: a life-cycle transition or a planned restart has committed (R419, R433). -/
def State.drains (s : State) : Bool := s.life.activate.isSome || s.life.trans.any (fun t => t.committed)

/-- The admission of a frame, its cancels, and the fetch of what was announced since (R22, R23, R63, R82). -/
def State.runAdmission (s : State) : State :=
  let s1 := ((if s.drains then [] else s.toAdmit).foldl State.admitOne s).cancels.countHeld
  let s2 := { s1 with
    frame := { s1.frame with
      admitFull := s1.frame.admitFull || decide (2048 ≤ s1.frame.admitted)
      inflightFull := s1.frame.inflightFull || decide (16384 ≤ s1.jobs.length) }
    twin := { s1.twin with admitCap := s.admitLimit } }
  s2.fetchAll

/-- ADMISSION (R23). -/
def execAdmission (s : State) : Host.Outcome State Fault Refusal :=
  ok (s.workPhase 32 64 State.runAdmission)

end Sys2Proof.Machine
end

