-- ==== Sys2Proof/Machine/Alu.lean ====
section
/-! DEFINITION. Register and immediate arithmetic and logic: majors 0x01 to 0x0A (R114 to R116). -/

namespace Sys2Proof.Machine

/-- The amount of a shift: bits [5:0] of gB (R114). -/
def shamt (b : Word) : Nat := (b.setWidth 6 : BitVec 6).toNat

/-- A truth value as 1 or 0. -/
def bit (p : Bool) : Word := if p then 1 else 0

/-- High half of the signed product. -/
def mulHigh (a b : Word) : Word := BitVec.ofInt 64 (a.toInt * b.toInt / 2 ^ 64)

/-- High half of the unsigned product. -/
def mulHighU (a b : Word) : Word := BitVec.ofNat 64 (a.toNat * b.toNat / 2 ^ 64)

/-- Signed quotient rounded toward zero; -1 for a divisor of 0 (R115). -/
def divS (a b : Word) : Word := if b = 0 then BitVec.allOnes 64 else BitVec.ofInt 64 (a.toInt.tdiv b.toInt)

/-- Unsigned quotient; all ones for a divisor of 0 (R115). -/
def divU (a b : Word) : Word := if b = 0 then BitVec.allOnes 64 else BitVec.ofNat 64 (a.toNat / b.toNat)

/-- Signed remainder, sign of the dividend; the dividend for a divisor of 0 (R115). -/
def remS (a b : Word) : Word := if b = 0 then a else BitVec.ofInt 64 (a.toInt.tmod b.toInt)

/-- Unsigned remainder; the dividend for a divisor of 0 (R115). -/
def remU (a b : Word) : Word := if b = 0 then a else BitVec.ofNat 64 (a.toNat % b.toNat)

/-- Leading zeros among the n low bits. -/
def leadZeros (w : Word) : Nat → Nat
  | 0 => 0
  | n + 1 => if w.getLsbD n then 0 else leadZeros w n + 1

/-- Trailing zeros among n bits from bit i. -/
def trailZeros (w : Word) : Nat → Nat → Nat
  | 0, _ => 0
  | n + 1, i => if w.getLsbD i then 0 else trailZeros w n (i + 1) + 1

/-- Number of 1 bits among the n low bits. -/
def popCount (w : Word) : Nat → Nat
  | 0 => 0
  | n + 1 => (w.getLsbD n).toNat + popCount w n

/-- The 8 bytes reversed. -/
def byteSwap (w : Word) : Word := BitVec.ofNat 64 (beNat (leBytes 8 w.toNat))

/-- Bits [16q + 15:16q] of a word of an immediate (R116). -/
def quarter (imm : BitVec 16) (q : BitVec 2) : Word := imm.setWidth 64 <<< (16 * q.toNat)

/-- ADD (R114). -/
def execAdd (l : LaneId) (d a b : GReg) (s : State) : Host.Outcome State Fault Refusal :=
  ok (gStep l d (fun c => c.rg a + c.rg b) s)

/-- SUB (R114). -/
def execSub (l : LaneId) (d a b : GReg) (s : State) : Host.Outcome State Fault Refusal :=
  ok (gStep l d (fun c => c.rg a - c.rg b) s)

/-- AND (R114). -/
def execAnd (l : LaneId) (d a b : GReg) (s : State) : Host.Outcome State Fault Refusal :=
  ok (gStep l d (fun c => c.rg a &&& c.rg b) s)

/-- OR (R114). -/
def execOr (l : LaneId) (d a b : GReg) (s : State) : Host.Outcome State Fault Refusal :=
  ok (gStep l d (fun c => c.rg a ||| c.rg b) s)

/-- XOR (R114). -/
def execXor (l : LaneId) (d a b : GReg) (s : State) : Host.Outcome State Fault Refusal :=
  ok (gStep l d (fun c => c.rg a ^^^ c.rg b) s)

/-- ANDN (R114). -/
def execAndn (l : LaneId) (d a b : GReg) (s : State) : Host.Outcome State Fault Refusal :=
  ok (gStep l d (fun c => c.rg a &&& ~~~(c.rg b)) s)

/-- SLL (R114). -/
def execSll (l : LaneId) (d a b : GReg) (s : State) : Host.Outcome State Fault Refusal :=
  ok (gStep l d (fun c => c.rg a <<< shamt (c.rg b)) s)

/-- SRL (R114). -/
def execSrl (l : LaneId) (d a b : GReg) (s : State) : Host.Outcome State Fault Refusal :=
  ok (gStep l d (fun c => c.rg a >>> shamt (c.rg b)) s)

/-- SRA (R114). -/
def execSra (l : LaneId) (d a b : GReg) (s : State) : Host.Outcome State Fault Refusal :=
  ok (gStep l d (fun c => (c.rg a).sshiftRight (shamt (c.rg b))) s)

/-- ROR (R114). -/
def execRor (l : LaneId) (d a b : GReg) (s : State) : Host.Outcome State Fault Refusal :=
  ok (gStep l d (fun c => (c.rg a).rotateRight (shamt (c.rg b))) s)

/-- SLT (R114). -/
def execSlt (l : LaneId) (d a b : GReg) (s : State) : Host.Outcome State Fault Refusal :=
  ok (gStep l d (fun c => bit ((c.rg a).slt (c.rg b))) s)

/-- SLTU (R114). -/
def execSltu (l : LaneId) (d a b : GReg) (s : State) : Host.Outcome State Fault Refusal :=
  ok (gStep l d (fun c => bit ((c.rg a).ult (c.rg b))) s)

/-- MIN (R114). -/
def execMin (l : LaneId) (d a b : GReg) (s : State) : Host.Outcome State Fault Refusal :=
  ok (gStep l d (fun c => if (c.rg a).slt (c.rg b) then c.rg a else c.rg b) s)

/-- MAX (R114). -/
def execMax (l : LaneId) (d a b : GReg) (s : State) : Host.Outcome State Fault Refusal :=
  ok (gStep l d (fun c => if (c.rg a).slt (c.rg b) then c.rg b else c.rg a) s)

/-- MINU (R114). -/
def execMinu (l : LaneId) (d a b : GReg) (s : State) : Host.Outcome State Fault Refusal :=
  ok (gStep l d (fun c => if (c.rg a).ult (c.rg b) then c.rg a else c.rg b) s)

/-- MAXU (R114). -/
def execMaxu (l : LaneId) (d a b : GReg) (s : State) : Host.Outcome State Fault Refusal :=
  ok (gStep l d (fun c => if (c.rg a).ult (c.rg b) then c.rg b else c.rg a) s)

/-- SEL (R114). -/
def execSel (l : LaneId) (d a b : GReg) (s : State) : Host.Outcome State Fault Refusal :=
  ok (gStep l d (fun c => if c.rg d ≠ 0 then c.rg a else c.rg b) s)

/-- MUL (R114). -/
def execMul (l : LaneId) (d a b : GReg) (s : State) : Host.Outcome State Fault Refusal :=
  ok (gStep l d (fun c => c.rg a * c.rg b) s)

/-- MULH (R114). -/
def execMulh (l : LaneId) (d a b : GReg) (s : State) : Host.Outcome State Fault Refusal :=
  ok (gStep l d (fun c => mulHigh (c.rg a) (c.rg b)) s)

/-- MULHU (R114). -/
def execMulhu (l : LaneId) (d a b : GReg) (s : State) : Host.Outcome State Fault Refusal :=
  ok (gStep l d (fun c => mulHighU (c.rg a) (c.rg b)) s)

/-- DIV (R115). -/
def execDiv (l : LaneId) (d a b : GReg) (s : State) : Host.Outcome State Fault Refusal :=
  ok (gStep l d (fun c => divS (c.rg a) (c.rg b)) s)

/-- DIVU (R115). -/
def execDivu (l : LaneId) (d a b : GReg) (s : State) : Host.Outcome State Fault Refusal :=
  ok (gStep l d (fun c => divU (c.rg a) (c.rg b)) s)

/-- REM (R115). -/
def execRem (l : LaneId) (d a b : GReg) (s : State) : Host.Outcome State Fault Refusal :=
  ok (gStep l d (fun c => remS (c.rg a) (c.rg b)) s)

/-- REMU (R115). -/
def execRemu (l : LaneId) (d a b : GReg) (s : State) : Host.Outcome State Fault Refusal :=
  ok (gStep l d (fun c => remU (c.rg a) (c.rg b)) s)

/-- CLZ (R114). -/
def execClz (l : LaneId) (d a : GReg) (s : State) : Host.Outcome State Fault Refusal :=
  ok (gStep l d (fun c => BitVec.ofNat 64 (leadZeros (c.rg a) 64)) s)

/-- CTZ (R114). -/
def execCtz (l : LaneId) (d a : GReg) (s : State) : Host.Outcome State Fault Refusal :=
  ok (gStep l d (fun c => BitVec.ofNat 64 (trailZeros (c.rg a) 64 0)) s)

/-- POPC (R114). -/
def execPopc (l : LaneId) (d a : GReg) (s : State) : Host.Outcome State Fault Refusal :=
  ok (gStep l d (fun c => BitVec.ofNat 64 (popCount (c.rg a) 64)) s)

/-- BSWAP (R114). -/
def execBswap (l : LaneId) (d a : GReg) (s : State) : Host.Outcome State Fault Refusal :=
  ok (gStep l d (fun c => byteSwap (c.rg a)) s)

/-- ADDI (R116). -/
def execAddi (l : LaneId) (d a : GReg) (imm : BitVec 16) (s : State) : Host.Outcome State Fault Refusal :=
  ok (gStep l d (fun c => c.rg a + sx16 imm) s)

/-- ANDI (R116). -/
def execAndi (l : LaneId) (d a : GReg) (imm : BitVec 16) (s : State) : Host.Outcome State Fault Refusal :=
  ok (gStep l d (fun c => c.rg a &&& zx16 imm) s)

/-- ORI (R116). -/
def execOri (l : LaneId) (d a : GReg) (imm : BitVec 16) (s : State) : Host.Outcome State Fault Refusal :=
  ok (gStep l d (fun c => c.rg a ||| zx16 imm) s)

/-- XORI (R116). -/
def execXori (l : LaneId) (d a : GReg) (imm : BitVec 16) (s : State) : Host.Outcome State Fault Refusal :=
  ok (gStep l d (fun c => c.rg a ^^^ zx16 imm) s)

/-- SLTI (R116). -/
def execSlti (l : LaneId) (d a : GReg) (imm : BitVec 16) (s : State) : Host.Outcome State Fault Refusal :=
  ok (gStep l d (fun c => bit ((c.rg a).slt (sx16 imm))) s)

/-- SLTIU (R116). -/
def execSltiu (l : LaneId) (d a : GReg) (imm : BitVec 16) (s : State) : Host.Outcome State Fault Refusal :=
  ok (gStep l d (fun c => bit ((c.rg a).ult (sx16 imm))) s)

/-- SLLI (R116). -/
def execSlli (l : LaneId) (d a : GReg) (n : BitVec 6) (s : State) : Host.Outcome State Fault Refusal :=
  ok (gStep l d (fun c => c.rg a <<< n.toNat) s)

/-- SRLI (R116). -/
def execSrli (l : LaneId) (d a : GReg) (n : BitVec 6) (s : State) : Host.Outcome State Fault Refusal :=
  ok (gStep l d (fun c => c.rg a >>> n.toNat) s)

/-- SRAI (R116). -/
def execSrai (l : LaneId) (d a : GReg) (n : BitVec 6) (s : State) : Host.Outcome State Fault Refusal :=
  ok (gStep l d (fun c => (c.rg a).sshiftRight n.toNat) s)

/-- RORI (R116). -/
def execRori (l : LaneId) (d a : GReg) (n : BitVec 6) (s : State) : Host.Outcome State Fault Refusal :=
  ok (gStep l d (fun c => (c.rg a).rotateRight n.toNat) s)

/-- QSET (R116). -/
def execQset (l : LaneId) (d : GReg) (imm : BitVec 16) (q : BitVec 2) (s : State) : Host.Outcome State Fault Refusal :=
  ok (gStep l d (fun _ => quarter imm q) s)

/-- QINS (R116). -/
def execQins (l : LaneId) (d : GReg) (imm : BitVec 16) (q : BitVec 2) (s : State) : Host.Outcome State Fault Refusal :=
  ok (gStep l d (fun c => (c.rg d &&& ~~~(quarter 0xFFFF q)) ||| quarter imm q) s)

end Sys2Proof.Machine
end

