-- ==== Sys2Proof/Machine/BlockRegs.lean ====
section
/-! DEFINITION. Block and key registers, carry-less multiplication: majors 0x28, 0x29, 0x32 (R120, R121, R145). -/

namespace Sys2Proof.Machine

/-- Carry-less product of a and the n low bits of b. -/
def clmulGo (a : Blk) (b : Word) : Nat → Blk
  | 0 => 0
  | n + 1 => clmulGo a b n ^^^ (if b.getLsbD n then a <<< n else 0)

/-- 128-bit carry-less product of two words (R145). -/
def clmul (a b : Word) : Blk := clmulGo (a.setWidth 128) b 64

/-- Low half of a block register. -/
def blkLo (b : Blk) : Word := b.setWidth 64

/-- High half of a block register. -/
def blkHi (b : Blk) : Word := b.extractLsb' 64 64

/-- Bit i of a block in the order of SP 800-38D: bit 7 of byte 0 is the coefficient of x^0 (R145). -/
def gcmBit (b : Blk) (i : Nat) : Bool := b.getLsbD (8 * (i / 8) + (7 - i % 8))

/-- The block with the single coefficient x^i. -/
def gcmUnit (i : Nat) : Blk := (1 : Blk) <<< (8 * (i / 8) + (7 - i % 8))

/-- The polynomial of a block as a number: coefficient of x^i in bit i. -/
def gcmPoly (b : Blk) : Nat → Nat
  | 0 => 0
  | n + 1 => (if gcmBit b n then 2 ^ n else 0) + gcmPoly b n

/-- The block of a polynomial. -/
def gcmOfPoly (p : Nat) : Nat → Blk
  | 0 => 0
  | n + 1 => (if p.testBit n then gcmUnit n else 0) ^^^ gcmOfPoly p n

/-- Multiply a polynomial below x^128 by x modulo x^128 + x^7 + x^2 + x + 1. -/
def gfX (p : Nat) : Nat := if p.testBit 127 then (2 * p) % 2 ^ 128 ^^^ 0x87 else 2 * p

/-- Sum of p·x^i over the coefficients of q, n of them, lowest first. -/
def gfMulGo (q : Nat) : Nat → Nat → Nat → Nat → Nat
  | 0, _, _, acc => acc
  | n + 1, i, p, acc => gfMulGo q n (i + 1) (gfX p) (if q.testBit i then acc ^^^ p else acc)

/-- Product in GF(2^128) in the order of SP 800-38D (R145). -/
def gfMul (a b : Blk) : Blk := gcmOfPoly (gfMulGo (gcmPoly b 128) 128 0 (gcmPoly a 128) 0) 128

/-- Product with alpha in the order of IEEE 1619: bit i of byte j is the coefficient of x^(8j + i) (R145). -/
def xtsMul (a : Blk) : Blk := (a <<< 1) ^^^ (if a.getLsbD 127 then 0x87 else 0)

/-- The 16 bytes reversed. -/
def blkSwap (b : Blk) : Blk := blkOf (blkBytes b).reverse

/-- An instruction that writes a block register from others. -/
def vStep (l : LaneId) (eng : Bool) (d : VReg) (srcs : List VReg) (f : Ctx → Blk) (s : State) : State :=
  bankStep l eng (d :: srcs) (fun c => .ok (c.wv d (f c))) s

/-- An instruction that writes a general register from block registers. -/
def vgStep (l : LaneId) (eng : Bool) (d : GReg) (srcs : List VReg) (f : Ctx → Word) (s : State) : State :=
  bankStep l eng srcs (fun c => .ok (c.wg d (f c))) s

/-- VMOV (R120). -/
def execVmov (l : LaneId) (d a : VReg) (s : State) : Host.Outcome State Fault Refusal :=
  ok (vStep l false d [a] (fun c => c.rv a) s)

/-- VXOR (R120). -/
def execVxor (l : LaneId) (d a b : VReg) (s : State) : Host.Outcome State Fault Refusal :=
  ok (vStep l false d [a, b] (fun c => c.rv a ^^^ c.rv b) s)

/-- VAND (R120). -/
def execVand (l : LaneId) (d a b : VReg) (s : State) : Host.Outcome State Fault Refusal :=
  ok (vStep l false d [a, b] (fun c => c.rv a &&& c.rv b) s)

/-- VOR (R120). -/
def execVor (l : LaneId) (d a b : VReg) (s : State) : Host.Outcome State Fault Refusal :=
  ok (vStep l false d [a, b] (fun c => c.rv a ||| c.rv b) s)

/-- VANDN (R120). -/
def execVandn (l : LaneId) (d a b : VReg) (s : State) : Host.Outcome State Fault Refusal :=
  ok (vStep l false d [a, b] (fun c => c.rv a &&& ~~~(c.rv b)) s)

/-- VZERO (R120). -/
def execVzero (l : LaneId) (d : VReg) (s : State) : Host.Outcome State Fault Refusal :=
  ok (vStep l false d [] (fun _ => 0) s)

/-- VBSWAP (R120). -/
def execVbswap (l : LaneId) (d a : VReg) (s : State) : Host.Outcome State Fault Refusal :=
  ok (vStep l false d [a] (fun c => blkSwap (c.rv a)) s)

/-- VINS (R120). -/
def execVins (l : LaneId) (d : VReg) (a : GReg) (hi : Bool) (s : State) : Host.Outcome State Fault Refusal :=
  ok (vStep l false d [] (fun c => if hi then c.rg a ++ blkLo (c.rv d) else blkHi (c.rv d) ++ c.rg a) s)

/-- VEXT (R120). -/
def execVext (l : LaneId) (d : GReg) (a : VReg) (hi : Bool) (s : State) : Host.Outcome State Fault Refusal :=
  ok (vgStep l false d [a] (fun c => if hi then blkHi (c.rv a) else blkLo (c.rv a)) s)

/-- VEQ (R120). -/
def execVeq (l : LaneId) (d : GReg) (a b : VReg) (s : State) : Host.Outcome State Fault Refusal :=
  ok (vgStep l false d [a, b] (fun c => if c.rv a = c.rv b then 1 else 0) s)

/-- KMOV (R121). -/
def execKmov (l : LaneId) (d a : KReg) (s : State) : Host.Outcome State Fault Refusal :=
  ok (bankStep l false [] (fun c => .ok (c.wk d (c.rk a))) s)

/-- KCLR (R121). -/
def execKclr (l : LaneId) (d : KReg) (s : State) : Host.Outcome State Fault Refusal :=
  ok (bankStep l false [] (fun c => .ok (c.wk d none)) s)

/-- KINF of a key register: the handle's type, and bit 8 when it holds one (R121). -/
def keyInfo (k : Option Handle) : Word :=
  match k with
  | some h => (hType h).setWidth 64 ||| 0x100
  | none => 0

/-- KINF (R121). -/
def execKinf (l : LaneId) (d : GReg) (a : KReg) (s : State) : Host.Outcome State Fault Refusal :=
  ok (bankStep l false [] (fun c => .ok (c.wg d (keyInfo (c.rk a)))) s)

/-- CLMUL_LL (R145). -/
def execClmulLl (l : LaneId) (d a b : VReg) (s : State) : Host.Outcome State Fault Refusal :=
  ok (vStep l true d [a, b] (fun c => clmul (blkLo (c.rv a)) (blkLo (c.rv b))) s)

/-- CLMUL_LH (R145). -/
def execClmulLh (l : LaneId) (d a b : VReg) (s : State) : Host.Outcome State Fault Refusal :=
  ok (vStep l true d [a, b] (fun c => clmul (blkLo (c.rv a)) (blkHi (c.rv b))) s)

/-- CLMUL_HL (R145). -/
def execClmulHl (l : LaneId) (d a b : VReg) (s : State) : Host.Outcome State Fault Refusal :=
  ok (vStep l true d [a, b] (fun c => clmul (blkHi (c.rv a)) (blkLo (c.rv b))) s)

/-- CLMUL_HH (R145). -/
def execClmulHh (l : LaneId) (d a b : VReg) (s : State) : Host.Outcome State Fault Refusal :=
  ok (vStep l true d [a, b] (fun c => clmul (blkHi (c.rv a)) (blkHi (c.rv b))) s)

/-- GFMUL (R145). -/
def execGfmul (l : LaneId) (d a b : VReg) (s : State) : Host.Outcome State Fault Refusal :=
  ok (vStep l true d [a, b] (fun c => gfMul (c.rv a) (c.rv b)) s)

/-- GFMAC (R145). -/
def execGfmac (l : LaneId) (d a b : VReg) (s : State) : Host.Outcome State Fault Refusal :=
  ok (vStep l true d [a, b] (fun c => gfMul (c.rv d ^^^ c.rv a) (c.rv b)) s)

/-- XTSMUL (R145). -/
def execXtsmul (l : LaneId) (d a : VReg) (s : State) : Host.Outcome State Fault Refusal :=
  ok (vStep l true d [a] (fun c => xtsMul (c.rv a)) s)

end Sys2Proof.Machine
end

