-- ==== Sys2Proof/Machine/Mail.lean ====
section
/-! DEFINITION. Mailbox and custodian-port messages: consuming a request, who may send what, replies into their rings, the authorisation token (R290 to R292, R304 to R311, R441, R444, R501 to R504). -/

namespace Sys2Proof.Machine

/-! ## Frames of the custodian ports (R501, R502) -/

/-- Change a custodian port. -/
def State.modCust (s : State) (c : Fin 2) (f : CustPort → CustPort) : State :=
  { s with cust := { s.cust with ports := s.cust.ports.set c.val (f s.cust.ports[c]) c.isLt } }

/-- One bit of the CRC-32 of IEEE 802.3, least significant bit first. -/
def crcBit (c : BitVec 32) : BitVec 32 := if c.getLsbD 0 then (c >>> 1) ^^^ 0xEDB88320 else c >>> 1

/-- The CRC-32 of IEEE 802.3 over bytes (R501). -/
def crc32 (b : Bytes) : BitVec 32 :=
  ~~~(b.foldl (fun (c : BitVec 32) x => crcBit (crcBit (crcBit (crcBit (crcBit (crcBit (crcBit (crcBit (c ^^^ x.setWidth 32))))))))) 0xFFFFFFFF)

/-- KIND, SEQ and LENGTH of a frame. -/
def portHead (kind seq len : Nat) : Bytes := leBytes 1 kind ++ leBytes 1 seq ++ leBytes 2 len

/-- The check of a frame outside a keyed session: the CRC-32 and 12 zero bytes (R501). -/
def crcCheck (head payload : Bytes) : Bytes := leBytes 4 (crc32 (head ++ payload)).toNat ++ zeros 12

/-- A frame's payload and check: under the session's unit-to-terminal key, or in clear with its CRC (R501, R503). -/
def CustPort.seal (p : CustPort) (kind : Nat) (payload : Bytes) : Bytes :=
  let h := portHead kind p.txSeq payload.length
  match p.session with
  | some (_, keys) =>
    let g := Config.gcm (keys.drop 32) (zeros 4 ++ leBytes 8 p.txCount) h payload
    g.1 ++ leBytes 16 g.2.toNat
  | none => payload ++ crcCheck h payload

/-- The counter of a terminal's frame: frames take consecutive numbers, and one sent again keeps its own (R503). -/
def CustPort.rxPlace (p : CustPort) (seq : Nat) : Nat :=
  let d := (seq + 256 - p.rxSeq % 256) % 256
  if d < 252 then p.rxCount + d else p.rxCount + d - 256

/-- The check a terminal's frame must carry: the tag over the payload it opens to under the terminal-to-unit key, or its CRC (R501, R503). -/
def CustPort.checkOf (p : CustPort) (kind seq : Nat) (payload : Bytes) : Bytes :=
  let h := portHead kind seq payload.length
  match p.session with
  | some (_, keys) => leBytes 16 (Config.gcm (keys.take 32) (zeros 4 ++ leBytes 8 (p.rxPlace seq)) h payload).2.toNat
  | none => crcCheck h payload

/-- Send a frame now; one other than an ACK is held until it is acknowledged (R502). -/
def State.putPort (s : State) (c : Fin 2) (kind : Nat) (payload : Bytes) : State :=
  let p := s.cust.ports[c]
  let b := p.seal kind payload
  (s.modCust c (fun p =>
    { p with
      txSeq := (p.txSeq + 1) % 256
      txCount := p.txCount + (if p.session.isSome then 1 else 0)
      unacked := if kind = 5 then p.unacked else p.unacked ++ [{ seq := p.txSeq, kind := kind, payload := b }] })).emit
    (.portFrame c kind p.txSeq b)

/-- Send a frame on a port, or let it wait while 4 are unacknowledged (R502). -/
def State.sendPort (s : State) (c : Fin 2) (kind : Nat) (payload : Bytes) : State :=
  if 4 ≤ s.cust.ports[c].unacked.length then s.modCust c (fun p => { p with waiting := p.waiting ++ [(kind, payload)] })
  else s.putPort c kind payload

/-! ## Messages of the unit (Table 08-5) -/

/-- The 64 bytes of a reply or notice; what its body holds beyond 48 bytes follows as an extended body, on a port (R307, R421, R504). -/
def Reply.bytes (r : Reply) : Bytes :=
  let ext := r.body.drop 48
  leBytes 1 r.mtype ++ leBytes 1 r.status.toNat ++ leBytes 2 r.tag.toNat ++
  leBytes 1 ((if ext = [] then 0 else 1) + (if r.notice then 2 else 0) + (if r.interim then 4 else 0)) ++ leBytes 3 ext.length ++ zeros 8 ++
  padTo 48 r.body ++ ext

/-- A final reply answers a request (R304). -/
def Reply.final (r : Reply) : Bool := !r.notice && !r.interim

/-- The instance whose OUTSTANDING counts a source's requests: a port's count with instance 0's (R305, R504). -/
def destInst : Dest → Nat
  | .mailbox i => i
  | .port _ => 0

/-- A request has its final reply: OUTSTANDING falls (R304). -/
def State.answered (s : State) (r : Reply) : State :=
  if r.final then s.modInst (destInst r.dest) (fun x => { x with outstanding := x.outstanding - 1 }) else s

/-- A reply can be written: its ring has room, or it goes to a port. -/
def State.canWrite (s : State) (r : Reply) : Bool :=
  match r.dest with
  | .mailbox i => (s.inst i).elim false (fun x => decide ((x.rspTail - x.rspHead).toNat < 16))
  | .port _ => true

/-- Write a reply or notice: into the response ring, or as a DATA frame (R304, R504). -/
def State.writeReply (s : State) (r : Reply) : State :=
  match r.dest with
  | .port c => (s.sendPort c 4 r.bytes).answered r
  | .mailbox i =>
    match s.inst i with
    | none => s
    | some x =>
      let k := x.rspTail.toNat % 16
      ((s.modInst i (fun x =>
        { x with
          rsp := x.rsp.set k r.bytes (Nat.mod_lt _ (by decide))
          rspTail := x.rspTail + 1 })).emit (.mailbox i k r.bytes)).answered r

/-- Write every reply that has room, in order; RSP_FULL tells of one that has none (R304, R310). -/
def State.flushReplies (s : State) : State :=
  let rs := s.mail.replies
  rs.foldl (fun (t : State) r =>
    if t.canWrite r then t.writeReply r
    else { t with mail := { t.mail with replies := t.mail.replies ++ [r] } }.modInst (destInst r.dest) (fun x => { x with rspFull := true }))
    { s with mail := { s.mail with replies := [] } }

/-! ## Consuming a request (R305, R306, R310, R319, R504) -/

/-- The first bytes of a message carry this TYPE and TAG. -/
def headIs (b : Bytes) (mtype : Nat) (tag : BitVec 16) : Bool :=
  (b.getD 0 0).toNat == mtype && leNat ((b.drop 2).take 2) == tag.toNat && decide (2 ≤ b.length)

/-- The unit answers requests: its frames run, or it is stopped in the boot ROM and not scrapped (R441, R443); a silent unit issues nothing (R387). -/
def State.answers (s : State) : Bool := !s.twin.silent && (s.ticks || (decide (s.power.run = .stopped) && s.power.halt != 5))

/-- The unit gives DEVICE_HALTED: halted, or stopped (R80, R441). -/
def State.isDown (s : State) : Bool := decide (s.power.run = .halted) || decide (s.power.run = .stopped)

/-- An instance whose requests are consumed: not in a reset, a shadow, frozen or exported (R313, R319, R321, R378). -/
def Inst.consumes (x : Inst) : Bool := decide (x.state = .active) || decide (x.state = .stalled)

/-- An instance exists and is not exported: of one that is, only INST_REMOVE and INST_INFO are accepted (R321). -/
def State.takesCommands (s : State) (i : Nat) : Bool := (s.inst i).any (fun x => decide (x.state ≠ .exported))

/-- Consume the request at the head of an instance's ring. -/
def State.consumeFn (s : State) (n : Nat) (rq : Req) (mtype : Nat) : Option State :=
  match s.inst n with
  | none => none
  | some x =>
    if !x.consumes || x.reqHead == x.reqLatched || x.mbErr || decide (16 ≤ x.outstanding) || decide (4096 ≤ s.mail.consumed) ||
        !(headIs (x.req.toList.getD (x.reqHead.toNat % 16) []) mtype rq.tag) then none
    else some ({ s with mail := { s.mail with consumed := s.mail.consumed + 1 } }.modInst n (fun y =>
      { y with reqHead := y.reqHead + 1, outstanding := y.outstanding + 1 }))

/-- Length of the message at the head of a port's stream. -/
def portMsgLen (b : Bytes) : Nat := 64 + leNat ((b.drop 5).take 3)

/-- Consume the message at the head of a port's stream (R504). -/
def State.consumePort (s : State) (c : Fin 2) (rq : Req) (mtype : Nat) : Option State :=
  let b := s.cust.ports[c].stream
  if b.length < 64 || decide (b.length < portMsgLen b) || !(headIs b mtype rq.tag) || decide (4096 ≤ s.mail.consumed) ||
      (s.inst 0).elim true (fun x => decide (16 ≤ x.outstanding)) then none
  else some (({ s with mail := { s.mail with consumed := s.mail.consumed + 1 } }.modCust c (fun p =>
    { p with stream := p.stream.drop (portMsgLen b) })).modInst 0 (fun x => { x with outstanding := x.outstanding + 1 }))

/-- A request held for the Hollow (R310). -/
def State.heldHollow (s : State) (rq : Req) (mtype : Nat) : Bool :=
  s.mail.hollowWait.any (fun w => w.1 == rq.src && w.2.1 == rq.tag && w.2.2.1 == mtype)

/-- Take a held request up. -/
def State.dropHeld (s : State) (rq : Req) (mtype : Nat) : State :=
  { s with mail := { s.mail with hollowWait := s.mail.hollowWait.eraseP (fun w => w.1 == rq.src && w.2.1 == rq.tag && w.2.2.1 == mtype) } }

/-- Hold a consumed request until the Hollow serves again, or until a use block it waits for is committed (R264, R310). -/
def State.hold (s : State) (rq : Req) (mtype : Nat) : State :=
  { s with mail := { s.mail with hollowWait := s.mail.hollowWait ++ [(rq.src, rq.tag, mtype, s.frame.num)] } }

/-- Types whose held requests wait for a use block and not for the Hollow: KEY_MODE, KEY_EXPORT, KEY_IMPORT (R264). -/
def useTypes : List Nat := [0x11, 0x14, 0x15]

/-- Consume a request, or take up one held for the Hollow once it serves again or for a use block; none where the request cannot be taken now. -/
def State.consume (s : State) (rq : Req) (mtype : Nat) : Option State :=
  if !s.answers then none
  else if s.heldHollow rq mtype then (if s.hollowUp || useTypes.contains mtype then some (s.dropHeld rq mtype) else none)
  else match rq.src with
    | .fn n => s.consumeFn n rq mtype
    | .port c => s.consumePort c rq mtype

/-! ## Who may send what (R290, R311, R444, R504) -/

/-- Types a custodian port accepts (R504, Tables 11-12, 13-13). -/
def portTypes : List Nat := [0x16, 0xC0, 0xC1, 0xC2, 0xD0, 0xD1, 0xD2, 0xD3, 0xD4, 0xD5, 0xD6, 0xD8, 0xD9, 0xDC]

/-- Types accepted through a custodian port alone (R290, R444). -/
def portOnly : List Nat := [0xC0, 0xC1, 0xC2, 0xD1, 0xD2, 0xD3, 0xD4, 0xD5]

/-- Types a unit that is down still serves (R441). -/
def servedDown (src : Src) (mtype : Nat) : Bool :=
  mtype == 0x16 || mtype == 0xD0 || (match src with | .port _ => mtype == 0xD3 || mtype == 0xD5 | .fn _ => false)

/-- The sender's number as an instance: a port acts for the manager (R290, R504). -/
def srcInst : Src → Nat
  | .fn n => n
  | .port _ => 0

/-- The status that refuses a request before its own checks (R8, R290, R311, R441, R444, R504). -/
def State.turnedAway (s : State) (rq : Req) (mtype : Nat) : Option (BitVec 7) :=
  if s.isDown && !servedDown rq.src mtype then some St.deviceHalted
  else match rq.src with
    | .fn n =>
      if n ≠ 0 ∧ 0x80 ≤ mtype then some St.accessFault
      else if rq.rsv then some St.descInvalid
      else if portOnly.contains mtype then some St.quorumMissing
      else none
    | .port _ => if !portTypes.contains mtype || rq.rsv then some St.descInvalid else none

/-- Where the reply to a request goes. -/
def replyTo (rq : Req) : Dest := srcDest rq.src

/-- A request: consumed, turned away, held for the Hollow or answered HOLLOW_UNAVAILABLE once it has halted, or given its effect. Where no tails run its reply is written at once (R310, R362, R441). -/
def State.request (s : State) (rq : Req) (mtype : Nat) (needsHollow : Bool) (f : State → State) : State :=
  match s.consume rq mtype with
  | none => s
  | some t =>
    let r := match t.turnedAway rq mtype with
      | some st => t.reply (replyTo rq) mtype st rq.tag []
      | none =>
        if needsHollow && !t.hollowUp && !t.isDown then
          (if t.prot.hollow = .halted then t.reply (replyTo rq) mtype St.hollowUnavailable rq.tag []
           else t.hold rq mtype)
        else f t
    if r.ticks then r else r.flushReplies

/-- The status and empty body of a reply to a request. -/
def State.answer (s : State) (rq : Req) (mtype : Nat) (st : BitVec 7) : State := s.reply (replyTo rq) mtype st rq.tag []

/-! ## Results written to OUT_ADDR (R317, Table 08-7) -/

/-- Write a result to OUT_ADDR of the requester; one longer than OUT_LEN gives LENGTH_INVALID, and what follows runs otherwise. -/
def State.putOut (s : State) (rq : Req) (mtype : Nat) (addr : Word) (len : Nat) (bytes : Bytes) (k : State → State) : State :=
  if len < bytes.length then s.answer rq mtype St.lengthInvalid
  else k (s.hostWrite (srcInst rq.src) addr bytes)

/-! ## The authorisation token (R291, R292) -/

/-- The challenges still outstanding: not older than 180,000,000 frames (R291). -/
def State.liveChallenges (s : State) : List (BitVec 128 × Nat) :=
  s.quarry.challenges.filter (fun c => decide (s.frame.num < c.2 + 180000000))

/-- A challenge is outstanding. -/
def State.challengeLive (s : State) (c : BitVec 128) : Bool := s.liveChallenges.any (fun x => x.1 == c)

/-- A challenge expires at its first verification attempt (R291). -/
def State.spendChallenge (s : State) (c : BitVec 128) : State :=
  { s with quarry := { s.quarry with challenges := s.quarry.challenges.filter (fun x => x.1 != c) } }

/-- The bytes a custodian signs (R291). -/
def tokenBytes (t : Token) : Bytes :=
  ascii "WL9640 TOKEN" ++ leBytes 2 t.opcode.toNat ++ leBytes 1 t.cls ++ leBytes 1 t.epoch ++ zeros 4 ++
  leBytes 16 t.challenge.toNat ++ leBytes 32 t.opDigest.toNat

/-- One signature verifies against its registered custodian's key. -/
def State.sigGood (s : State) (message : Bytes) (e : SigEntry) : Bool :=
  s.quarry.custodians.any (fun c => c.1 == e.index && c.2.1 == e.alg && Config.verify e.alg c.2.2 message e.sig)

/-- Signers of a token, each once. -/
def tokenSigners (t : Token) : List Nat := (t.sigs.map (·.index)).eraseDups

/-- The threshold of a class (R289). -/
def State.threshold (s : State) (cls : Nat) : Nat := if cls = 4 then s.quarry.quorum.2 else s.quarry.quorum.1

/-- Bytes of a token: the head of 64 and each signature entry, zero-padded to 8 (Table 07-16). -/
def tokenLen (t : Token) : Nat := 64 + (t.sigs.map (fun e => (4 + e.sig.length + 7) / 8 * 8)).foldl (· + ·) 0

/-- What OP_DIGEST covers: the request with STATUS, TAG and EXT_ADDR as zero, then its extended body up to the token (R307, R308). -/
def opMessage (mtype : Nat) (t : Token) (body ext : Bytes) : Bytes :=
  leBytes 1 mtype ++ zeros 3 ++ leBytes 1 1 ++ leBytes 3 (ext.length + tokenLen t) ++ zeros 8 ++ padTo 48 body ++ ext

/-- Check a token for an operation of a class over the bytes its digest covers, needing so many custodians: the status that refuses it and the index of the first bad signature (R292). -/
def State.tokenFault (s : State) (t : Token) (mtype cls need : Nat) (opBytes : Bytes) : Option (BitVec 7 × Nat) :=
  if t.rsv || t.magic != 0x4B544F31 || t.sigs = [] || decide (16 < t.sigs.length) then some (St.descInvalid, 0xFF)
  else if t.epoch ≠ s.epoch ∨ !s.challengeLive t.challenge ∨ t.opcode.toNat ≠ mtype ∨ t.opDigest ≠ Config.sha3 opBytes then
    some (St.authFail, 0xFF)
  else match t.sigs.find? (fun e => !s.sigGood (tokenBytes t) e) with
    | some e => some (St.authFail, e.index)
    | none => if t.cls < cls ∨ (tokenSigners t).length < need then some (St.quorumMissing, 0xFF) else none

/-- An operation that needs a token, with its inline and extended body: the challenge is spent, a refusal is answered and recorded in event 0x300A, and what follows runs under a good token (R291, R292). -/
def State.withToken (s : State) (rq : Req) (mtype cls need : Nat) (t : Token) (body ext : Bytes) (k : State → State) : State :=
  let bad := s.tokenFault t mtype cls need (opMessage mtype t body ext)
  let s1 := match bad with
    | some (st, _) => if st = St.descInvalid then s else s.spendChallenge t.challenge
    | none => s.spendChallenge t.challenge
  match bad with
  | some (st, i) => (s1.answer rq mtype st).raise 0x300A true st.toNat mtype i
  | none => k s1

/-- The 88 bytes of an owner certificate before its signature (R422). -/
def ownerCertBytes (c : OwnerCert) : Bytes :=
  leBytes 4 0x4F435231 ++ leBytes 1 c.epoch ++ leBytes 1 c.tree ++ leBytes 1 c.alg ++ zeros 1 ++
  leBytes 4 c.sig.length ++ zeros 4 ++ padTo 68 c.pub ++ zeros 4

/-- An owner certificate is good under the owner certification key (R422). -/
def State.ownerSigned (s : State) (c : OwnerCert) : Bool :=
  match s.life.ock with
  | none => false
  | some (alg, key) => !c.rsv && c.alg == alg && Config.verify alg key (ascii "WL9640 OWNERCERT" ++ ownerCertBytes c) c.sig

/-- The number by which Config.verify knows XMSS-SHAKE256_16_256 (R423). -/
def algXmss : Nat := 3

/-- Another unit's attestation key is certified by the owner, and signed these bytes (R321, R370). -/
def State.certGood (s : State) (c : OwnerCert) (message sig : Bytes) : Bool :=
  s.ownerSigned c && c.epoch == s.epoch && Config.verify algXmss c.pub message sig

/-- The bytes a target statement's signature covers (R320). -/
def targetBytes (t : TargetStatement) : Bytes :=
  t.encapKey ++ leBytes 1 t.epoch ++ zeros 7 ++ leBytes 8 t.frame

end Sys2Proof.Machine
end

