-- ==== Sys2Proof/Machine/KeyModes.lean ====
section
/-! DEFINITION. What the four modes, a replacement, a narrowing and a creation do at their commit, and the walk of reclaim (R257, R258, R267 to R270). -/

namespace Sys2Proof.Machine

/-! ## Holders of a node -/

/-- A job holds a node, or a descendant through it: the node stands in the ancestry it is bound to (R263, R270). -/
def Job.holds (j : Job) (inst idx : Nat) : Bool := j.inst == inst && j.bound.any (fun b => b.1 == idx)

/-- A job is bound to one version of a node. -/
def Job.holdsVer (j : Job) (inst idx ver : Nat) : Bool := j.inst == inst && j.bound.contains (idx, ver)

/-- Some job in flight is bound to a version of a node (R268). -/
def State.heldVer (s : State) (inst idx ver : Nat) : Bool := s.jobs.any (fun j => j.holdsVer inst idx ver)

/-! ## Squash and zeroing at REVOKE and ERASE (R184, R270) -/

/-- Key-schedule entries at or below a node are zeroed (R184). -/
def State.wipeSchedules (s : State) (inst idx : Nat) : State :=
  { s with cipher := { s.cipher with kss := s.cipher.kss.filter (fun e => !(e.inst == inst && s.below inst idx e.node)) } }

/-- Cut-cache entries of an instance at and below a level become unreachable (R270). -/
def State.cutOff (s : State) (inst level : Nat) : State :=
  { s with quarry := { s.quarry with cut := s.quarry.cut.map (fun (e : CutEntry) =>
    if e.inst = inst ∧ level ≤ e.level then { e with reachable := false } else e) } }

/-- Entries that have become unreachable are zeroed within 2 frames: they leave the cache (R278). -/
def State.sweepCut (s : State) : State :=
  { s with quarry := { s.quarry with cut := s.quarry.cut.filter (fun (e : CutEntry) => e.reachable) } }

/-- DETAIL of a key squash: KEY0 when a node lies on KEY0's path, else KEY1 (Table 02-8). -/
def State.keyDetail (s : State) (inst idx : Nat) (j : Job) : BitVec 16 :=
  if hType j.keyZero ≠ 0 ∧ s.below inst idx (hNode j.keyZero) then 0 else 1

/-- Jobs holding a node, or a descendant through it, end with KEY_GONE (R270). -/
def State.endHolders (s : State) (inst idx : Nat) : State :=
  s.squashAll (fun j => j.holds inst idx) St.keyGone (s.keyDetail inst idx) false

/-- Jobs holding a node end, and event 0x3002 counts those squashed in this frame (R270, Table 07-17). -/
def State.squashHolders (s : State) (inst idx : Nat) : State :=
  let t := s.endHolders inst idx
  t.raise 0x3002 false inst (idx % 2 ^ 32) (t.jobs.filter (fun (j : Job) => j.holds inst idx && j.squashed == some t.frame.num)).length

/-- The shadows of an index go, and their slots with them. -/
def State.dropShadows (s : State) (inst idx : Nat) : State :=
  let k := ((s.dirOf inst idx).shadows.map (fun n => slotsOf n.material)).sum
  (s.modDir inst idx (fun e => { e with shadows := [] })).chargeSlots inst (-(k : Int))

/-- The indices of a subtree, its root among them. -/
def State.subtree (s : State) (inst idx : Nat) : List Nat :=
  ((s.inst inst).elim [] (fun x => x.dir.map (·.1))).filter (fun i => s.below inst idx i && (s.node inst i).isSome)

/-- Network sessions under a revoked or erased key, or a descendant of it, end without notice, their jobs with KEY_GONE (R494). -/
def State.closeKeySessions (s : State) (inst idx : Nat) : State :=
  let nodes := s.subtree inst idx
  let gone (x : Session) : Bool := x.inst == inst && nodes.contains x.node
  let n := (s.net.sessions.filter gone).length
  let s1 := s.squashAll (fun j => j.inst == inst && j.net.any (fun e => s.net.sessions.any (fun x => gone x && x.id == e.1))) St.keyGone (fun _ => 0) false
  ({ s1 with net := { s1.net with sessions := s1.net.sessions.filter (fun (x : Session) => !gone x) } }).modInst inst
    (fun (x : Inst) => { x with sessions := x.sessions - n })

/-- RETIRE, REVOKE or ERASE at its commit (Table 07-10); a node already in the target state or past it is unchanged. -/
def State.applyMode (s : State) (inst idx mode : Nat) : State :=
  match s.node inst idx with
  | none => s
  | some n =>
    let target : NodeState := if mode = 1 then .retired else if mode = 2 then .revoked else .erased
    if target.rank ≤ n.state.rank then s
    else
      let s0 := s.modNode inst idx (fun n => n.advance target)
      if mode = 1 then s0.journalRec inst idx
      else
        let s1 := if mode = 2 then s0.journalRec inst idx else s0
        let s2 := (((((s1.squashHolders inst idx).closeKeySessions inst idx).cutOff inst n.level).wipeSchedules inst idx)).dropShadows inst idx
        if mode = 2 then s2
        else
          let s3 := (s2.modNode inst idx (fun n => { n with material := n.material.map (fun _ => 0) })).journalFull inst idx
          { s3 with quarry := { s3.quarry with reclaim := s3.quarry.reclaim ++ [{ inst := inst, root := idx, todo := s3.subtree inst idx }] } }

/-! ## REPLACE, narrowing and creation at their commit (R257, R258, R268) -/

/-- What a REPLACE makes of a node: GENERATION rises, the new generation is ACTIVE with its own uses, INV_BLK continues (R268). -/
def replaceNode (old new : Node) : Node :=
  { new with
    parent := old.parent, level := old.level, allocGen := old.allocGen, gen := old.gen + 1, state := .active,
    useBlk := 0, invBlk := old.invBlk, invCur := none, created := old.created, asked := none, askedUse := none }

/-- REPLACE at its commit: the status it completes with, and the state. What an earlier change altered since the request is judged again: the state, the slots left, EXPORT narrowed (R257, R258, R268); of two REPLACEs of one commit the later prevails (R34). The old version stays as a shadow while a job holds it. -/
def State.applyReplace (s : State) (inst idx : Nat) (new : Node) : BitVec 7 × State :=
  match s.node inst idx with
  | none => (St.keyGone, s)
  | some old =>
    if old.state = .retired then (St.keyStale, s)
    else if old.state = .revoked ∨ old.state = .erased then (St.keyGone, s)
    else
      let n := replaceNode old new
      let keep := s.heldVer inst idx old.gen
      let k : Int := (slotsOf n.material : Int) - (if keep then 0 else (slotsOf old.material : Int))
      if s.slotRoom inst k.toNat = false then (St.quota, s)
      else if 4094 ≤ old.gen then (St.keyUseExhausted, s)
      else if new.exportBits &&& ~~~old.exportBits ≠ 0 then (St.keyAttrDenied, s)
      else
        let s1 := s.modDir inst idx (fun e =>
          { e with
            lastGen := n.gen
            node := some n
            shadows := if keep then e.shadows ++ [old] else e.shadows })
        (St.ok, (s1.chargeSlots inst k).journalNode inst idx)

/-- Narrow EXPORT (R257). -/
def State.applyNarrow (s : State) (inst idx : Nat) (bits : BitVec 4) : State :=
  (s.modNode inst idx (fun n => { n with policy := (n.policy &&& 0xFFF0) ||| (n.exportBits &&& bits).setWidth 16 })).journalRec inst idx

/-- A creation at its commit: the node leaves PENDING; one carried with USE_LIM and no uses is EXHAUSTED (R260, R287). -/
def State.applyCreate (s : State) (inst idx : Nat) : State :=
  (s.modNode inst idx (fun n =>
    if n.state = .pending then
      { n with
        state := if n.useLim && n.useCnt == 0 then .exhausted else .active
        created := s.frame.num }
    else n)).journalNode inst idx

/-- Shadows no job in flight is bound to are freed (R268). -/
def State.freeShadows (s : State) (inst : Nat) : State :=
  match s.inst inst with
  | none => s
  | some x =>
    x.dir.foldl (fun (t : State) e =>
      if e.2.shadows.all (fun n => t.heldVer inst e.1 n.gen) then t
      else
        let gone := e.2.shadows.filter (fun n => !t.heldVer inst e.1 n.gen)
        (t.modDir inst e.1 (fun d => { d with shadows := d.shadows.filter (fun n => t.heldVer inst e.1 n.gen) })).chargeSlots inst
          (-((gone.map (fun n => slotsOf n.material)).sum : Int))) s

/-! ## Reclaim (R258, R270) -/

/-- Free one index: its slots return, and it is DEAD once its GENERATION has reached 4,094 (R258, R270). -/
def State.freeIndexOf (s : State) (inst idx : Nat) : State :=
  match s.node inst idx with
  | none => s
  | some n =>
    let dead := decide (4094 ≤ (s.dirOf inst idx).lastGen)
    let s1 := (s.dropShadows inst idx).modDir inst idx (fun e => { e with state := if dead then .dead else .free, node := none })
    let s2 := (s1.chargeSlots inst (-(slotsOf n.material : Int))).journalNode inst idx
    if dead then s2.raise 0x3009 false inst (idx % 2 ^ 32) 0 else s2

/-- Places of the journal staging area (R280). -/
def stagingSize : Nat := 1048576

/-- Places of it kept for narrowing changes (R280). -/
def stagingReserve : Nat := 65536

/-- Free one index of a removed instance's directory (R300). -/
def State.freeOrphan (s : State) (inst : Nat) (dir : Table DirEntry) (idx : Nat) : State :=
  match tget dir idx with
  | none => s
  | some e =>
    let k := if idx = 0 then 0 else ((e.node.toList ++ e.shadows).map (fun n => slotsOf n.material)).sum
    State.journal { s with quarry := { s.quarry with slotsUsed := s.quarry.slotsUsed - k } } inst jFree 0 idx []

/-- Walk a list of indices while the staging area has room (R270, R280). -/
def State.walk (s : State) (r : Reclaim) : List Nat → Nat → Reclaim × State
  | [], n => ({ r with todo := [], freed := n }, s)
  | i :: is, n =>
    if stagingSize < s.quarry.staging.length + 2 then ({ r with todo := i :: is, freed := n }, s)
    else State.walk (if r.orphans = [] then s.freeIndexOf r.inst i else s.freeOrphan r.inst r.orphans i) r is (n + 1)

/-- Slots of removed instances that reclaim has not freed yet (R300). -/
def State.orphanSlots (s : State) : Nat :=
  (s.quarry.reclaim.map (fun (r : Reclaim) => ((r.orphans.filter (fun e => e.1 != 0 && r.todo.contains e.1)).map
    (fun e => ((e.2.node.toList ++ e.2.shadows).map (fun n => slotsOf n.material)).sum)).sum)).sum

end Sys2Proof.Machine
end

