-- ==== Sys2Proof/Machine/Keys.lean ====
section
/-! DEFINITION. The mailbox's key commands and challenges: KEY_CREATE, the four modes, reclaim, KEY_INFO, KEY_NARROW, KEY_EXPORT, KEY_IMPORT, CHALLENGE (R252 to R274, R287, R291). -/

namespace Sys2Proof.Machine

/-- Mailbox key operations give KEY_UNKNOWN: an owned unit without L2 (R274). -/
def State.keysClosed (s : State) : Bool := s.isOwned && s.quarry.l2.isNone

/-- Stage a change. -/
def State.stage (s : State) (c : Change) : State := { s with staged := s.staged ++ [c] }

/-! ## Creation (R260) -/

/-- Reserve an index for a node and stage its creation; the handle is the reply's body (R252, Table 08-7). -/
def State.stageCreate (s : State) (rq : Req) (mtype inst : Nat) (n : Node) : State :=
  let r := s.reserveNode inst n
  r.2.stage (.keyCreate inst r.1 (some (replyTo rq, rq.tag, mtype)))

/-- Material the unit draws for a symmetric type (Table 07-7). -/
def State.drawMaterial (s : State) (t : BitVec 8) : Bytes × State :=
  let r := s.takeRandom (keyLen t)
  (symMaterial t r.1, r.2)

/-- KEY_CREATE (R260). -/
def execKeyCreate (rq : Req) (generated : Bool) (rec : Creation) (s : State) : Host.Outcome State Fault Refusal :=
  ok (s.request rq 0x10 false (fun t =>
    let i := srcInst rq.src
    if t.keysClosed then t.answer rq 0x10 St.keyUnknown
    else match t.creationRefused i rec 1 with
      | some st => t.answer rq 0x10 st
      | none =>
        if !derivable rec.ktype then t.answer rq 0x10 St.descInvalid
        else if generated then
          let m := t.drawMaterial rec.ktype
          m.2.stageCreate rq 0x10 i (m.2.nodeOf i rec .generated m.1 [])
        else t.stageCreate rq 0x10 i (t.nodeOf i rec .derived [] [])))

/-! ## The four modes (R267, R271) -/

/-- The instance a request for a mode may name: any for the manager, its own for a tenant (R271). -/
def modeInst (rq : Req) (h : Handle) : Nat := if srcInst rq.src = 0 then hInst h else srcInst rq.src

/-- What refuses a request for a mode: the handle, then a bench (R267, R271). -/
def State.modeRefused (s : State) (rq : Req) (h : Handle) : Option (BitVec 7) :=
  if s.keysClosed then some St.keyUnknown
  else match s.checkModeHandle (modeInst rq h) h with
    | some st => some st
    | none => if hNode h = 0 then some St.keyAttrDenied else none

/-- Stage RETIRE, REVOKE or ERASE. -/
def State.requestMode (s : State) (rq : Req) (h : Handle) (mode : Nat) : State :=
  s.request rq 0x11 false (fun (t : State) =>
    match t.modeRefused rq h with
    | some st => t.answer rq 0x11 st
    | none => t.stage (.keyMode (hInst h) (hNode h) mode (replyTo rq) rq.tag))

/-- KEY_RETIRE (R267). -/
def execKeyRetire (rq : Req) (h : Handle) (s : State) : Host.Outcome State Fault Refusal :=
  ok (s.requestMode rq h 1)

/-- KEY_REVOKE (R267). -/
def execKeyRevoke (rq : Req) (h : Handle) (s : State) : Host.Outcome State Fault Refusal :=
  ok (s.requestMode rq h 2)

/-- KEY_ERASE (R270). -/
def execKeyErase (rq : Req) (h : Handle) (s : State) : Host.Outcome State Fault Refusal :=
  ok (s.requestMode rq h 4)

/-! ## Wrapped records (R287) -/

/-- The wrapping key is AES-256 for asymmetric keys and keys of 256 bits or more, at least as long as the key otherwise. -/
def wrapStrong (wrap t : BitVec 8) : Bool :=
  isAes wrap && (if !derivable t || decide (32 ≤ keyLen t) then wrap == 0x12 else decide (keyLen t ≤ keyLen wrap))

/-- What refuses a key as a wrapping or unwrapping key: its handle, its usage and type, a binding, its state (R256, R264, R287). -/
def State.wrapRefused (s : State) (inst : Nat) (h : Handle) (bit : Nat) : Option (BitVec 7) :=
  match s.checkHandle inst h with
  | some st => some st
  | none =>
    match s.node (hInst h) (hNode h) with
    | none => some St.keyUnknown
    | some n =>
      if !(n.may bit) || !isAes n.ktype || s.isBound (hInst h) (hNode h) then some St.keyAttrDenied
      else if n.state = .exhausted then some St.keyUseExhausted
      else none

/-- A request takes one use of a key and goes on, or is held until the next use block is committed (R264). -/
def State.underUse (s : State) (rq : Req) (mtype : Nat) (h : Handle) (k : State → State) : State :=
  match s.node (hInst h) (hNode h) with
  | none => s
  | some n =>
    if !n.useLim then k s
    else if n.hasUse then k (s.takeUse (hInst h) (hNode h))
    else (s.askUses (hInst h) (hNode h)).hold rq mtype

/-- The 32-byte header of a wrapped record (R287). -/
def wrapHeader (n : Node) : Bytes :=
  leBytes 1 n.ktype.toNat ++ zeros 1 ++ leBytes 2 n.usage.toNat ++ leBytes 2 n.policy.toNat ++ zeros 2 ++
  leBytes 8 (n.useCnt + n.useBlk) ++ leBytes 16 n.labelDig.toNat

/-- A wrapped record as unwrapped: its header's fields and the stored form. -/
structure WrapRec where
  ktype : BitVec 8
  usage : BitVec 16
  policy : BitVec 16
  uses : Nat
  labelDig : BitVec 128
  form : Bytes
  bad : Bool
deriving DecidableEq, Repr

/-- Read an unwrapped record: reserved bytes, the use limit and the length of the key's stored form are checked (R8, R259, R287). -/
def parseWrap (b : Bytes) : WrapRec :=
  let f (o n : Nat) : Nat := leNat ((b.drop o).take n)
  let t := BitVec.ofNat 8 (f 0 1)
  let form := b.drop 32
  let lim := (f 4 2).testBit 14
  { ktype := t, usage := BitVec.ofNat 16 (f 2 2), policy := BitVec.ofNat 16 (f 4 2), uses := f 8 8,
    labelDig := BitVec.ofNat 128 (f 16 16), form := form
    bad := f 1 1 != 0 || f 6 2 != 0 || decide (2 ^ 40 ≤ f 8 8) || decide (b.length < 32) || (f 8 8 != 0 && !lim) ||
      (if derivable t then form != padTo 64 (form.take (keyLen t)) else !formOk t form) }

/-- The record of a creation that an imported header amounts to, for the checks of R260. -/
def wrapCreation (w : WrapRec) (parent : Handle) : Creation :=
  { parent := parent, ktype := w.ktype, labelLen := 0, usage := w.usage, policy := w.policy, uses := w.uses, bind := 0,
    label := [], rsv := decide (0x2000 ≤ w.usage.toNat) }

/-- The node of an imported record: the header's EXPORT is intersected with the request's; USE_LIM with no uses left imports as EXHAUSTED (R287). -/
def State.importNode (s : State) (inst : Nat) (w : WrapRec) (parent : Handle) (bits : BitVec 4) : Node :=
  let n := s.nodeOf inst (wrapCreation w parent) .imported w.form (if derivable w.ktype then [] else publicPart w.ktype w.form)
  { n with
    labelDig := w.labelDig
    policy := ((n.policy &&& 0xBFF0) ||| (w.policy &&& 0x4000)) ||| ((w.policy.setWidth 4) &&& bits).setWidth 16 }

/-- KEY_IMPORT (R287). -/
def execKeyImport (rq : Req) (parent unwrap : Handle) (bits : BitVec 4) (wrapped : Wrapped) (s : State) : Host.Outcome State Fault Refusal :=
  ok (s.request rq 0x15 false (fun t =>
    let i := srcInst rq.src
    let refused := if t.keysClosed then some St.keyUnknown
      else match t.parentRefused i parent with
        | some st => some st
        | none => t.wrapRefused i unwrap uUnwrap
    match refused with
    | some st => t.answer rq 0x15 st
    | none => t.underUse rq 0x15 unwrap (fun (u : State) =>
      match Config.kwpInv (u.keyValue [] unwrap) wrapped with
      | none => u.answer rq 0x15 St.authFail
      | some b =>
        let w := parseWrap b
        if w.bad then u.answer rq 0x15 St.descInvalid
        else match u.creationRefused i (wrapCreation w parent) (slotsOf w.form) with
          | some st => u.answer rq 0x15 st
          | none =>
            if !wrapStrong (hType unwrap) w.ktype then u.answer rq 0x15 St.keyAttrDenied
            else u.stageCreate rq 0x15 i (u.importNode i w parent bits))))

/-- The stored form a wrapped record carries: a symmetric key's value, zero-filled, or the stored material (Table 07-7, R287). -/
def State.storedForm (s : State) (h : Handle) (n : Node) : Bytes :=
  if derivable n.ktype then padTo 64 (s.keyValue [] h) else n.material

/-- Length of a KWP wrap of n bytes (SP 800-38F, R287). -/
def kwpLen (n : Nat) : Nat := 8 + (n + 7) / 8 * 8

/-- KEY_EXPORT (R287). -/
def execKeyExport (rq : Req) (h : Handle) (outAddr : Word) (outLen : Nat) (wrap : Handle) (s : State) : Host.Outcome State Fault Refusal :=
  ok (s.request rq 0x14 false (fun t =>
    let i := srcInst rq.src
    let refused := if t.keysClosed then some St.keyUnknown else t.checkHandle i h
    match refused, t.node (hInst h) (hNode h) with
    | some st, _ => t.answer rq 0x14 st
    | none, none => t.answer rq 0x14 St.keyUnknown
    | none, some n =>
      if !n.exportBits.getLsbD 1 || t.isBound (hInst h) (hNode h) then t.answer rq 0x14 St.keyAttrDenied
      else match t.wrapRefused i wrap uWrap with
        | some st => t.answer rq 0x14 st
        | none =>
          let plain := wrapHeader n ++ t.storedForm h n
          if !wrapStrong (hType wrap) n.ktype then t.answer rq 0x14 St.keyAttrDenied
          else if outLen < kwpLen plain.length then t.answer rq 0x14 St.lengthInvalid
          else t.underUse rq 0x14 wrap (fun (u : State) =>
            (u.hostWrite i outAddr (Config.kwp (u.keyValue [] wrap) plain)).answer rq 0x14 St.ok)))

/-! ## REPLACE (R257, R258, R268) -/

/-- What refuses a REPLACE before its material is known. -/
def State.replaceRefused (s : State) (rq : Req) (h : Handle) (rec : Creation) (slots : Nat) : Option (BitVec 7) :=
  match s.modeRefused rq h, s.node (hInst h) (hNode h) with
  | some st, _ => some st
  | none, none => some St.keyGone
  | none, some n =>
    if n.state = .retired then some St.keyStale
    else if n.state = .revoked ∨ n.state = .erased then some St.keyGone
    else if hVer h < n.gen then some St.keyStale
    else if s.badCreation (hInst h) rec then some St.descInvalid
    else if hInst rec.parent ≠ hInst h ∨ hNode rec.parent ≠ n.parent then some St.descInvalid
    else if n.material = [] ∧ !derivable rec.ktype then some St.descInvalid
    else
      let held := s.heldVer (hInst h) (hNode h) n.gen
      match s.creationRefused (hInst h) rec (slots - (if held then 0 else slotsOf n.material)) with
      | some st => some st
      | none =>
        if 4094 ≤ n.gen then some St.keyUseExhausted
        else if (rec.policy.setWidth 4) &&& ~~~n.exportBits ≠ 0 then some St.keyAttrDenied
        else none

/-- The node of a REPLACE's new generation. -/
def State.replacement (s : State) (inst : Nat) (rec : Creation) (origin : Origin) (material : Bytes) : Node :=
  s.nodeOf inst rec origin material (if derivable rec.ktype then [] else publicPart rec.ktype material)

/-- Stage a REPLACE. -/
def State.stageReplace (s : State) (rq : Req) (h : Handle) (n : Node) : State :=
  s.stage (.keyReplace (hInst h) (hNode h) n (replyTo rq) rq.tag)

/-- A REPLACE with a wrapped record: its TYPE, USAGE and POLICY are those of the creation record, bit 14 apart, which follows USES there (R268, Table 07-8A). -/
def State.replaceWrapped (s : State) (rq : Req) (h unwrap : Handle) (rec : Creation) (wrapped : Wrapped) : State :=
  match s.wrapRefused (srcInst rq.src) unwrap uUnwrap with
  | some st => s.answer rq 0x11 st
  | none => s.underUse rq 0x11 unwrap (fun (u : State) =>
    match Config.kwpInv (u.keyValue [] unwrap) wrapped with
    | none => u.answer rq 0x11 St.authFail
    | some b =>
      let w := parseWrap b
      if w.bad || w.ktype != rec.ktype || w.usage != rec.usage || (w.policy &&& 0xBFFF) != (rec.policy &&& 0xBFFF) then
        u.answer rq 0x11 St.descInvalid
      else if !wrapStrong (hType unwrap) w.ktype then u.answer rq 0x11 St.keyAttrDenied
      else match u.replaceRefused rq h rec (slotsOf w.form) with
        | some st => u.answer rq 0x11 st
        | none => u.stageReplace rq h (u.replacement (hInst h) rec .imported w.form))

/-- KEY_REPLACE (R268). -/
def execKeyReplace (rq : Req) (h unwrap : Handle) (rec : Creation) (wrapped : Wrapped) (s : State) : Host.Outcome State Fault Refusal :=
  ok (s.request rq 0x11 false (fun t =>
    match t.replaceRefused rq h rec 1 with
    | some st => t.answer rq 0x11 st
    | none =>
      let stored := (t.node (hInst h) (hNode h)).elim false (fun n => n.material != [])
      if unwrap = 0 then
        (if !stored then t.stageReplace rq h (t.replacement (hInst h) rec .derived [])
         else if !derivable rec.ktype then t.answer rq 0x11 St.descInvalid
         else
           let m := t.drawMaterial rec.ktype
           m.2.stageReplace rq h (m.2.replacement (hInst h) rec .generated m.1))
      else if !stored then t.answer rq 0x11 St.descInvalid
      else t.replaceWrapped rq h unwrap rec wrapped))

/-! ## Narrowing (R257) -/

/-- KEY_NARROW (R257). -/
def execKeyNarrow (rq : Req) (h : Handle) (bits : BitVec 4) (s : State) : Host.Outcome State Fault Refusal :=
  ok (s.request rq 0x13 false (fun t =>
    let refused := if t.keysClosed then some St.keyUnknown else t.checkModeHandle (srcInst rq.src) h
    match refused, t.node (hInst h) (hNode h) with
    | some st, _ => t.answer rq 0x13 st
    | none, none => t.answer rq 0x13 St.keyGone
    | none, some n =>
      if hNode h = 0 ∨ bits &&& ~~~n.exportBits ≠ 0 then t.answer rq 0x13 St.keyAttrDenied
      else t.stage (.keyNarrow (hInst h) (hNode h) bits (replyTo rq) rq.tag)))

/-! ## KEY_INFO (R311) -/

/-- KEY_INFO (R311). -/
def execKeyInfo (rq : Req) (h : Handle) (outAddr : Word) (outLen : Nat) (s : State) : Host.Outcome State Fault Refusal :=
  ok (s.request rq 0x12 false (fun t =>
    match t.checkModeHandle (srcInst rq.src) h, t.node (hInst h) (hNode h) with
    | some st, _ => t.answer rq 0x12 st
    | none, none => t.answer rq 0x12 St.keyGone
    | none, some n =>
      let b := recordBytes n ++ n.pub
      t.putOut rq 0x12 outAddr outLen b (fun (u : State) => u.reply (replyTo rq) 0x12 St.ok rq.tag (leBytes 4 b.length))))

/-! ## Reclaim (R270) -/

/-- RECLAIM (R270). -/
def execReclaim (inst root : Nat) (s : State) : Host.Outcome State Fault Refusal :=
  ok (match s.quarry.reclaim.find? (fun (r : Reclaim) => r.inst == inst && r.root == root) with
      | none => s
      | some r =>
        let w := s.walk r r.todo r.freed
        let rest := w.2.quarry.reclaim.erase r
        if w.1.todo = [] then
          ({ w.2 with quarry := { w.2.quarry with reclaim := rest } }).raise 0x3003 false inst (root % 2 ^ 32) w.1.freed
        else { w.2 with quarry := { w.2.quarry with reclaim := rest ++ [w.1] } })

/-! ## Challenges (R291) -/

/-- A challenge is issued; a 65th expires the oldest. -/
def State.issueChallenge (s : State) : Bytes × State :=
  let r := s.takeRandom 16
  let q := r.2.quarry
  (r.1, { r.2 with quarry := { q with challenges := q.challenges.drop (q.challenges.length - 63) ++ [(BitVec.ofNat 128 (leNat r.1), s.frame.num)] } })

/-- CHALLENGE (R291). -/
def execChallenge (rq : Req) (s : State) : Host.Outcome State Fault Refusal :=
  ok (s.request rq 0x16 true (fun t =>
    let c := t.issueChallenge
    c.2.reply (replyTo rq) 0x16 St.ok rq.tag c.1))

/-- CHALLENGE_EXPIRY (R291). -/
def execChallengeExpiry (s : State) : Host.Outcome State Fault Refusal :=
  ok { s with quarry := { s.quarry with challenges := s.liveChallenges } }

end Sys2Proof.Machine
end

