-- ==== Sys2Proof/Machine/Shares.lean ====
section
/-! DEFINITION. Shares and the pool, making an instance, the order of reset and removal (R296 to R303, R313 to R315, R377). -/

namespace Sys2Proof.Machine

/-! ## The pool (R296 to R298, R377) -/

/-- A share record that is in order (R297). -/
def shareGood (x : Share) : Bool :=
  !x.rsv && decide (1 ≤ x.jobSlots) && decide (x.jobSlots ≤ 16320) && decide (x.sessions ≤ 65535) && decide (1 ≤ x.qpairs) && decide (x.qpairs ≤ 4) &&
  decide (1 ≤ x.vectors) && decide (x.vectors ≤ 2) && decide (1 ≤ x.personality) && decide (x.personality ≤ 2) && decide (x.ksSlots < 2 ^ 32) &&
  x.mins.length == 5 && x.maxs.length == 5 && (List.range 5).all (fun r => decide (x.mins.getD r 0 ≤ x.maxs.getD r 0) && decide (x.maxs.getD r 0 ≤ 1000))

/-- Share records of this unit's instances 1 to 1023, staged creations, imports and changes among them. -/
def State.shares (s : State) : Table Share :=
  let now := (s.insts.filter (fun (e : Nat × Inst) => decide (1 ≤ e.1) && decide (e.1 ≤ 1023))).map (fun (e : Nat × Inst) => (e.1, e.2.share))
  s.staged.foldl (fun (t : Table Share) (c : Change) => match c with
    | .instCreate i m _ _ => tset t i m.share
    | .migImport i m _ _ => tset t i m.share
    | .shareSet i x _ _ => if i = 0 then t else tset t i x
    | _ => t) now

/-- Share records of the partner's homes, held as shadows (R376). -/
def State.partnerShares (s : State) : Table Share :=
  (s.twin.shadows.filter (fun (e : Nat × Inst) => decide (1 ≤ e.1) && decide (e.1 ≤ 1023))).map (fun (e : Nat × Inst) => (e.1, e.2.share))

/-- A sum over share records. -/
def sumShares (t : Table Share) (f : Share → Nat) : Nat := (t.map (fun (e : Nat × Share) => f e.2)).sum

/-- Job slots instances other than 0 may hold together: 64 are kept for each instance 0 (R298, R377). -/
def State.jobPool (s : State) : Nat := if s.inPair then 16256 else 16320

/-- Share records of this unit's homes keep R298; slots that reclaim has not freed of removed instances still count (R298, R300, R377). -/
def State.sharesFit (s : State) (t : Table Share) : Bool :=
  let all := t ++ (if s.inPair then s.partnerShares else [])
  decide (sumShares all (·.jobSlots) ≤ s.jobPool) && decide (sumShares all (·.ksSlots) + s.orphanSlots ≤ s.keyStoreSlots) &&
  decide (sumShares all (·.sessions) ≤ 65536) && (List.range 5).all (fun r => decide (sumShares t (fun x => x.mins.getD r 0) ≤ 1000))

/-- Instance 0's share: the remainder, or in a pair half of what both units' instances leave (R298, R377). -/
def State.remainder (s : State) : Share :=
  let t := (s.insts.filter (fun (e : Nat × Inst) => decide (1 ≤ e.1) && decide (e.1 ≤ 1023))).map (fun (e : Nat × Inst) => (e.1, e.2.share))
  let all := t ++ (if s.inPair then s.partnerShares else [])
  let left (pool : Nat) (f : Share → Nat) : Nat := pool - sumShares all f
  { managerShare with
    jobSlots := if s.inPair then 64 + left 16256 (·.jobSlots) / 2 else left 16384 (·.jobSlots)
    sessions := min 65535 (if s.inPair then left 65536 (·.sessions) / 2 else left 65536 (·.sessions))
    ksSlots := if s.inPair then left s.keyStoreSlots (·.ksSlots) / 2 else left s.keyStoreSlots (·.ksSlots)
    mins := (List.range 5).map (fun r => 1000 - sumShares t (fun x => x.mins.getD r 0)) }

/-- Instance 0's share follows the others' (R298, R377). -/
def State.refreshManager (s : State) : State := s.modInst 0 (fun x => { x with share := s.remainder })

/-! ## Instances -/

/-- An ID names no instance of this unit or of the partner, and none staged (R299, R376). -/
def State.idFree (s : State) (i : Nat) : Bool :=
  decide (1 ≤ i) && decide (i ≤ 1023) && (s.inst i).isNone && (tget s.twin.shadows i).isNone && (tget s.shares i).isNone

/-- The creation label of an instance: ID, EPOCH, 5 zero bytes, 24 drawn bytes (R248). -/
def labelOf (inst epoch : Nat) (drawn : Bytes) : Bytes := leBytes 2 inst ++ leBytes 1 epoch ++ zeros 5 ++ drawn

/-- A directory that holds a bench alone. -/
def benchDir (n : Node) : Table DirEntry := [(0, { state := .allocated, lastGen := 1, node := some n })]

/-- A new instance with its bench (R248, R299). -/
def newInst (port : Nat) (share : Share) (label : Bytes) : Inst :=
  { share := share, port := port, label := label, dir := benchDir (benchNode (labelDigest label) .derived []) }

/-- The SHARE_CHANGED notice: bytes 0x00 to 0x23 of the record and whether a shrink is pending (Table 08-7). -/
def State.shareNotice (s : State) (i : Nat) : State :=
  match s.inst i with
  | none => s
  | some x =>
    let b := (shareBytes x.share).take 36
    s.notice (.mailbox i) 0xF1 (b ++ leBytes 1 (if x.shrink.isSome then 1 else 0))

/-- Occupancy is at or below every quota of an instance (R302). -/
def State.withinQuota (s : State) (i : Nat) (x : Inst) : Bool :=
  decide (s.inflightOf i ≤ x.share.jobSlots) && decide (x.slotsUsed ≤ x.share.ksSlots) && decide (x.sessions ≤ x.share.sessions)

/-! ## Reset and removal (R313 to R315) -/

/-- A reply written at the tail of this frame (Table 08-8, step 6). -/
def State.replyNow (s : State) (dest : Dest) (mtype : Nat) (status : BitVec 7) (tag : BitVec 16) (body : Bytes) : State :=
  { s with mail := { s.mail with replies := s.mail.replies ++
    [{ dest := dest, mtype := mtype, status := status.setWidth 8, tag := tag, body := body, due := s.frame.num, journal := s.quarry.seq - 1 }] } }

/-- A notice written at the tail of this frame. -/
def State.noticeNow (s : State) (dest : Dest) (mtype : Nat) (body : Bytes) : State :=
  { s with mail := { s.mail with replies := s.mail.replies ++
    [{ dest := dest, mtype := mtype, status := 0, tag := 0, notice := true, body := body, due := s.frame.num }] } }

/-- A reset is staged: STATE becomes RESETTING or REMOVING; one that arrives during a reset joins it, a removal during a reset waits for its end (R313, R315). -/
def State.startReset (s : State) (i : Nat) (remove flr : Bool) (owed : List (Dest × Nat × BitVec 16)) : State :=
  match s.inst i with
  | none => s
  | some x =>
    match x.reset with
    | some r =>
      if remove && !r.remove then
        s.modInst i (fun x => { x with reset := some { r with thenRemove := r.thenRemove ++ owed.map (fun o => (o.1, o.2.2)) } })
      else s.modInst i (fun x => { x with reset := some { r with owed := r.owed ++ owed, flr := r.flr || flr } })
    | none =>
      let r : Reset := { remove := remove, flr := flr, at_ := s.frame.num, owed := owed, exported := decide (x.state = .exported) }
      ((s.setInstState i (if remove then .removing else .resetting) x.shadow).modInst i (fun x => { x with reset := some r })).stage (.instReset i)

/-- Requests of an instance that have no final reply are discarded, forwarded ones with them (R315). -/
def State.dropRequests (s : State) (i : Nat) : State :=
  { s with mail := { s.mail with
      replies := s.mail.replies.filter (fun (r : Reply) => !(r.dest == .mailbox i && !r.notice))
      forwards := s.mail.forwards.filter (fun (f : Forward) => f.inst != i)
      hollowWait := s.mail.hollowWait.filter (fun w => w.1 != .fn i) } }

/-- Network sessions of an instance end without notice (R494). -/
def State.endSessions (s : State) (i : Nat) : State :=
  ({ s with net := { s.net with sessions := s.net.sessions.filter (fun (x : Session) => x.inst != i) } }).modInst i (fun x => { x with sessions := 0 })

/-- A freeze or a migration that a reset ends: each of its requests completes with ACCESS_FAULT, the export with 1 at 0x10 (R315). -/
def State.endFreeze (s : State) (i : Nat) : State :=
  match s.inst i with
  | none => s
  | some x =>
    let s1 := match x.freeze with
      | some (d, t) => s.reply d 0x8A St.accessFault t []
      | none => s
    let s2 := match x.export_ with
      | some e => s1.reply e.dest 0x8B St.accessFault e.tag (leBytes 1 1)
      | none => s1
    s2.modInst i (fun x => { x with freeze := none, export_ := none })

/-- Step 2: the commit squashes every job of the instance with INSTANCE_RESET (Table 08-8). -/
def State.commitReset (s : State) (i : Nat) : State :=
  (((((s.squashAll (fun j => j.inst == i) St.instanceReset (fun _ => 0) false).dropRequests i).endFreeze i).endSessions i).modInst i (fun x =>
    { x with reset := x.reset.map (fun (r : Reset) => { r with step := 2 }) }))

/-- Queue pairs, mailbox and ring configuration at their reset values; a function-level reset also resets the function's configuration (Table 08-8, step 5). -/
def Inst.resetRings (x : Inst) (flr : Bool) : Inst :=
  { x with
    qs := Vector.replicate 4 {}
    req := Vector.replicate 16 []
    rsp := Vector.replicate 16 []
    reqTail := 0, reqLatched := 0, reqHead := 0, rspTail := 0, rspHead := 0
    stall := none
    mbIrq := false, mbErr := false, rspFull := false, outstanding := 0
    bme := if flr then false else x.bme
    vecMask := if flr then Vector.replicate 2 true else x.vecMask
    vecPend := if flr then Vector.replicate 2 false else x.vecPend }

/-- Key-schedule entries of an instance are zeroed, its cut-cache entries made unreachable (R184, Table 08-8). -/
def State.dropKeys (s : State) (i : Nat) : State :=
  let s1 := s.cutOff i 0
  { s1 with cipher := { s1.cipher with kss := s1.cipher.kss.filter (fun (e : KssEntry) => e.inst != i) } }

/-- Nodes with EXP_IRESET are erased (R271). -/
def State.expireNodes (s : State) (i : Nat) : State :=
  match s.inst i with
  | none => s
  | some x =>
    x.dir.foldl (fun (t : State) (e : Nat × DirEntry) =>
      if e.1 ≠ 0 ∧ e.2.node.elim false (fun n => n.expIreset) then t.applyMode i e.1 4 else t) s

/-- The instance leaves: every node to reclaim, programs, bindings, maps and tables gone, the label zeroed, the function unbound, its shares returned (R300). -/
def State.removeInst (s : State) (i : Nat) : State :=
  match s.inst i with
  | none => s
  | some x =>
    let held := x.dir.filter (fun (e : Nat × DirEntry) => e.2.node.isSome)
    let r : Reclaim := { inst := i, root := 0, todo := held.map (·.1), orphans := held }
    let progs := (x.progs.map (fun e => e.2.slots)).sum
    let q := { s.quarry with
      reclaim := s.quarry.reclaim.filter (fun (y : Reclaim) => !(y.inst == i && y.orphans == [])) ++ [r]
      slotsUsed := s.quarry.slotsUsed - progs }
    let s0 := match x.shrink with | some (d, tag) => s.replyNow d 0x83 St.ok tag [] | none => s
    let s1 := { s0 with insts := tdel s0.insts i, quarry := q }
    let gone (w : Dest) : Bool := w == .mailbox i
    let s2 := { s1 with
      mail := { s1.mail with replies := s1.mail.replies.filter (fun (r : Reply) => !gone r.dest) }
      net := { s1.net with endpoints := s1.net.endpoints.filter (fun (e : Endpoint) => e.inst != i) } }
    (s2.journalRoot i).refreshManager

/-- Replies owed at step 6. -/
def State.payReset (s : State) (owed : List (Dest × Nat × BitVec 16)) : State :=
  owed.foldl (fun (t : State) o => t.replyNow o.1 o.2.1 St.ok o.2.2 []) s

/-- Jobs of an instance whose entries could not be written before its rings are reset are released without them. -/
def State.dropJobs (s : State) (i : Nat) : State :=
  let js := s.jobs.filter (fun (j : Job) => j.inst == i)
  { s with
    jobs := s.jobs.filter (fun (j : Job) => j.inst != i)
    pke := { s.pke with running := s.pke.running.map (fun r => if js.any (fun (j : Job) => r == some j.slot) then none else r) } }

/-- Steps 5 and 6 of a reset (Table 08-8, R314). -/
def State.finishReset (s : State) (i : Nat) (r : Reset) : State :=
  let s1 := ((s.dropJobs i).expireNodes i).dropKeys i
  if r.remove then (s1.removeInst i).payReset r.owed
  else
    let s2 := { s1 with host := { s1.host with waiting := s1.host.waiting.filter (fun w => w.1 != i) } }.modInst i
      (fun x => { x.resetRings r.flr with reset := none })
    let s3 := s2.setInstState i (if r.exported then .exported else .active) ((s2.inst i).elim false (·.shadow))
    let s5 := (s3.noticeNow (.mailbox i) 0xF2 (leBytes 1 (if r.flr then 1 else 2))).payReset r.owed
    if r.thenRemove = [] then s5 else s5.startReset i true false (r.thenRemove.map (fun o => (o.1, 0x81, o.2)))

end Sys2Proof.Machine
end

