-- ==== Sys2Proof/Machine/Attest.lean ====
section
/-! DEFINITION. The measurement vector and the attestation key: what signs, its leaves, its statement (Table 07-2, R320, R321, R421 to R425). -/

namespace Sys2Proof.Machine

/-! ## The measurement vector (Table 07-2, Table 11-1) -/

/-- The code of a life-cycle state. -/
def lcsCode : Lcs → Nat
  | .raw => 1 | .tested => 2 | .sealed => 3 | .owned _ => 4 | .released _ => 5 | .returned => 6 | .scrapped => 7

/-- The DEBUG byte: PRT_DBG [3:0], Hollow invasive and non-invasive, scan, microcode trace (Tables 07-2, 09-18). -/
def debugByte (dbg : BitVec 7) : Nat := dbg.toNat % 16

/-- A measurement vector of 72 bytes. -/
def measureBytes (hollow : Dig) (lcs epoch debug : Nat) : Bytes :=
  leBytes 32 Config.romHash.toNat ++ leBytes 32 hollow.toNat ++ leBytes 1 lcs ++ leBytes 1 epoch ++ leBytes 1 debug ++ zeros 5

/-- The measurement vector in force. -/
def State.measureVec (s : State) : Bytes :=
  measureBytes (s.life.hollowHash.getD 0) (lcsCode s.life.otp.lcs) s.epoch (debugByte s.prot.dbg)

/-! ## The attestation key (R423, R424) -/

/-- Leaves of a tree. -/
def treeLeaves : Nat := 65536

/-- The signing tree: the lowest-numbered certified one with leaves left. -/
def State.signTree (s : State) : Option (Nat × Tree) :=
  (s.life.trees.zipIdx.find? (fun t => t.1.cert.isSome && decide (t.1.next < treeLeaves))).map (fun t => (t.2, t.1))

/-- Change a tree. -/
def State.modTree (s : State) (n : Nat) (f : Tree → Tree) : State :=
  { s with life := { s.life with trees := s.life.trees.modify n f } }

/-- A leaf is used: its block of 16 is reserved first; event 0x8041 when fewer than 4,096 are left and no later tree is certified. -/
def State.useLeaf (s : State) (n : Nat) (t : Tree) : State :=
  let s1 := s.modTree n (fun t => { t with next := t.next + 1, reserved := max t.reserved ((t.next / 16 + 1) * 16) })
  if t.next + 1 = treeLeaves - 4095 && !((s.life.trees.drop (n + 1)).any (fun (x : Tree) => x.cert.isSome)) then
    s1.raise 0x8041 true n 4095 0
  else s1

/-- Sign a message with the unit's attestation key: the signature, the tree, the state after. -/
def State.attSign (s : State) (message : Bytes) : Option (Bytes × Nat × State) :=
  s.signTree.map (fun t => (Config.treeSign t.2.secret t.2.next message, t.1, s.useLeaf t.1 t.2))

/-- The 192 bytes of an attestation statement before its signature (Table 11-6). -/
def State.statement (s : State) (tree inst prog : Nat) (nonce : Bytes) (measure : Dig) : Bytes :=
  leBytes 4 0x41545331 ++ leBytes 2 1 ++ leBytes 1 tree ++ zeros 1 ++ leBytes 8 s.frame.num ++ s.measureVec ++ leBytes 2 inst ++ leBytes 2 prog ++
  zeros 4 ++ padTo 24 nonce ++ zeros 8 ++ leBytes 16 (s.twin.record.elim 0 (·.1.toNat)) ++ leBytes 32 measure.toNat ++ zeros 16

/-- The attestation statement with its signature, none where no tree is certified (R425, R503). -/
def State.attest (s : State) (inst prog : Nat) (nonce : Bytes) (measure : Dig) : Option (Bytes × State) :=
  s.signTree.bind (fun t =>
    let b := s.statement t.1 inst prog nonce measure
    (s.attSign b).map (fun r => (b ++ padTo 2692 r.1, r.2.2)))

end Sys2Proof.Machine
end

