-- ==== Sys2Proof/Machine/Counter.lean ====
section
/-! DEFINITION. The guarded counter: major 0x33 (R146 to R149). -/

namespace Sys2Proof.Machine

/-- Cause 0x0C: the guard refuses (R147, R148). -/
def counterTrap : Trap := { cause := 0x0C }

/-- CTR_SET (R147). -/
def execCtrSet (l : LaneId) (c : CReg) (a : VReg) (s : State) : Host.Outcome State Fault Refusal :=
  ok (bankStep l true [a] (fun x => if (x.rc c).armed then .trap counterTrap else .ok (x.wc c { x.rc c with value := x.rv a })) s)

/-- The width code of CTR.LIM (Table 04-4). -/
def widthOf (b : Word) : Option CWidth :=
  match (b.setWidth 2 : BitVec 2) with
  | 0 => some .w32
  | 1 => some .w64
  | 2 => some .w128
  | _ => none

/-- CTR_LIM (R148). -/
def execCtrLim (l : LaneId) (c : CReg) (a b : GReg) (s : State) : Host.Outcome State Fault Refusal :=
  ok (bankStep l true [] (fun x =>
    match widthOf (x.rg b) with
    | none => .trap (engineTrap St.accessFault 0x02)
    | some w =>
      match (x.rc c).arm (x.rg a) w with
      | none => .trap counterTrap
      | some k => .ok (x.wc c k)) s)

/-- CTR.NEXT of a counter register: its VALUE and the register after it, none where it is unarmed or SPENT (R148). -/
def counterNext (k : Counter) : Option (Blk × Counter) :=
  if k.armed && !k.spent then some (k.value, k.next) else none

/-- CTR_NEXT (R148). -/
def execCtrNext (l : LaneId) (d : VReg) (c : CReg) (s : State) : Host.Outcome State Fault Refusal :=
  ok (bankStep l true [d] (fun x =>
    match counterNext (x.rc c) with
    | none => .trap counterTrap
    | some (v, k) => .ok ((x.wc c k).wv d v)) s)

/-- CTR_GET (R147). -/
def execCtrGet (l : LaneId) (d : VReg) (c : CReg) (s : State) : Host.Outcome State Fault Refusal :=
  ok (bankStep l true [d] (fun x => .ok (x.wv d (x.rc c).value)) s)

/-- CTR_REM (R147). -/
def execCtrRem (l : LaneId) (d : GReg) (c : CReg) (s : State) : Host.Outcome State Fault Refusal :=
  ok (bankStep l true [] (fun x => .ok (x.wg d (BitVec.ofNat 64 (x.rc c).remaining))) s)

/-- The invocation numbers reserved for a handle (R149). -/
def Job.invsOf (j : Job) (h : Handle) : Option (List Nat) := (j.invs.find? (fun e => e.1 == h)).map (·.2)

/-- CTR_INV (R149). -/
def execCtrInv (l : LaneId) (d : GReg) (k : KReg) (b : GReg) (s : State) : Host.Outcome State Fault Refusal :=
  ok (laneStep l true [] (fun s j x =>
    (s, match x.rk k with
      | none => .trap { cause := 0x0B }
      | some h =>
        match (j.invsOf h).bind (fun ns => ns[(x.rg b).toNat]?) with
        | none => .trap (engineTrap St.accessFault 0x03)
        | some n => .ok (x.wg d (BitVec.ofNat 64 n)))) s)

end Sys2Proof.Machine
end

