-- ==== Sys2Proof/Machine/Modes.lean ====
section
/-! DEFINITION. The modes the ROM library runs over block ciphers: ECB, CBC with stealing, CFB, OFB, counter, GCM, CCM, XTS, CMAC (R144, R145, R148, R154, R168, R192). -/

namespace Sys2Proof.Machine

/-! ## Blocks -/

/-- Bytes in blocks of b, the last one as long as it is; the count bounds the blocks. -/
def blocksGo (b : Nat) : Nat → Bytes → List Bytes
  | 0, _ => []
  | n + 1, bs => if bs = [] then [] else bs.take b :: blocksGo b n (bs.drop b)

/-- Bytes in blocks of b. -/
def inBlocks (b : Nat) (bs : Bytes) : List Bytes := blocksGo b bs.length bs

/-- Bytes zero-filled to a multiple of b. -/
def toMultiple (b : Nat) (bs : Bytes) : Bytes := bs ++ zeros ((b - bs.length % b) % b)

/-- AES on 16 bytes (R144). -/
def aesEnc (key block : Bytes) : Bytes := blkBytes (Config.aes key (blkOf block))

/-- The inverse of AES on 16 bytes (R144). -/
def aesDec (key block : Bytes) : Bytes := blkBytes (Config.aesInv key (blkOf block))

/-- TDEA on 8 bytes (R144). -/
def tdeaEnc (key block : Bytes) : Bytes := leBytes 8 (Config.tdea key (BitVec.ofNat 64 (leNat block))).toNat

/-- The inverse of TDEA on 8 bytes (R144). -/
def tdeaDec (key block : Bytes) : Bytes := leBytes 8 (Config.tdeaInv key (BitVec.ofNat 64 (leNat block))).toNat

/-- A block cipher under a key: block length, forward and inverse. -/
structure BlockFn where
  b : Nat
  enc : Bytes → Bytes
  dec : Bytes → Bytes

/-- AES under a key. -/
def aesFn (key : Bytes) : BlockFn := { b := 16, enc := aesEnc key, dec := aesDec key }

/-- TDEA under a key. -/
def tdeaFn (key : Bytes) : BlockFn := { b := 8, enc := tdeaEnc key, dec := tdeaDec key }

/-- The cipher a key type names (R144). -/
def cipherFn (t : BitVec 8) (key : Bytes) : BlockFn := if isTdea t then tdeaFn key else aesFn key

/-! ## Confidentiality modes (SP 800-38A) -/

/-- ECB. -/
def ecb (f : Bytes → Bytes) (xs : List Bytes) : Bytes := xs.flatMap f

/-- CBC encryption, block by block. -/
def cbcEnc (f : Bytes → Bytes) : Bytes → List Bytes → List Bytes
  | _, [] => []
  | p, x :: xs => let c := f (xorBytes x p); c :: cbcEnc f c xs

/-- CBC decryption, block by block. -/
def cbcDec (g : Bytes → Bytes) : Bytes → List Bytes → List Bytes
  | _, [] => []
  | p, x :: xs => xorBytes (g x) p :: cbcDec g x xs

/-- The bytes of the final block: b where LENGTH is a multiple of it. -/
def lastLen (b len : Nat) : Nat := if len % b = 0 then b else len % b

/-- CBC-CS3 encryption: the last block is zero-filled, the last two are swapped and the second of them is cut (R154, SP 800-38A addendum). -/
def cs3Enc (c : BlockFn) (iv src : Bytes) : Bytes :=
  let ys := cbcEnc c.enc iv (inBlocks c.b (toMultiple c.b src))
  if src.length < c.b + 1 then ys.flatten
  else (ys.take (ys.length - 2)).flatten ++ ys.getD (ys.length - 1) [] ++ (ys.getD (ys.length - 2) []).take (lastLen c.b src.length)

/-- CBC-CS3 decryption: the full block of the last two gives the tail of the stolen one (R154, SP 800-38A addendum). -/
def cs3Dec (c : BlockFn) (iv src : Bytes) : Bytes :=
  let xs := inBlocks c.b src
  let n := xs.length
  if src.length < c.b + 1 then (cbcDec c.dec iv xs).flatten
  else
    let r := lastLen c.b src.length
    let z := c.dec (xs.getD (n - 2) [])
    let part := xs.getD (n - 1) []
    (cbcDec c.dec iv (xs.take (n - 2) ++ [part ++ z.drop r])).flatten ++ xorBytes (z.take r) part

/-- CFB encryption with a segment of a block; a final part takes the key stream's first bytes. -/
def cfbEnc (f : Bytes → Bytes) : Bytes → List Bytes → List Bytes
  | _, [] => []
  | p, x :: xs => let c := xorBytes x (f p); c :: cfbEnc f c xs

/-- CFB decryption. -/
def cfbDec (f : Bytes → Bytes) : Bytes → List Bytes → List Bytes
  | _, [] => []
  | p, x :: xs => xorBytes x (f p) :: cfbDec f x xs

/-- OFB. -/
def ofb (f : Bytes → Bytes) : Bytes → List Bytes → List Bytes
  | _, [] => []
  | p, x :: xs => let o := f p; xorBytes x o :: ofb f o xs

/-- Counter mode from a guarded counter register: none at the first block the guard refuses (R148, R192). -/
def ctrMode (f : Blk → Bytes) : Counter → List Bytes → Option (List Bytes)
  | _, [] => some []
  | k, x :: xs =>
    match counterNext k with
    | none => none
    | some (v, k') => (ctrMode f k' xs).map (fun ys => xorBytes x (f v) :: ys)

/-- A counter register set to a block and armed (R147, R148). -/
def armedAt (v : Blk) (limit : Nat) (w : CWidth) : Counter := Counter.armNew { value := v } (BitVec.ofNat 64 limit) w

/-! ## GCM and CCM (SP 800-38D, SP 800-38C) -/

/-- GHASH of blocks under H, the first block first (R145). -/
def ghash (h : Blk) (xs : List Bytes) : Blk := xs.foldl (fun y x => gfMul (y ^^^ blkOf x) h) 0

/-- The blocks GHASH takes: associated data and text, each zero-filled, then both lengths in bits. -/
def ghashBlocks (aad text : Bytes) : List Bytes :=
  inBlocks 16 (toMultiple 16 aad) ++ inBlocks 16 (toMultiple 16 text) ++ [beBytes 8 (8 * aad.length) ++ beBytes 8 (8 * text.length)]

/-- The tag over associated data and ciphertext, 16 bytes. -/
def gcmTag (f : Bytes → Bytes) (j0 aad text : Bytes) : Bytes :=
  xorBytes (f j0) (blkBytes (ghash (blkOf (f (zeros 16))) (ghashBlocks aad text)))

/-- The text under the counter from J0 on, whose first value is J0 itself; none where the guard refuses (Table 05-3). -/
def gcmText (f : Bytes → Bytes) (j0 text : Bytes) : Option Bytes :=
  (ctrMode (fun v => f (blkBytes v)) (armedAt (blkOf j0) (2 ^ 32 - 1) .w32).next (inBlocks 16 text)).map List.flatten

/-- A counter block of CCM: flags, nonce, counter in q bytes (Table 05-3). -/
def ccmCtr (nonce : Bytes) (i : Nat) : Bytes := BitVec.ofNat 8 (14 - nonce.length) :: nonce ++ beBytes (15 - nonce.length) i

/-- The first block of CCM's MAC: flags, nonce, LENGTH. -/
def ccmB0 (nonce : Bytes) (t len : Nat) (adata : Bool) : Bytes :=
  BitVec.ofNat 8 ((if adata then 64 else 0) + 8 * ((t - 2) / 2) + (14 - nonce.length)) :: nonce ++ beBytes (15 - nonce.length) len

/-- The associated data of CCM with its length in 2 bytes, zero-filled: AADLEN is at most 8,192. -/
def ccmAad (aad : Bytes) : Bytes := if aad = [] then [] else toMultiple 16 (beBytes 2 aad.length ++ aad)

/-- The tag of CCM over nonce, associated data and plaintext, 16 bytes before it is cut. -/
def ccmTag (f : Bytes → Bytes) (nonce : Bytes) (t : Nat) (aad plain : Bytes) : Bytes :=
  let xs := inBlocks 16 (ccmB0 nonce t plain.length (aad != []) ++ ccmAad aad ++ toMultiple 16 plain)
  xorBytes ((cbcEnc f (zeros 16) xs).getLastD (zeros 16)) (f (ccmCtr nonce 0))

/-- The text of CCM under counters 1, 2 and on. -/
def ccmText (f : Bytes → Bytes) (nonce text : Bytes) : Bytes :=
  ((inBlocks 16 text).zipIdx.map (fun x => xorBytes x.1 (f (ccmCtr nonce (x.2 + 1))))).flatten

/-! ## XTS (IEEE 1619) -/

/-- The tweaks of a data unit from the first on. -/
def tweaksFrom (t : Blk) : Nat → List Blk
  | 0 => []
  | n + 1 => t :: tweaksFrom (xtsMul t) n

/-- One block under a tweak. -/
def xtsBlock (f : Bytes → Bytes) (t : Blk) (x : Bytes) : Bytes := xorBytes (f (xorBytes x (blkBytes t))) (blkBytes t)

/-- XTS on a data unit of 16 bytes or more, its first tweak given; a partial final block steals, and decryption takes the last two tweaks in exchange (R154). -/
def xtsRun (f : Bytes → Bytes) (decrypt : Bool) (t0 : Blk) (src : Bytes) : Bytes :=
  let xs := inBlocks 16 src
  let n := xs.length
  let r := src.length % 16
  let ts := tweaksFrom t0 n
  let t (i : Nat) := ts.getD i 0
  let whole (k : Nat) : Bytes := ((xs.take k).zip ts).flatMap (fun e => xtsBlock f e.2 e.1)
  if r = 0 || n < 2 then whole n
  else
    let (a, b) := if decrypt then (t (n - 1), t (n - 2)) else (t (n - 2), t (n - 1))
    let c := xtsBlock f a (xs.getD (n - 2) [])
    whole (n - 2) ++ xtsBlock f b (xs.getD (n - 1) [] ++ c.drop r) ++ c.take r

/-! ## MACs over block ciphers -/

/-- The subkey step of CMAC: a big-endian block doubled in its field (SP 800-38B). -/
def cmacTwice (b : Nat) (x : Bytes) : Bytes :=
  let v := beNat x
  let d := v * 2 % 2 ^ (8 * b)
  beBytes b (if 2 ^ (8 * b - 1) ≤ v then d ^^^ (if b = 16 then 0x87 else 0x1B) else d)

/-- The field doubling of AES-CMAC, on a block read most significant byte first (SP 800-38B). -/
def cmacDouble (b : Blk) : Blk := blkOf (cmacTwice 16 (blkBytes b))

/-- The last block CMAC enciphers: a whole one with the first subkey, a part with 0x80 and the second. -/
def cmacLast (c : BlockFn) (x : Bytes) : Bytes :=
  let k1 := cmacTwice c.b (c.enc (zeros c.b))
  if x.length = c.b then xorBytes x k1 else xorBytes (padTo c.b (x ++ [0x80])) (cmacTwice c.b k1)

/-- CMAC of a message, a whole block (SP 800-38B). -/
def cmac (c : BlockFn) (msg : Bytes) : Bytes :=
  let xs := inBlocks c.b msg
  let head := xs.take (xs.length - 1)
  c.enc (xorBytes ((cbcEnc c.enc (zeros c.b) head).getLastD (zeros c.b)) (cmacLast c (xs.getLastD [])))

end Sys2Proof.Machine
end

