-- ==== Sys2Proof/Machine/Custodians.lean ====
section
/-! DEFINITION. The custodian ports: sessions, login, message streams, clear components, the custodian register (R288 to R290, R501 to R505). -/

namespace Sys2Proof.Machine

/-! ## Frames from a terminal (R501, R502) -/

/-- The unit hears its ports: it runs or is stopped in the boot ROM (R441). -/
def State.hearsPorts (s : State) : Bool := s.answers

/-- A frame with a bad check is counted (R481, R501). -/
def State.badCheck (s : State) (c : Fin 2) : State := s.modCust c (fun p => { p with errs := min (p.errs + 1) 0xFFFF })

/-- A frame of a terminal is taken: the next SEQ is expected, the counter of its IV advances (R501, R503). -/
def CustPort.heard (p : CustPort) (frame : Nat) : CustPort :=
  { p with rxSeq := (p.rxSeq + 1) % 256, rxCount := p.rxCount + (if p.session.isSome then 1 else 0), lastSeen := frame }

/-- Take a frame of a terminal: a bad check is counted, one already taken is acknowledged again, the next in order is acknowledged and has its effect (R501, R502). -/
def State.portIn (s : State) (c : Fin 2) (kind seq : Nat) (payload check : Bytes) (f : State → State) : State :=
  let p := s.cust.ports[c]
  if !s.hearsPorts then s
  else if check != p.checkOf kind seq payload then s.badCheck c
  else if seq % 256 = p.rxSeq then f ((s.modCust c (·.heard s.frame.num)).putPort c 5 (leBytes 1 seq))
  else if (p.rxSeq + 255 - seq % 256) % 256 < 4 then s.putPort c 5 (leBytes 1 seq)
  else s

/-- A port with no session. -/
def CustPort.idle (p : CustPort) : CustPort :=
  { p with session := none, custodian := none, txCount := 0, rxCount := 0, unacked := [], waiting := [], stream := [] }

/-- A session ends (R503). -/
def State.endPort (s : State) (c : Fin 2) : State := s.modCust c CustPort.idle

/-! ## Clear components on their way out (R505) -/

/-- The check value of a key or component: AES-CMAC of the zero block, leftmost 5 bytes; TDEA of the zero block, leftmost 3 bytes (R288). -/
def checkValue (t : BitVec 8) (key : Bytes) : Bytes :=
  if isAes t then (blkBytes (Config.aes key (cmacDouble (Config.aes key 0)))).take 5
  else (leBytes 8 (Config.tdea key 0).toNat).take 3

/-- A COMPONENT notice (Table 13-13). -/
def componentBody (t : BitVec 8) (p : Nat × Nat × Bytes) : Bytes :=
  leBytes 1 p.1 ++ leBytes 1 p.2.2.length ++ padTo 5 (checkValue t p.2.2) ++ zeros 1 ++ padTo 32 p.2.2

/-- The port a custodian is logged in on, over a keyed session. -/
def State.portOfCustodian (s : State) (k : Nat) : Option (Fin 2) :=
  [(0 : Fin 2), 1].find? (fun c => s.cust.ports[c].session.isSome && s.cust.ports[c].custodian == some k)

/-- Deliver what can be delivered of one request; with the last component the request completes with OK. -/
def State.deliverOne (s : State) (e : CompExport) : State :=
  let now := e.parts.filter (fun p => (s.portOfCustodian p.2.1).isSome)
  let s1 := now.foldl (fun (t : State) p =>
    match t.portOfCustodian p.2.1 with
    | some c => t.notice (.port c) 0xC3 (componentBody e.ktype p)
    | none => t) s
  let left := e.parts.filter (fun p => (s.portOfCustodian p.2.1).isNone)
  if left = [] then s1.reply (.port e.port) 0xC0 St.ok e.tag []
  else { s1 with cust := { s1.cust with exports := s1.cust.exports ++ [{ e with parts := left }] } }

/-- Deliver components to the custodians logged in. -/
def State.deliverParts (s : State) : State := s.cust.exports.foldl State.deliverOne { s with cust := { s.cust with exports := [] } }

/-! ## HELLO, LOGIN, DATA, ACK, BYE (R502 to R504) -/

/-- Open a session (HELLO comes in clear, its check the CRC: log 154): encapsulate to the terminal's key, send HELLO_OK, and key both directions. -/
def State.openPort (s : State) (c : Fin 2) (seq : Nat) (encapKey nt : Bytes) : State :=
  let (seed, s1) := s.takeBytes 32
  let (nu, s2) := s1.takeBytes 16
  let kem := Config.kemEncap encapKey seed
  let h := Config.sha3 (encapKey ++ nt ++ kem.1 ++ nu)
  let (st, s3) := (s2.attest 0 0 ((leBytes 32 h.toNat).take 24) 0).getD ([], s2)
  let s4 := (s3.endPort c).modCust c (fun p => { p with rxSeq := (seq + 1) % 256, lastSeen := s.frame.num })
  let s5 := (s4.putPort c 5 (leBytes 1 seq)).sendPort c 2 (kem.1 ++ nu ++ leBytes 4 st.length ++ st)
  s5.modCust c (fun p => { p with session := some (h, kmac256 kem.2 (leBytes 32 h.toNat) 64 (ascii "WL9640 PORT")) })

/-- HELLO (R503). -/
def execHello (c : Fin 2) (seq : Nat) (encapKey nt check : Bytes) (s : State) : Host.Outcome State Fault Refusal :=
  ok (if !s.hearsPorts || encapKey.length != 1184 || nt.length != 16 then s
      else if check != crcCheck (portHead 1 seq 1200) (encapKey ++ nt) then s.badCheck c
      else s.openPort c seq encapKey nt)

/-- The payload of LOGIN (Table 13-12). -/
def loginBytes (index alg : Nat) (sig : Bytes) : Bytes := leBytes 1 index ++ leBytes 1 alg ++ leBytes 2 sig.length ++ sig

/-- LOGIN (R503). -/
def execLogin (c : Fin 2) (seq : Nat) (index alg : Nat) (sig check : Bytes) (s : State) : Host.Outcome State Fault Refusal :=
  ok (s.portIn c 3 seq (loginBytes index alg sig) check (fun t =>
    match t.cust.ports[c].session with
    | none => t
    | some (h, _) =>
      if t.sigGood (ascii "WL9640 LOGIN" ++ leBytes 32 h.toNat) { index := index, alg := alg, sig := sig } then
        (t.modCust c (fun p => { p with custodian := some index })).deliverParts
      else t))

/-- DATA (R504). -/
def execCustData (c : Fin 2) (seq : Nat) (payload check : Bytes) (s : State) : Host.Outcome State Fault Refusal :=
  ok (s.portIn c 4 seq payload check (fun t => t.modCust c (fun p => { p with stream := p.stream ++ payload })))

/-- Send a waiting frame for each place free. -/
def State.drainPort (s : State) (c : Fin 2) : Nat → State
  | 0 => s
  | n + 1 =>
    match s.cust.ports[c].waiting with
    | [] => s
    | (kind, b) :: rest =>
      if 4 ≤ s.cust.ports[c].unacked.length then s
      else ((s.modCust c (fun p => { p with waiting := rest })).putPort c kind b).drainPort c n

/-- An ACK: the frame it names has arrived; it is not itself acknowledged. -/
def State.ackIn (s : State) (c : Fin 2) (seq acked : Nat) : State :=
  let s1 := s.modCust c (fun p =>
    let q := if seq % 256 = p.rxSeq then p.heard s.frame.num else { p with lastSeen := s.frame.num }
    { q with unacked := p.unacked.filter (fun u => u.seq != acked % 256) })
  s1.drainPort c 4

/-- CUSTODIAN_ACK (R502). -/
def execCustodianAck (c : Fin 2) (seq : Nat) (acked : Nat) (check : Bytes) (s : State) : Host.Outcome State Fault Refusal :=
  ok (if !s.hearsPorts then s
      else if check != s.cust.ports[c].checkOf 5 seq (leBytes 1 acked) then s.badCheck c
      else s.ackIn c seq acked)

/-- BYE (R503). -/
def execBye (c : Fin 2) (seq : Nat) (check : Bytes) (s : State) : Host.Outcome State Fault Refusal :=
  ok (s.portIn c 6 seq [] check (fun t => t.endPort c))

/-- CUSTODIAN_RESEND (R502). -/
def execCustodianResend (c : Fin 2) (seq : Nat) (s : State) : Host.Outcome State Fault Refusal :=
  ok (match s.cust.ports[c].unacked.find? (fun u => u.seq == seq) with
      | none => s
      | some u =>
        if !s.hearsPorts then s
        else if 8 ≤ u.tries then s.endPort c
        else (s.modCust c (fun p => { p with unacked := p.unacked.map (fun (x : CustSent) => if x.seq = seq then { x with tries := x.tries + 1 } else x) })).emit
          (.portFrame c u.kind u.seq u.payload))

/-- CUSTODIAN_SESSION_TIMEOUT (R503). -/
def execCustodianSessionTimeout (c : Fin 2) (s : State) : Host.Outcome State Fault Refusal :=
  ok (if s.hearsPorts && s.cust.ports[c].session.isSome && decide (s.cust.ports[c].lastSeen + 30000000 ≤ s.frame.num) then s.endPort c else s)

/-! ## Clear components (R288, R505) -/

/-- Symmetric keys of up to 256 bits have clear components: AES and TDEA, whose check values R288 gives. -/
def componentType (t : BitVec 8) : Bool := isAes t || isTdea t

/-- Split a key: random components, and the exclusive or of them and the key. -/
def State.split (s : State) (key : Bytes) : Nat → List Bytes × State
  | 0 => ([], s)
  | 1 => ([key], s)
  | n + 1 =>
    let (r, s1) := s.takeBytes key.length
    let (rest, s2) := s1.split (xorBytes key r) n
    (r :: rest, s2)

/-- The port a request came through. -/
def portOfSrc : Src → Option (Fin 2)
  | .port c => some c
  | .fn _ => none

/-- The components of a good COMP_EXPORT go out. -/
def State.beginParts (s : State) (rq : Req) (c : Fin 2) (h : Handle) (count : Nat) (custodians : List Nat) : State :=
  let (ps, s1) := s.split (s.keyValue [] h) count
  let parts := (ps.zip custodians).zipIdx.map (fun (e : (Bytes × Nat) × Nat) => (e.2 + 1, e.1.2, e.1.1))
  let e : CompExport := { port := c, tag := rq.tag, parts := parts, ktype := hType h, at_ := s.frame.num }
  State.deliverParts { s1 with cust := { s1.cust with exports := s1.cust.exports ++ [e] } }

/-- COMP_EXPORT (R505). -/
def execCompExport (rq : Req) (h : Handle) (count : Nat) (custodians : List Nat) (token : Token) (s : State) : Host.Outcome State Fault Refusal :=
  ok (s.request rq 0xC0 true (fun t =>
    match portOfSrc rq.src with
    | none => t.answer rq 0xC0 St.quorumMissing
    | some c =>
      if decide (count < 2) || decide (3 < count) || custodians.length != count || custodians.eraseDups.length != count ||
          custodians.any (fun k => !(tokenSigners token).contains k) then t.answer rq 0xC0 St.descInvalid
      else match (if t.keysClosed then some St.keyUnknown else t.checkHandle 0 h) with
        | some st => t.answer rq 0xC0 st
        | none =>
          if !componentType (hType h) || !(t.keyNode [] h).any (fun n => n.exportBits.getLsbD 2) || t.isBound (hInst h) (hNode h) then
            t.answer rq 0xC0 St.keyAttrDenied
          else t.withToken rq 0xC0 3 (t.threshold 3) token (leBytes 8 h.toNat ++ leBytes 1 count ++ custodians.flatMap (leBytes 1)) [] (fun u => u.beginParts rq c h count custodians)))

/-- An import by its number. -/
def State.importOf (s : State) (id : Nat) : Option CompImport := s.cust.imports.find? (fun i => i.id == id)

/-- Discard an import. -/
def State.dropImport (s : State) (id : Nat) : State := { s with cust := { s.cust with imports := s.cust.imports.filter (fun i => i.id != id) } }

/-- Put an import in the list in place of the one of its number. -/
def State.putImport (s : State) (i : CompImport) : State := { s.dropImport i.id with cust := { (s.dropImport i.id).cust with imports := (s.dropImport i.id).cust.imports ++ [i] } }

/-- The key an import's components make. -/
def importKey (i : CompImport) : Bytes := i.got.foldl (fun (b : Bytes) g => xorBytes b g.2.2) (zeros i.len)

/-- The last component has come: the node is staged (R505). -/
def State.endImport (s : State) (rq : Req) (i : CompImport) : State :=
  let key := importKey i
  let mat := symMaterial i.creation.ktype key
  match s.creationRefused 0 i.creation 1 with
  | some st => (s.dropImport i.id).answer rq 0xC1 st
  | none => (s.dropImport i.id).stageCreate rq 0xC1 0 (s.nodeOf 0 i.creation .imported mat [])

/-- A component enters an import: with all of them the node is staged, otherwise the reply returns its check value. -/
def State.addPart (s : State) (rq : Req) (i : CompImport) (index k : Nat) (part : Bytes) : State :=
  let j := { i with got := i.got ++ [(index, k, part)] }
  if j.got.length = j.count then s.endImport rq j
  else (s.putImport j).reply (replyTo rq) 0xC1 St.ok rq.tag (checkValue j.creation.ktype part)

/-- The first component: its form, the creation record, the token. -/
def State.openImport (s : State) (rq : Req) (c : Fin 2) (k id count len : Nat) (part : Bytes) (rec : Creation) (token : Token) (body : Bytes) : State :=
  if count < 2 ∨ 3 < count ∨ !componentType rec.ktype ∨ len ≠ keyLen rec.ktype ∨ (s.importOf id).isSome then s.answer rq 0xC1 St.descInvalid
  else match (if s.keysClosed then some St.keyUnknown else s.creationRefused 0 rec 1) with
    | some st => s.answer rq 0xC1 st
    | none => s.withToken rq 0xC1 3 (s.threshold 3) token body (creationBytes rec) (fun t =>
        t.addPart rq { id := id, count := count, len := len, creation := rec, got := [], port := c, tag := rq.tag, at_ := t.frame.num } 1 k part)

/-- The inline body of COMP_IMPORT (Table 13-13). -/
def importBody (id index count len : Nat) (component : Bytes) : Bytes :=
  leBytes 4 id ++ leBytes 1 index ++ leBytes 1 count ++ leBytes 2 len ++ padTo 32 component

/-- COMP_IMPORT (R505). -/
def execCompImport (rq : Req) (id index count len : Nat) (component : Bytes) (rec : Creation) (token : Token) (s : State) : Host.Outcome State Fault Refusal :=
  ok (s.request rq 0xC1 true (fun t =>
    match portOfSrc rq.src with
    | none => t.answer rq 0xC1 St.quorumMissing
    | some c =>
      match t.cust.ports[c].session, t.cust.ports[c].custodian with
      | some _, some k =>
        let part := component.take len
        if index = 1 then t.openImport rq c k id count len part rec token (importBody id index count len component)
        else match t.importOf id with
          | none => t.answer rq 0xC1 St.descInvalid
          | some i =>
            if i.at_ + 180000000 ≤ t.frame.num ∨ i.got.any (fun g => g.2.1 == k) then (t.dropImport id).answer rq 0xC1 St.quorumMissing
            else if index = 0 ∨ i.count < index ∨ i.got.any (fun g => g.1 == index) ∨ count ≠ i.count ∨ len ≠ i.len then
              (t.dropImport id).answer rq 0xC1 St.descInvalid
            else t.addPart rq i index k part
      | _, _ => t.answer rq 0xC1 St.quorumMissing))

/-- COMPONENT_EXPIRY (R505). -/
def execComponentExpiry (import_ : Bool) (id : Nat) (s : State) : Host.Outcome State Fault Refusal :=
  ok (if !s.works then s
      else if import_ then
        (match s.importOf id with
         | some i => if i.at_ + 180000000 ≤ s.frame.num then s.dropImport id else s
         | none => s)
      else match s.cust.exports.find? (fun e => e.tag.toNat == id && decide (e.at_ + 180000000 ≤ s.frame.num)) with
        | some e => State.reply { s with cust := { s.cust with exports := s.cust.exports.erase e } } (.port e.port) 0xC0 St.quorumMissing e.tag []
        | none => s)

/-! ## The custodian register (R289) -/

/-- A register and thresholds the rules admit. -/
def registerGood (n q3 q4 : Nat) (keys : List (Nat × Nat × Bytes)) : Bool :=
  decide (3 ≤ n) && decide (n ≤ 16) && decide (2 ≤ q3) && decide (q3 ≤ n) && decide (3 ≤ q4) && decide (q4 ≤ n) && decide (q3 ≤ q4) &&
    keys.length == n && ((keys.map (·.1)).eraseDups).length == n && keys.all (fun k => k.2.1 == 1 || k.2.1 == 2)

/-- The extended body of CUSTODIAN_SET: fields 0x04 to 0x06 and CUSTODIANS of Table 11-5. -/
def registerBytes (n q3 q4 : Nat) (keys : List (Nat × Nat × Bytes)) : Bytes :=
  leBytes 1 n ++ leBytes 1 q3 ++ leBytes 1 q4 ++ keys.flatMap (fun k => leBytes 1 k.2.1 ++ zeros 7 ++ padTo 1952 k.2.2)

/-- CUSTODIAN_SET (R289). -/
def execCustodianSet (rq : Req) (n q3 q4 : Nat) (keys : List (Nat × Nat × Bytes)) (token : Token) (s : State) : Host.Outcome State Fault Refusal :=
  ok (s.request rq 0xC2 true (fun t =>
    if !registerGood n q3 q4 keys then t.answer rq 0xC2 St.descInvalid
    else t.withToken rq 0xC2 3 (max (t.threshold 3) q3) token [] (registerBytes n q3 q4 keys) (fun u => u.stage (.custodians n q3 q4 keys (replyTo rq) rq.tag))))

end Sys2Proof.Machine
end

