-- ==== Sys2Proof/Machine/Images.lean ====
section
/-! DEFINITION. What is read from a firmware image and from a debug certificate, and the checks of an image (R427, R428, R434). -/

namespace Sys2Proof

/-- A field of an image, by its offset and its bytes (R427). -/
def FwImage.field (x : FwImage) (o n : Nat) : Nat := Machine.leNat ((x.file.drop o).take n)

/-- MAGIC is right. -/
def FwImage.magicOk (x : FwImage) : Bool := x.field 0 4 == 0x46574931

/-- KIND: 1 Hollow, 2 Plain. -/
def FwImage.kind (x : FwImage) : Nat := x.field 4 1

/-- KEY_SLOT. -/
def FwImage.keySlot (x : FwImage) : Nat := x.field 5 1

/-- SVN. -/
def FwImage.svn (x : FwImage) : Nat := x.field 6 1

/-- REVOKE. -/
def FwImage.revoke (x : FwImage) : BitVec 8 := BitVec.ofNat 8 (x.field 7 1)

/-- VERSION. -/
def FwImage.version (x : FwImage) : BitVec 32 := BitVec.ofNat 32 (x.field 8 4)

/-- BODY_LEN. -/
def FwImage.bodyLen (x : FwImage) : Nat := x.field 12 4

/-- One of the 44 zero bytes after ENTRY is not zero. -/
def FwImage.rsv (x : FwImage) : Bool := ((x.file.drop 20).take 44).any (· != 0)

/-- Header and body: what the signature and the measurement cover. -/
def FwImage.signed (x : FwImage) : Bytes := x.file.take (64 + x.bodyLen)

/-- The vendor public key of the trailer. -/
def FwImage.pub (x : FwImage) : Bytes := (x.file.drop (64 + x.bodyLen)).take 68

/-- The signature of the trailer. -/
def FwImage.sig (x : FwImage) : Bytes := x.file.drop (132 + x.bodyLen)

/-- Header, body and trailer, and nothing else. -/
def FwImage.whole (x : FwImage) : Bool := x.file.length == 64 + x.bodyLen + 2888

/-- SHA3-256 over header and body: HOLLOW_HASH of a Hollow image. -/
def FwImage.hash (x : FwImage) : Dig := Config.sha3 x.signed

/-- A field of a certificate's body, by its offset and its bytes (Table 11-8). -/
def DebugCert.field (c : DebugCert) (o n : Nat) : Nat := Machine.leNat ((c.body.drop o).take n)

/-- The rights asked for, in the bit order of PRT_DBG. -/
def DebugCert.rights (c : DebugCert) : BitVec 7 := BitVec.ofNat 7 (c.field 4 2)

/-- LIMIT_KIND. -/
def DebugCert.limitKind (c : DebugCert) : Nat := c.field 6 1

/-- EPOCH. -/
def DebugCert.epoch (c : DebugCert) : Nat := c.field 7 1

/-- FRAMES. -/
def DebugCert.frames (c : DebugCert) : Nat := c.field 8 4

/-- LCS. -/
def DebugCert.lcs (c : DebugCert) : Nat := c.field 12 1

/-- CHALLENGE. -/
def DebugCert.challenge (c : DebugCert) : BitVec 128 := BitVec.ofNat 128 (c.field 16 16)

/-- MAGIC, length and reserved bytes are right. -/
def DebugCert.shaped (c : DebugCert) : Bool :=
  c.field 0 4 == 0x44424731 && c.body.length == 64 && c.field 4 2 < 128 && c.field 13 3 == 0 && c.field 32 32 == 0

end Sys2Proof

namespace Sys2Proof.Machine

/-- Bits of an OTP word that are burnt. -/
def onesOf (w : BitVec 32) : Nat := ((List.range 32).filter w.getLsbD).length

/-- The number by which Config.verify knows XMSS-SHAKE256_20_256, with which the vendor signs (R427). -/
def algVendor : Nat := 4

/-- A vendor key slot with a use is in force and this is its key (R428, R435). -/
def State.vendorKey (s : State) (slot use : Nat) (pub : Bytes) : Bool :=
  let o := s.life.otp
  decide (slot < 8) && (o.vkeyUse.toList.getD slot 0).toNat == use && !o.vkeyRevoke.getLsbD slot && Config.sha3 pub == o.vkeyHash.toList.getD slot 0

/-- Why an image does not verify: 1 format, 2 key, 3 signature, 4 SVN (R428). -/
def State.imageFault (s : State) (x : FwImage) (kind : Nat) : Option Nat :=
  if !x.magicOk || x.kind != kind || decide (8 ≤ x.keySlot) || decide (32 < x.svn) || decide (2 ^ x.keySlot ≤ x.revoke.toNat) ||
      decide (8385656 < x.bodyLen) || x.rsv || !x.whole then some 1
  else if !s.vendorKey x.keySlot 1 x.pub then some 2
  else if !Config.verify algVendor x.pub x.signed x.sig then some 3
  else if x.svn < onesOf (if kind = 1 then s.life.otp.svnH else s.life.otp.svnP) then some 4
  else none

end Sys2Proof.Machine
end

