-- ==== Sys2Proof/Machine/Protect.lean ====
section
/-! DEFINITION. Protection changes: who issues them, what is refused, the change log and its commit (R330, R335 to R341, R350 to R355). -/

namespace Sys2Proof.Machine

/-! ## Applying a change (R350 to R352) -/

/-- First page of the paged area: after the records, their directories and the allocation map (Tables 07-12, 09-4). -/
def State.pagedStart (s : State) : Nat := (s.keyStoreSlots * 136 + s.keyStoreSlots / 8) / 4096

/-- A page with an entry in the page owner table: of the paged area or of MRAM (R337). -/
def State.hasEntry (s : State) (page : Nat) : Bool :=
  (decide (s.pagedStart ≤ page) && decide (page < s.usableEnd / 4096)) || (decide (0x8000000 ≤ page) && decide (page < 0x8004000))

/-- A page of MRAM. -/
def isMram (page : Nat) : Bool := decide (0x8000000 ≤ page) && decide (page < 0x8004000)

/-- One change of the log reaches its table. -/
def State.applyProt (s : State) (c : ProtChange) : State :=
  match c with
  | .region ctrl i r => { s with prot := { s.prot with regions := tset s.prot.regions (16 * ctrl.val + i.val) r } }
  | .pot page n o => { s with prot := { s.prot with
      pot := (page, n, o) :: s.prot.pot.filter (fun e => !(decide (page ≤ e.1) && decide (e.1 + e.2.1 ≤ page + n))) } }
  | .tag page cs => { s with prot := { s.prot with tags := tset s.prot.tags page cs } }
  | .rule c i r => { s with prot := { s.prot with
      rules := s.prot.rules.filter (fun e => !(e.1 == c && e.2.1 == i.val)) ++ (if r.en then [(c, i.val, r)] else []) } }
  | .s2 addr e => { s with mem := Memory.writeBytes s.mem addr (leBytes 8 e.toNat) }
  | .s2root v r => { s with prot := { s.prot with s2roots := tset s.prot.s2roots v r } }

/-- The tables as they will stand once every staged change has committed: what a new command is checked against. -/
def State.stagedView (s : State) : State := s.prot.log.foldl State.applyProt s

/-- Stage a change in the log (R352). -/
def State.stageProt (s : State) (c : ProtChange) : State := { s with prot := { s.prot with log := s.prot.log ++ [c] } }

/-! ## Who issues what (R329, R333, R350) -/

/-- The Hollow issues: a Hollow core, while the Hollow runs (R361). -/
def State.hollowIssues (s : State) (by_ : Ctxt) : Bool :=
  s.works && s.hollowUp && (match by_ with | .core true _ => true | _ => false)

/-- The owner of stage 2 of a world issues: the Plain hypervisor, or the Hollow (Table 09-11). -/
def State.stage2Issues (s : State) (by_ : Ctxt) (hollow : Bool) : Bool :=
  if hollow then s.hollowIssues by_ else s.works && (match by_ with | .core false true => true | _ => false)

/-! ## REGION_SET (R335, R336) -/

/-- Two page ranges meet. -/
def overlaps (a b c d : Nat) : Bool := decide (a ≤ d) && decide (c ≤ b)

/-- Another enabled region of the controller meets this one. -/
def State.regionMeets (s : State) (ctrl : Fin 4) (i : Fin 16) (r : Region) : Bool :=
  r.en && s.prot.regions.any (fun (e : Nat × Region) => e.1 / 16 == ctrl.val && e.1 % 16 != i.val && e.2.en &&
    overlaps r.base.toNat r.limit.toNat e.2.base.toNat e.2.limit.toNat)

/-- A region register as R336 admits it by itself. -/
def regionFormed (ctrl : Fin 4) (r : Region) : Bool :=
  (!r.en || (r.world != 0 && decide (r.base.toNat ≤ r.limit.toNat))) &&
  (!r.paged || decide (ctrl.val < 2)) && (!r.tagged || ctrl.val == 0 || ctrl.val == 2)

/-- The register is locked against this value. -/
def State.regionLocked (s : State) (ctrl : Fin 4) (i : Fin 16) (r : Region) : Bool :=
  (tget s.prot.regions (16 * ctrl.val + i.val)).any (fun (old : Region) => old.lock && old != r)

/-- REGION_SET (R336). -/
def execRegionSet (by_ : Ctxt) (ctrl : Fin 4) (i : Fin 16) (r : Region) (s : State) : Host.Outcome State Fault Refusal :=
  ok (if !s.hollowIssues by_ then s
      else
        let v := s.stagedView
        if !regionFormed ctrl r || v.regionLocked ctrl i r then s
        else if v.regionMeets ctrl i r then s.raise 0x2002 true ctrl.val 1 i.val
        else s.stageProt (.region ctrl i r))

/-! ## POT_SET and TAG_SET (R337 to R339) -/

/-- The run of pages may be given this value by this issuer: MRAM by the Hollow monitor alone, and untagged. -/
def State.potAllowed (s : State) (by_ : Ctxt) (page count : Nat) (o : PageOwner) : Bool :=
  decide (1 ≤ count) && decide (count ≤ 65536) && s.hasEntry page && s.hasEntry (page + count - 1) &&
  (isMram page == isMram (page + count - 1)) && (!isMram page || (decide (by_ = .core true true) && !o.tagged))

/-- POT_SET (R350). -/
def execPotSet (by_ : Ctxt) (page count : Nat) (o : PageOwner) (s : State) : Host.Outcome State Fault Refusal :=
  ok (if s.hollowIssues by_ && s.potAllowed by_ page count o then s.stageProt (.pot page count o) else s)

/-- TAG_SET (R350). -/
def execTagSet (by_ : Ctxt) (page : Nat) (colours : List (BitVec 4)) (s : State) : Host.Outcome State Fault Refusal :=
  ok (if s.hollowIssues by_ && s.hasEntry page && !isMram page && colours.length == 64 then s.stageProt (.tag page colours) else s)

/-! ## RULE_SET (R341, R344) -/

/-- Another enabled rule of the context meets this one. -/
def State.ruleMeets (s : State) (c : Ctxt) (i : Fin 32) (r : Rule) : Bool :=
  r.en && s.prot.rules.any (fun e => e.1 == c && e.2.1 != i.val && e.2.2.en &&
    overlaps r.base.toNat r.limit.toNat e.2.2.base.toNat e.2.2.limit.toNat)

/-- RULE_SET (R350). -/
def execRuleSet (by_ : Ctxt) (c : Ctxt) (i : Fin 32) (r : Rule) (s : State) : Host.Outcome State Fault Refusal :=
  ok (if !s.hollowIssues by_ then s
      else if s.stagedView.ruleMeets c i r then s.raise 0x2002 true 0xFF 1 i.val
      else s.stageProt (.rule c i r))

/-! ## S2_SET and S2_ROOT (R351) -/

/-- S2_SET (R351). -/
def execS2Set (by_ : Ctxt) (addr : Nat) (entry : Word) (s : State) : Host.Outcome State Fault Refusal :=
  ok (
    let o := s.stagedView.owner (addr / 4096)
    if addr % 8 = 0 ∧ o.kind = 2 ∧ (o.world = 1 ∨ o.world = 2) ∧ s.stage2Issues by_ (o.world == 2) then s.stageProt (.s2 addr entry)
    else s)

/-- S2_ROOT (R351). -/
def execS2Root (by_ : Ctxt) (vmid : Nat) (root : Word) (s : State) : Host.Outcome State Fault Refusal :=
  ok (if vmid < 2048 ∧ s.stage2Issues by_ (decide (1024 ≤ vmid)) then s.stageProt (.s2root vmid root) else s)

/-! ## WORLD_SET (R330) -/

/-- Hollow lanes of a mask. -/
def lanesOf (mask : BitVec 64) : Nat := ((List.range 64).filter mask.getLsbD).length

/-- WORLD_SET (R330). -/
def execWorldSet (by_ : Ctxt) (mask : BitVec 64) (s : State) : Host.Outcome State Fault Refusal :=
  ok (if s.works && s.hollowUp && decide (by_ = .core true true) && decide (lanesOf mask ≤ 32) then
        { s with prot := { s.prot with worldStaged := some mask } }
      else s)

/-! ## The commit at orders 2 and 3 (R138, R330, R352, R353) -/

/-- Masters whose accesses may be outstanding at cycle 1: engines, movers, control cores, services, passes and the twin link (R353). -/
def fenceMasters : List Nat := (List.range 45).map (fun k => 64 + k)

/-- The lane leaves its world: caches and TLB lost, the registers zeroed, residents written back, the local store zeroed, slots 10 to 31 only in this frame (Table 03-19). -/
def Lane.turn (x : Lane) (hollow : Bool) : Lane :=
  if x.hollow = hollow then x
  else { x with hollow := hollow, changed := true, tlb := [], walks := [], dcache := [], tags := [], bank := {}, idle := {}, entry := none, run := none, resident := [], grants := [] }

/-- Contexts on the lanes that change go back to their blocks. -/
def State.writeBackChanged (s : State) (mask : BitVec 64) : State :=
  let gone := (s.lanes.toList.zipIdx.filter (fun (e : Lane × Nat) => e.1.hollow != mask.getLsbD e.2)).flatMap (fun e => e.1.resident)
  { s with jobs := s.jobs.map (fun (j : Job) => { j with block := (tget gone j.slot).getD j.block }) }

/-- The first byte of a local store's kernel area: the 52 KiB behind the 12 resident slots (Table 03-1; log 133). -/
def kernelArea : Nat := 0x33000

/-- The kernel area of a lane is loaded with the lane kernel of the running Hollow image for a world (R138, R426). -/
def State.loadKernel (s : State) (n : LaneId) (hollow : Bool) : State :=
  { s with mem := Memory.writeBytes s.mem (localAddr n kernelArea) ((Config.laneKernel (s.life.hollowHash.getD 0) hollow).take 0xD000) }

/-- The lane world mask commits: the lanes that change leave their world, and their kernel areas are loaded for the new one; event 0x2009 (R138, R330, R369). -/
def State.commitWorld (s : State) : State :=
  match s.prot.worldStaged with
  | none => s
  | some mask =>
    let s1 := s.writeBackChanged mask
    let zeroed (a : Nat) : Bool := (List.finRange 64).any (fun (n : Fin 64) =>
      s1.lanes[n].hollow != mask.getLsbD n.val && decide (localAddr n 0 ≤ a) && decide (a < localAddr n 0x40000))
    let s2 := { s1 with
      lanes := Vector.ofFn (fun (n : Fin 64) => s1.lanes[n].turn (mask.getLsbD n.val))
      mem := s1.mem.filter (fun (c : Host.Cell) => !zeroed c.1)
      prot := { s1.prot with worldStaged := none } }
    ((List.finRange 64).foldl (fun (t : State) (n : Fin 64) =>
      if s1.lanes[n].hollow != mask.getLsbD n.val then t.loadKernel n (mask.getLsbD n.val) else t) s2).raise 0x2009 true (lanesOf mask) (mask.toNat / 2 ^ 32) (mask.toNat % 2 ^ 32)

/-- A change affects a TLB entry: its output pages lie in what the region or rule covered before or covers now, in the pages of an owner or tag change; its VMID's root changes; or, for a stage-2 entry, any translation of that world (R102). -/
def State.affects (s : State) (c : ProtChange) (e : TlbEntry) : Bool :=
  let n := if e.big then 512 else 1
  let meets (lo hi : Nat) : Bool := overlaps lo hi (e.out / 4096) (e.out / 4096 + n - 1)
  match c with
  | .region ctrl i r =>
    meets r.base.toNat r.limit.toNat || (tget s.prot.regions (16 * ctrl.val + i.val)).any (fun o => meets o.base.toNat o.limit.toNat)
  | .pot page k _ => meets page (page + k - 1)
  | .tag page _ => meets page page
  | .rule x i r =>
    meets r.base.toNat r.limit.toNat || s.prot.rules.any (fun o => o.1 == x && o.2.1 == i.val && meets o.2.2.base.toNat o.2.2.limit.toNat)
  | .s2 addr _ => e.hollow == ((s.owner (addr / 4096)).world == 2)
  | .s2root v _ => decide (v = (if e.hollow then 1024 else 0) + e.asid.toNat)

/-- TLB entries that changes affect are invalidated at their commit, and with any change the walk and data caches, whose entries name no page (R102; log 14). -/
def State.flushTlbs (s before : State) (cs : List ProtChange) : State :=
  { s with lanes := s.lanes.map (fun (x : Lane) =>
      { x with
        tlb := x.tlb.filter (fun e => !cs.any (fun c => before.affects c e))
        walks := if cs = [] then x.walks else []
        dcache := if cs = [] then x.dcache else [] }) }

/-- Orders 2 and 3 of the commit: the mask, then up to 4,096 changes of the log; the epoch rises if any commits; while a fence is outstanding everything stays staged (R352 to R354). -/
def State.commitProt (s : State) : State :=
  if s.prot.fence ≠ [] ∨ (s.prot.worldStaged.isNone ∧ s.prot.log = []) then s
  else
    let now := s.prot.log.take 4096
    let s1 := s.commitWorld
    let s2 := now.foldl State.applyProt s1
    let s3 := s2.flushTlbs s1 now
    { s3 with prot := { s3.prot with log := s3.prot.log.drop 4096, epoch := s3.prot.epoch + 1, fence := fenceMasters } }

end Sys2Proof.Machine
end

