-- ==== Sys2Proof/Machine/Random.lean ====
section
/-! DEFINITION. Entropy sources, the seed pool and the CTR_DRBG instances (R198 to R204). -/

namespace Sys2Proof.Machine

/-- Additional input of a first call: over 48 bytes it is reduced by SHA3-384 (R202). -/
def extraInput (msg : Bytes) : Bytes := if msg.length ≤ 48 then msg else leBytes 48 (Config.sha3_384 msg).toNat

/-- One generate call of a squeeze is done: n bytes go to the window, the next call follows on the same instance (R202). -/
def State.drbgCall (s : State) (i : Fin 8) (slot : Nat) (k : Fin 4) (h : HashCtx) (off len : Nat) (work : BitVec 384) : State :=
  let d := s.engines.drbg[i]
  let n := min 4096 (len - d.done)
  let r := Config.drbgGenerate work (if d.done = 0 then extraInput h.msg else []) n
  let s1 := s.modCtx slot (fun c => { c with window := Memory.writeBytes c.window (off + d.done) (padTo n r.1) })
  let s2 := s1.countGlob (50 + i.val) n
  if len ≤ d.done + n then
    let (extra, rest) := takeExtra [] (h.reqs.drop 1)
    (((s2.modDrbg i (fun d => { d with work := some r.2, calls := d.calls + 1, busy := none, done := 0 })).bumpWaits.modJob slot
      (fun x => x.setHash k (some { h.waits s with reqs := rest, msg := extra, squeezed := h.squeezed + len }))).signalHash slot k).dispatchDrbg
  else
    (s2.modDrbg i (fun d => { d with work := some r.2, calls := d.calls + 1, done := d.done + n, held := true })).nextCall i

/-- DRBG_CALL_DONE (R202). -/
def execDrbgCallDone (i : Fin 8) (s : State) : Host.Outcome State Fault Refusal :=
  ok (let d := s.engines.drbg[i]
      match d.busy, d.work with
      | some (slot, k), some work =>
        (match s.job slot with
         | none => s
         | some j =>
           match j.hash[k] with
           | none => s.modDrbg i (fun d => { d with busy := none, done := 0 })
           | some h =>
             match h.reqs with
             | .squeeze off len :: _ => if d.held then s else s.drbgCall i slot k h off len work
             | _ => s.modDrbg i (fun d => { d with busy := none, done := 0 }))
      | _, _ => s)


/-- A reseed is due: 1,000 frames or 65,536 calls since the last (R201). -/
def State.reseedDue (s : State) (d : Drbg) : Bool := decide (d.reseededAt + 1000 ≤ s.frame.num) || decide (65536 ≤ d.calls)

/-- DRBG_RESEED (R201). -/
def execDrbgReseed (i : Fin 8) (s : State) : Host.Outcome State Fault Refusal :=
  ok (let d := s.engines.drbg[i]
      if !s.reseedDue d then s
      else match s.reseed i with
        | some t => t.dispatchDrbg
        | none => s.modDrbg i (fun d => { d with stopped := true }))

/-- No entropy source is healthy any more: event 0x5013 (R204). -/
def State.sourceCheck (s : State) : State :=
  if s.healthySources = 0 && !s.engines.noSource then
    { s with engines := { s.engines with noSource := true } }.raise 0x5013 false s.engines.pool.length 0 0
  else s

/-- A source fails the repetition count or the adaptive proportion test: it is fenced, and its tests begin anew (R199). -/
def State.failSource (s : State) (source : Fin 4) (proportion : Bool) (count : Nat) : State :=
  let s1 := { s with engines := { s.engines with health := s.engines.health.set source.val {} source.isLt } }
  ((s1.fence (elemOf .entropy source.val) 5).raise (if proportion then 0x5011 else 0x5010) false source.val count 0).sourceCheck

/-- ENTROPY_TEST_FAIL (R199). -/
def execEntropyTestFail (source : Fin 4) (proportion : Bool) (failures : Nat) (s : State) : Host.Outcome State Fault Refusal :=
  ok (s.failSource source proportion failures)

/-! ## The health tests and the pool (R198 to R200) -/

/-- The tests after one raw bit: a run of 41, or 794 of a window's first value, fails (R198). -/
def Health.bit (h : Health) (b : Bool) : Health ⊕ (Bool × Nat) :=
  let run := if h.run ≠ 0 && b == h.last then h.run + 1 else 1
  let first := if h.pos = 0 then b else h.first
  let same := (if h.pos = 0 then 0 else h.same) + (if b == first then 1 else 0)
  if 41 ≤ run then .inr (false, run)
  else if 794 ≤ same then .inr (true, same)
  else .inl { last := b, run := run, first := first, pos := (h.pos + 1) % 1024, same := same }

/-- The tests after raw bits; where one fails, which and its count. -/
def Health.bits (h : Health) : List Bool → Health ⊕ (Bool × Nat)
  | [] => .inl h
  | b :: bs =>
    match h.bit b with
    | .inl h1 => h1.bits bs
    | .inr f => .inr f

/-- Raw bits in the order of their numbers (log 138). -/
def rawBits (n : Nat) (raw : BitVec n) : List Bool := (List.range n).map raw.getLsbD

/-- The source whose turn it is: the next healthy one (R200). -/
def State.turnOf (s : State) : Option Nat :=
  (rotated 4 s.engines.nextSource).find? (fun n => !s.fenced (elemOf .entropy n))

/-- A seed enters the pool, and the turn passes to the next source (R200). -/
def State.addSeed (s : State) (source : Fin 4) (seed : BitVec 384) : State :=
  ({ s with engines := { s.engines with pool := s.engines.pool ++ [seed], nextSource := source.val + 1 } }).dispatchDrbg

/-- SEED_CONDITIONED (R200). -/
def execSeedConditioned (source : Fin 4) (raw : BitVec 1536) (s : State) : Host.Outcome State Fault Refusal :=
  ok (if s.fenced (elemOf .entropy source.val) then s
      else match s.engines.health[source].bits (rawBits 1536 raw) with
        | .inr (proportion, count) => s.failSource source proportion count
        | .inl h =>
          let s1 := { s with engines := { s.engines with health := s.engines.health.set source.val h source.isLt } }
          if s.turnOf ≠ some source.val || 64 ≤ s.engines.pool.length then s1
          else s1.addSeed source (Config.sha3_384 (leBytes 192 raw.toNat)))

end Sys2Proof.Machine
end

