-- ==== Sys2Proof/Machine/Roots.lean ====
section
/-! DEFINITION. The upper levels of the Quarry: L0, L1, the wrap of L2, the session root, what a change of the measurement discards (R246, R247, R251, R272 to R274). -/

namespace Sys2Proof.Machine

/-- L0 from the BBRAM secret and the OTP seed (R246). -/
def State.l0Value (s : State) : Dig :=
  BitVec.ofNat 256 (leNat (kmac256 (leBytes 32 s.life.bbram.toNat) (leBytes 32 s.life.otp.l0Seed.toNat) 32 (ascii "WL9640 L0")))

/-- L1 from L0 and a measurement vector (R246). -/
def l1Value (l0 : Dig) (mv : Bytes) : Dig := BitVec.ofNat 256 (leNat (kmac256 (leBytes 32 l0.toNat) mv 32 (ascii "WL9640 L1")))

/-- KEK, under which L2 is wrapped (R247). -/
def kekValue (l1 : Dig) (epoch : Nat) : Bytes := kmac256 (leBytes 32 l1.toNat) (ascii "L2WRAP" ++ leBytes 1 epoch) 32 (ascii "WL9640 W")

/-- The measurement vector of a Hollow image in a life-cycle state, with a debug byte. -/
def State.mvOf (s : State) (hollow : Dig) (debug : Nat) : Bytes := measureBytes hollow (lcsCode s.life.otp.lcs) s.epoch debug

/-- L0 and L1 of the running image. -/
def State.deriveUpper (s : State) : State :=
  let l0 := s.l0Value
  { s with quarry := { s.quarry with l0 := some l0, l1 := some (l1Value l0 (s.mvOf (s.life.hollowHash.getD 0) (debugByte s.prot.dbg))) } }

/-- L2 wrapped for a Hollow image with the debug byte given (R247, R272). -/
def State.wrapFor (s : State) (l2 : Dig) (hollow : Dig) (debug : Nat) : Bytes × Dig :=
  (Config.kw (kekValue (l1Value (s.quarry.l0.getD 0) (s.mvOf hollow debug)) s.epoch) (leBytes 32 l2.toNat), hollow)

/-- Hold a new L2, wrapped as CURRENT for the running image, with FORWARD zeroed (R247, Tables 10-1, 11-5). -/
def State.adoptL2 (s : State) (l2 : Dig) : State :=
  { s with quarry := { s.quarry with
      l2 := some l2
      current := some (s.wrapFor l2 (s.life.hollowHash.getD 0) (debugByte s.prot.dbg))
      forward := none } }

/-- A unit that first holds an L2 draws its JID, and its journal begins at SEQ 1 (R279). -/
def State.newJournal (s : State) : State :=
  let (j, s1) := s.take 128
  { s1 with quarry := { s1.quarry with jid := j, seq := 1, chain := 0, staging := [], written := [], durable := (0, 0), anchors := [], snap := none, snapEnds := [], restore := none } }

/-- What a slot unwraps to under the L1 of this start. -/
def State.unwrapL2 (s : State) (wrap : Bytes) : Option Dig :=
  match s.quarry.l1 with
  | none => none
  | some l1 => (Config.kwInv (kekValue l1 s.epoch) wrap).map (fun b => BitVec.ofNat 256 (leNat b))

/-- Draw a session root where none is held (R251). -/
def State.drawSession (s : State) : State :=
  if s.quarry.session.isSome then s
  else let (k, s1) := s.take 256; { s1 with quarry := { s1.quarry with session := some k } }

/-- L2 is unavailable: event 0x3007 with 1 for a failed KW check, 2 for a measured change; the session root serves instance 0 (R274). -/
def State.withoutL2 (s : State) (cause : Nat) : State := s.drawSession.raise 0x3007 true cause 0 0

/-- Unwrap L2 at a start: FORWARD first, which becomes CURRENT, then CURRENT (Table 07-11). -/
def State.openL2 (s : State) : State :=
  let fwd := match s.quarry.forward with
    | some (w, h, true) => (s.unwrapL2 w).map (fun k => (k, w, h))
    | _ => none
  match fwd with
  | some (k, w, h) => State.raise { s with quarry := { s.quarry with l2 := some k, current := some (w, h), forward := none } } 0x3008 true 2 (hash32 h) 0
  | none =>
    match s.quarry.current.bind (fun c => s.unwrapL2 c.1) with
    | some k => { s with quarry := { s.quarry with l2 := some k } }
    | none => s.withoutL2 1

/-- A job holds an owner key: a key of a directory under L2. -/
def Job.holdsKey (j : Job) : Bool := j.keyZero != 0 || j.keyOne != 0 || !j.bound.isEmpty

/-- A change of LCS, EPOCH or a measured debug bit: L1, L2 and the benches are discarded, caches zeroed, jobs holding an owner key squashed with KEY_GONE (R273, R274). -/
def State.discardRoots (s : State) : State :=
  let held := s.quarry.l2.isSome
  let s1 := { s with
    quarry := { s.quarry with l1 := none, l2 := none, ownerKeys := false, cut := [] }
    cipher := { s.cipher with kss := [] } }
  if !held then s1
  else (s1.squashAll (fun j => j.holdsKey && !j.finished) St.keyGone (fun _ => 0) false).withoutL2 2

end Sys2Proof.Machine
end

