-- ==== Sys2Proof/Machine/Strata.lean ====
section
/-! DEFINITION. Strata: records, the ring and the sticky area, the flush at cycle 11,920, the end of a freeze, the snapshot of the counters (R447 to R460). -/

namespace Sys2Proof.Machine

/-! ## Records (Table 12-1) -/

/-- One byte into a CRC-16 of polynomial 0x1021, most significant bit first. -/
def crc16Byte (c : BitVec 16) (b : Byte) : BitVec 16 :=
  (List.range 8).foldl (fun (x : BitVec 16) _ => if x.getLsbD 15 then (x <<< 1) ^^^ 0x1021 else x <<< 1) (c ^^^ (b.setWidth 16 <<< 8))

/-- The CRC-16 of a record, initial value 0xFFFF. -/
def crc16 (b : Bytes) : BitVec 16 := b.foldl crc16Byte 0xFFFF

/-- Bytes 0x00 to 0x05 of a record. -/
def Event.head (e : Event) : Bytes :=
  leBytes 2 e.code.toNat ++ leBytes 1 (e.severity.toNat + 16 * e.level.toNat + (if e.hollow then 128 else 0)) ++ leBytes 3 e.power.toNat

/-- Bytes 0x08 to 0x1F of a record. -/
def Event.rest (e : Event) : Bytes :=
  leBytes 4 e.seconds.toNat ++ leBytes 4 e.frameIdx.toNat ++ leBytes 4 e.seq.toNat ++ leBytes 4 e.p1.toNat ++ leBytes 4 e.p2.toNat ++ leBytes 4 e.p3.toNat

/-- A record with its CHECK computed. -/
def Event.checked (e : Event) : Event := { e with check := crc16 (e.head ++ e.rest) }

/-- CHECK holds (R454). -/
def Event.valid (e : Event) : Bool := e.check == crc16 (e.head ++ e.rest)

/-- The 32 bytes of a record. -/
def Event.bytes (e : Event) : Bytes := e.head ++ leBytes 2 e.check.toNat ++ e.rest

/-- A record as a reader sees it: P2 and P3 zero where HOLLOW is 1, CHECK recomputed, unless Strata raw read is enabled (R458). -/
def Event.filtered (e : Event) (raw : Bool) : Event := if e.hollow && !raw then { e with p2 := 0, p3 := 0 }.checked else e

/-! ## The ring and the sticky area (R452, R453) -/

/-- Codes that also go to the sticky area (R446). -/
def isSticky (code : BitVec 16) : Bool := decide (0x8001 ≤ code.toNat) && decide (code.toNat ≤ 0x8012)

/-- The 0x0003 record of a full sticky area: records refused in P1; its SEQ is free, since it enters no ring (log 9). -/
def State.fullRecord (s : State) (seq : BitVec 32) : Event :=
  ({ s.event 0x0003 false s.strata.stickyRefused 0 0 with seq := seq }).checked

/-- A record goes to the sticky area: at the next free place; with 1,023 in use the last place takes the 0x0003 record, whose P1 counts the records refused after that (R453). -/
def State.stick (s : State) (e : Event) : State :=
  let t := s.strata
  if t.sticky.length < 1022 then { s with strata := { t with sticky := t.sticky ++ [e] } }
  else if t.sticky.length = 1022 then
    let (q, s1) := s.take 32
    { s1 with strata := { s1.strata with sticky := t.sticky ++ [e, s.fullRecord q] } }
  else
    let n := min (t.stickyRefused + 1) (2 ^ 32 - 1)
    { s with strata := { t with
        stickyRefused := n, sticky := t.sticky.modify 1023 (fun x => { x with p1 := BitVec.ofNat 32 n }.checked) } }

/-- A record enters the ring: it takes its SEQ and CHECK (R449, R452). -/
def State.enterRing (s : State) (e : Event) : State :=
  let r := { e with seq := s.strata.seq }.checked
  let s1 := { s with strata := { s.strata with seq := s.strata.seq + 1, ring := tset s.strata.ring (s.strata.seq.toNat % 65536) r } }
  if isSticky e.code then s1.stick r else s1

/-- Pass up to n waiting records to MRAM (R452). -/
def State.passRecords (s : State) (n : Nat) : State :=
  let now := s.strata.buffer.take n
  now.foldl State.enterRing { s with strata := { s.strata with buffer := s.strata.buffer.drop n } }

/-! ## The end of a freeze (R457) -/

/-- A freeze ends: waiting records, the side buffer, the 0x0002 record, then what was raised after its end, in that order (R457). -/
def State.endFreezeOf (s : State) (cause : Nat) : State :=
  match s.strata.frozen with
  | none => s
  | some (z, lost) =>
    let t := s.strata
    let e := s.event 0x0002 false lost (s.frame.num - z + 1) cause
    { s with strata := { t with frozen := none, thaw := false, side := [], sideFull := [], buffer := t.buffer ++ t.side ++ [e] ++ t.sideFull } }

/-- How a running freeze ends in this frame, if it does: 1 thawed, 2 expired, 3 side buffer full. -/
def State.freezeEnd (s : State) : Option Nat :=
  match s.strata.frozen with
  | none => none
  | some (z, _) =>
    if s.strata.sideFull ≠ [] then some 3 else if s.strata.thaw then some 1 else if z + 10000 ≤ s.frame.num then some 2 else none

/-- One overflow record for a frame in which events were lost (R455). -/
def State.overflow (s : State) : State :=
  if s.strata.lostNow.1 = 0 then s
  else ({ s with strata := { s.strata with lostNow := (0, 0) } }).raise 0x0004 false s.strata.lostNow.1 s.strata.lostNow.2 0

/-- The records of cycle 11,920: up to 256 pass, during a freeze only in its first frame (R452, R456, R457). -/
def State.flushRecords (s : State) : State :=
  let s1 := match s.freezeEnd with
    | some c => s.endFreezeOf c
    | none => s
  match s1.strata.frozen with
  | some (z, _) => if z = s1.frame.num then s1.passRecords 256 else s1
  | none => (s1.passRecords 256).overflow

/-! ## Snapshots (R459, R465) -/

/-- Latch a counter into its snapshot, then clear it where that is asked. -/
def Ctr.latch (clear : Bool) (c : Ctr) : Ctr :=
  let d := { c with snap := (c.live, c.sat) }
  if clear then { d with live := 0, sat := false } else d

/-- Every counter is latched; the clears of PMC_CTRL follow the snapshot. -/
def State.snapCounters (s : State) : State :=
  let p := s.pmc
  { s with pmc := { p with
      lane := p.lane.map (fun (e : Nat × Ctr) => (e.1, e.2.latch p.clrLane))
      glob := p.glob.map (fun (e : Nat × Ctr) => (e.1, e.2.latch p.clrGlobal))
      inst := p.inst.map (fun (e : Nat × Ctr) => (e.1, e.2.latch false))
      clrLane := false, clrGlobal := false } }

end Sys2Proof.Machine
end

