-- ==== Sys2Proof/Machine/Boot.lean ====
section
/-! DEFINITION. Start-up of the unit: OTP checks, tamper handling, life-cycle transitions and their resumption, image selection, the roots, READY; the power-fail sequence and the tamper response (R404, R413 to R443, R513 to R535). -/

namespace Sys2Proof.Machine

/-! ## OTP words (R413 to R416) -/

/-- An unbroken run of ones from bit 0 upwards. -/
def thermo (w : BitVec 32) : Bool := w &&& (w + 1) == 0

/-- The next bit of a thermometer word is burnt. -/
def burnNext (w : BitVec 32) : BitVec 32 := w ||| (w + 1)

/-- A thermometer word burnt up to a count. -/
def burnTo (w : BitVec 32) (n : Nat) : BitVec 32 := w ||| BitVec.ofNat 32 (2 ^ n - 1)

/-- The OTP fault of R415: the two words event 0x8007 names. -/
def Otp.faultOf (o : Otp) : Option (Nat × Nat) :=
  if o.lcBase.getLsbD 1 && !o.lcBase.getLsbD 0 then some (0x040, 0)
  else if !thermo o.lcEpoch then some (0x041, 0)
  else if !thermo o.svnH then some (0x042, 0)
  else if !thermo o.svnP then some (0x043, 0)
  else if !thermo o.tamperCnt then some (0x044, 0)
  else if !thermo o.tamperRec then some (0x045, 0)
  else if o.lcBase.getLsbD 2 && onesOf o.lcEpoch % 2 == 1 then some (0x040, 0x041)
  else (o.tlog.toList.zipIdx.find? (fun (e : (Reg32 × Reg32 × Reg32) × Nat) => e.1.2.2 == 0xFFFFFFFF)).map (fun e => (0x102 + 3 * e.2, 0))

/-- Change the OTP. -/
def State.modOtp (s : State) (f : Otp → Otp) : State := { s with life := { s.life with otp := f s.life.otp } }

/-- A transition record. -/
def State.tlog (s : State) (n : Nat) : Reg32 × Reg32 × Reg32 := s.life.otp.tlog.toList.getD n (0, 0, 0)

/-- Change a transition record. -/
def State.modTlog (s : State) (n : Nat) (f : Reg32 × Reg32 × Reg32 → Reg32 × Reg32 × Reg32) : State :=
  if h : n < 64 then s.modOtp (fun o => { o with tlog := o.tlog.set n (f o.tlog[n]) h }) else s

/-- The lowest unused record: 63 is kept for SCRAP (R416). -/
def State.freeRecord (s : State) (scrap : Bool) : Option Nat :=
  (List.range (if scrap then 64 else 63)).find? (fun n => (s.tlog n).1 == 0)

/-- An open record: INTENT burnt, DONE 0 (R418). -/
def State.openRecord (s : State) : Option Nat := (List.range 64).find? (fun n => (s.tlog n).1 != 0 && (s.tlog n).2.2 == 0)

/-- The transition code and target epoch of a record. -/
def State.recordOf (s : State) (n : Nat) : Nat × Nat := ((s.tlog n).1.toNat % 256, (s.tlog n).1.toNat / 256 % 16)

/-- The unit is TAMPERED (R440). -/
def State.tampered (s : State) : Bool := s.isOwned && decide (onesOf s.life.otp.tamperRec < onesOf s.life.otp.tamperCnt)

/-! ## The steps of the transitions (Table 11-4) -/

/-- Steps of a transition. -/
def stepsOf (code : Nat) : Nat := match code with | 1 => 1 | 2 => 3 | 3 => 5 | 4 => 5 | 5 => 5 | 6 => 2 | _ => 4

/-- Instances other than 0 are removed from MRAM; journal anchors and reservation log zeroed. -/
def State.wipeInsts (s : State) : State :=
  ({ s with
    insts := s.insts.filter (fun (e : Nat × Inst) => e.1 == 0)
    quarry := { s.quarry with anchors := [], durable := (0, 0), resLog := [] } }).refreshManager

/-- L2 CURRENT and FORWARD, program-signing keys and pairing record zeroed. -/
def State.wipeRoots (s : State) : State :=
  { s with
    quarry := { s.quarry with current := none, forward := none, progKeys := [], l2 := none, ownerKeys := false }
    twin := { s.twin with record := none, role0 := false } }

/-- The BBRAM secret zeroed, its check word EMPTY (R535). -/
def State.wipeSecret (s : State) : State := { s with life := { s.life with bbram := 0, check := .empty } }

/-- Attestation state zeroed. -/
def State.wipeTrees (s : State) : State := { s with life := { s.life with trees := [] } }

/-- All of MRAM written with zeros (SCRAP step 3). -/
def State.wipeMram (s : State) : State :=
  let t := s.wipeInsts.wipeRoots.wipeTrees
  { t with
    mem := t.mem.filter (fun (c : Host.Cell) => !(decide (0x8000000000 ≤ c.1) && decide (c.1 < 0x8004000000)))
    quarry := { t.quarry with custodians := [], quorum := (0, 0) }
    life := { t.life with hollowCur := none, hollowNext := none, plainCur := none, plainNext := none, ock := none, cfg := {} }
    strata := { t.strata with ring := [], sticky := [], stickyRefused := 0, stored := none, power := 0 } }

/-- The BBRAM secret drawn and written with its check word. -/
def State.drawSecret (s : State) : State :=
  let (k, s1) := s.take 256
  { s1 with life := { s1.life with bbram := k, check := .valid } }

/-- The custodian register, thresholds, owner certification key and tamper configuration of a commissioning record; without one the register in MRAM stays (R419). -/
def State.register (s : State) (r : Option CommRecord) : State :=
  match r with
  | none => s
  | some c =>
    { s with
      quarry := { s.quarry with custodians := c.custodians.zipIdx.map (fun (e : (Nat × Bytes) × Nat) => (e.2, e.1.1, e.1.2)), quorum := (c.q3, c.q4) }
      life := { s.life with ock := some (c.ockAlg, c.ock), cfg := { inputEn := c.inputEn, polarity := c.polarity, meshEn := c.meshEn } } }

/-- L2 drawn and wrapped for the target measurement vector; the journal begins; instance 0's bench takes a new label. -/
def State.drawOwner (s : State) (e : Nat) : State :=
  let (l2, s1) := s.take 256
  let (d, s2) := s1.takeBytes 24
  let s3 := s2.newJournal
  let h := s3.life.hollowHash.getD 0
  let label := labelOf 0 e d
  let wrap := Config.kw (kekValue (l1Value s3.l0Value (measureBytes h 4 e 0)) e) (leBytes 32 l2.toNat)
  { s3 with
    quarry := { s3.quarry with current := some (wrap, h), forward := none }
    twin := { s3.twin with role0 := true }
    insts := tmod s3.insts 0 (fun (x : Inst) => { x with label := label, dir := benchDir (benchNode (labelDigest label) .derived []) }) }

/-- A new attestation tree: event 0x8040. -/
def State.newTree (s : State) : State :=
  let k := (s.takeBytes 96).1
  let s1 := (s.takeBytes 96).2
  let n := s1.life.trees.length
  let t : Tree := { next := 0, reserved := 0, pub := Config.treePublic k, secret := k }
  State.raise { s1 with life := { s1.life with trees := s1.life.trees ++ [t] } } 0x8040 true n 1 0

/-- One step of DECOMMISSION, which RECOVER and RETURN share. -/
def State.releaseStep (s : State) (k : Nat) : State :=
  match k with
  | 1 => s.wipeInsts
  | 2 => s.wipeRoots
  | 3 => s.wipeSecret
  | _ => s.wipeTrees

/-- A bit of LC_EPOCH is burnt. -/
def State.burnEpoch (s : State) : State := s.modOtp (fun o => { o with lcEpoch := burnNext o.lcEpoch })

/-- One bit of LC_BASE is burnt. -/
def State.burnBase (s : State) (k : Nat) : State := s.modOtp (fun o => { o with lcBase := o.lcBase ||| (1 <<< k) })

/-- What one step of a transition does (Table 11-4); the data of TEST and SEAL come with their commands. -/
def State.transStep (s : State) (code e k : Nat) (r : Option CommRecord) : State :=
  match code, k with
  | 3, 1 => s.drawSecret
  | 3, 2 => s.register r
  | 3, 3 => s.drawOwner e
  | 3, 4 => ({ s with life := { s.life with trees := [] } }).newTree
  | 3, _ => s.burnEpoch
  | 4, 5 => s.burnEpoch
  | 4, k => s.releaseStep k
  | 5, 1 => s.modOtp (fun o => { o with tamperRec := burnNext o.tamperRec })
  | 5, 2 => s.wipeInsts
  | 5, 3 => s.wipeRoots
  | 5, 4 => s.wipeTrees
  | 5, _ => s.burnEpoch.wipeSecret
  | 6, 1 => s.wipeInsts.wipeRoots.wipeSecret.wipeTrees
  | 6, _ => s.burnBase 2
  | 7, 1 => s.burnBase 3
  | 7, 2 => s.wipeSecret
  | 7, 3 => s.wipeMram
  | 7, _ => s.modOtp (fun o => { o with trim := Vector.replicate 64 (BitVec.allOnes 32), l0Seed := BitVec.allOnes 256 })
  | _, _ => s

/-- INTENT is burnt: event 0x8001 (R416, R417). -/
def State.beginRecord (s : State) (n code e : Nat) : State :=
  (s.modTlog n (fun _ => (BitVec.ofNat 32 (code + e * 256 + lcsCode s.life.otp.lcs * 4096 + 0xA5000000), 0, 0))).raise 0x8001 true code e n

/-- One step with its mark: event 0x8002; a mark already burnt is not burnt again. -/
def State.markStep (n code e : Nat) (r : Option CommRecord) (s : State) (k : Nat) : State :=
  ((s.transStep code e k r).modTlog n (fun t => (t.1, t.2.1 ||| (1 <<< (k - 1)), t.2.2))).raise 0x8002 true code k n

/-- DONE is burnt: event 0x8003 with the new state and epoch, and 0x8011 at the end of a RECOVER. -/
def State.endRecord (s : State) (n code : Nat) : State :=
  let s1 := s.modTlog n (fun t => (t.1, t.2.1, 0xFFFF))
  let s2 := s1.raise 0x8003 true code (lcsCode s1.life.otp.lcs) s1.epoch
  if code = 5 then s2.raise 0x8011 true s2.epoch (if s2.epoch < 15 then s2.epoch + 1 else 0xFF) 0 else s2

/-- The steps of a record from one on, and its DONE mark. -/
def State.runRecord (s : State) (n from_ : Nat) (r : Option CommRecord) : State :=
  let c := s.recordOf n
  (((List.range (stepsOf c.1)).map (· + 1)).filter (fun k => decide (from_ ≤ k))).foldl (State.markStep n c.1 c.2 r) s |>.endRecord n c.1

/-- A RECOVER that is done with e below 15 opens and runs a COMMISSION of e + 1 with the register MRAM keeps (R419). -/
def State.thenCommission (s : State) (code : Nat) : State :=
  if code ≠ 5 ∨ 15 ≤ s.epoch then s
  else match s.freeRecord false with
    | some n => (s.beginRecord n 3 (s.epoch + 1)).runRecord n 1 none
    | none => s

/-- The step an open record resumes at, and why: 1 the first not marked, 2 an output found lost (R418). -/
def State.resumeAt (s : State) (n : Nat) : Nat × Nat :=
  let c := s.recordOf n
  let marks := (s.tlog n).2.1
  let first := ((List.range (stepsOf c.1)).find? (fun k => !marks.getLsbD k)).elim (stepsOf c.1 + 1) (· + 1)
  if c.1 = 3 ∧ marks.getLsbD 0 ∧ s.life.check ≠ .valid ∧ !marks.getLsbD 4 then (1, 2) else (first, 1)

/-- Resume an open record: event 0x8004. -/
def State.resume (s : State) (n : Nat) : State :=
  let c := s.recordOf n
  let (k, why) := s.resumeAt n
  let r := s.life.trans.bind (·.record)
  let s1 := ((s.raise 0x8004 true c.1 k why).runRecord n k r).thenCommission c.1
  { s1 with life := { s1.life with trans := none } }

/-- Abandon an open record: event 0x8005 (R418). -/
def State.abandon (s : State) (n tamper : Nat) : State :=
  let s1 := (s.modTlog n (fun t => (t.1, t.2.1, 0xFFFF0000))).raise 0x8005 true (s.recordOf n).1 n tamper
  { s1 with life := { s1.life with trans := none } }

/-! ## What survives without power (R404, R426, R448, R531, R535) -/

/-- What an instance's root record keeps: share, port, creation label, a carried bench (R248, R294). -/
def Inst.fromRecord (x : Inst) : Inst :=
  { share := x.share, port := x.port, label := x.label
    state := if x.state = .exported then .exported else .active
    dir := x.dir.filterMap (fun (e : Nat × DirEntry) => if e.1 = 0 then some (0, e.2) else none) }

/-- The twin's state that MRAM keeps. -/
def Twin.kept_ (t : Twin) : Twin := { record := t.record, offered := t.offered, role0 := t.role0, unserved := t.unserved, adopted := t.adopted, homes := t.homes }

/-- The Quarry's state that MRAM keeps; a journal with nothing durable begins again (R279, R426). -/
def Quarry.kept (q : Quarry) : Quarry :=
  { current := q.current, forward := q.forward, resLog := q.resLog, jid := q.jid, durable := q.durable, anchors := q.anchors
    custodians := q.custodians, quorum := q.quorum, progKeys := q.progKeys, seq := q.durable.1 + 1, chain := q.durable.2 }

/-- Strata's state that MRAM keeps, at the next power cycle and second (R448, R454). -/
def Strata.kept (t : Strata) : Strata :=
  let sec := (t.stored.elim 0 (·.1)) + 1
  { ring := t.ring, sticky := t.sticky, stickyRefused := t.stickyRefused, seq := t.seq, power := min (t.power + 1) 0xFFFFFF
    seconds := sec, stored := t.stored, checkErr := t.ring.any (fun (e : Nat × Event) => !e.2.valid) }

/-- The life-cycle state that OTP, BBRAM, battery domain and MRAM keep; attestation leaves go on from the block after the last reserved (R424). -/
def Life.kept (l : Life) : Life :=
  { otp := l.otp, bbram := l.bbram, check := l.check, latch := l.latch, batSeconds := l.batSeconds, hollowCur := l.hollowCur
    hollowNext := l.hollowNext, plainCur := l.plainCur, plainNext := l.plainNext, flash := l.flash, ock := l.ock, cfg := l.cfg
    trees := l.trees.map (fun (t : Tree) => { t with next := t.reserved }), trans := l.trans, lastTamper := l.lastTamper, burnt := l.burnt }

/-- The trigger of the previous stop, from the last 0x0201 record (R533). -/
def Strata.lastTrigger (t : Strata) : Nat :=
  let r := t.ring.filter (fun (e : Nat × Event) => e.2.code == 0x0201 && e.2.valid)
  (r.foldl (fun (a : Nat × Nat) e => if a.1 ≤ e.2.seq.toNat then (e.2.seq.toNat, e.2.p1.toNat) else a) (0, 0)).2

/-- The unit at the release of cold reset: everything volatile at its reset value. -/
def State.fresh (s : State) : State :=
  let t := s.strata.kept
  { State.reset with
    mem := s.mem.filter (fun (c : Host.Cell) => decide (0x8000000000 ≤ c.1) && decide (c.1 < 0x8004000000))
    insts := s.insts.map (fun (e : Nat × Inst) => (e.1, e.2.fromRecord))
    frame := { State.reset.frame with num := max (100000 * t.seconds) ((t.stored.elim 0 (·.2)) + 100000) }
    quarry := s.quarry.kept
    twin := s.twin.kept_
    life := s.life.kept
    strata := t
    host := { State.reset.host with ports := s.host.ports.map (fun (p : Port) => { perst := p.perst }), mem := s.host.mem }
    power := { State.reset.power with
      resetN := s.power.resetN, pwrGood := s.power.pwrGood, powerFailN := s.power.powerFailN, testEn := s.power.testEn
      thermTrip := s.power.thermTrip, onBattery := s.power.onBattery, vddIo := s.power.vddIo, inRange := s.power.inRange
      tapBypass := s.power.tapBypass
      lastTrigger := if s.life.latch.isSome then 3 else s.strata.lastTrigger }
    out := s.out, free := s.free, pending := s.pending }

/-! ## The LCS_ and DBG_ registers (Table 11-13) -/

/-- A bit of a register. -/
def flag (n : Nat) (b : Bool) : Nat := if b then 2 ^ n else 0

/-- A slot holds an image that verified. -/
def slotValid (x : Option FwSlot) : Bool := x.any (fun (f : FwSlot) => f.valid)

/-- LCS_ATTEST: the signing tree, or the lowest with leaves left where none is certified. -/
def State.attestReg (s : State) : Nat :=
  let t := s.signTree.orElse (fun _ => (s.life.trees.zipIdx.find? (fun (t : Tree × Nat) => decide (t.1.next < treeLeaves))).map (fun t => (t.2, t.1)))
  t.elim 0 (fun x => x.1 + flag 4 x.2.cert.isSome + (treeLeaves - x.2.next) * 2 ^ 5) + s.life.trees.length * 2 ^ 22

/-- Rights of an accepted certificate awaiting commit. -/
def State.stagedRights (s : State) : Option (BitVec 7) :=
  s.staged.foldl (fun (a : Option (BitVec 7)) (c : Change) => match c with | .debugRights r _ _ _ => some r | _ => a) none

/-- LCS_STATE to LCS_TMP_CFG, then DBG_STAT, as they stand now. -/
def State.lcsRegs (s : State) : List Reg32 :=
  let o := s.life.otp
  let l := s.life
  [ (if l.fault then 0 else lcsCode o.lcs + s.epoch * 2 ^ 4) + flag 8 s.tampered + flag 9 s.openRecord.isSome +
      ((List.range 64).filter (fun n => (s.tlog n).1 != 0)).length * 2 ^ 16,
    l.corrected + flag 16 l.fault,
    l.lastTamper.1 + onesOf o.tamperCnt * 2 ^ 8 + onesOf o.tamperRec * 2 ^ 14 + flag 20 l.vbatLow,
    l.lastTamper.2,
    l.batSeconds,
    l.running.1.toNat,
    l.running.2.toNat,
    onesOf o.svnH + onesOf o.svnP * 2 ^ 8 + flag 16 (slotValid l.hollowNext) + flag 17 (slotValid l.plainNext) +
      flag 18 (s.quarry.forward.any (fun f => f.2.2)) + flag 19 l.flashBoot,
    s.attestReg,
    l.cfg.inputEn.toNat + l.cfg.polarity.toNat * 2 ^ 8 + l.cfg.meshEn.toNat * 2 ^ 16,
    s.stagedRights.elim 0 (fun r => r.toNat + 2 ^ 7) + l.dbgLast.toNat * 2 ^ 8 + l.dbgAccepted * 2 ^ 16 ].map (BitVec.ofNat 32)

/-- Words put into the latched register words, from an offset on. -/
def putWords (t : Table Reg32) (off : Nat) (ws : List Reg32) : Table Reg32 :=
  (ws.zipIdx).foldl (fun (m : Table Reg32) w => tset m (off + 4 * w.2) w.1) t

/-- A read-only word as latched. -/
def State.reg (s : State) (off : Nat) : Reg32 := (tget s.regs off).getD 0

/-- Latch them: at a tail, at a start and where the unit halts (R445). -/
def State.latchLcs (s : State) : State :=
  { s with regs := putWords (putWords s.regs 0x500000 (s.lcsRegs.take 10)) 0x500100 (s.lcsRegs.drop 10) }

/-- Before a restart everything gathered passes to MRAM: records, seconds, the frame number (R448, R452). -/
def State.flushed (s : State) : State :=
  let t := s.endFreezeOf 4
  let u := t.passRecords t.strata.buffer.length
  { u with strata := { u.strata with stored := if u.frame.ticking then some (u.strata.seconds, u.frame.num) else u.strata.stored } }

/-! ## Stops in the boot ROM (R441, R530, R533) -/

/-- The unit stops in the boot ROM with a HALT cause; FAULT_N stays low (R508, R509). -/
def State.stopBoot (s : State) (halt : Nat) : State :=
  let t := (s.passRecords s.strata.buffer.length).latchLcs
  { t with power := { t.power with run := .stopped, halt := halt, faultN := true } }

/-! ## Tamper handling at a start (R439, R535) -/

/-- Record a tamper found at a start: event 0x8010, the count in OWNED where it is not burnt yet, the EMPTY check word, an open COMMISSION, DECOMMISSION or RETURN abandoned. -/
def State.recordTamper (s : State) (code sec : Nat) : State :=
  let s1 := if s.isOwned && !s.life.burnt then s.modOtp (fun o => { o with tamperCnt := burnNext o.tamperCnt }) else s
  let s2 := ({ s1 with life := { s1.life with latch := none, burnt := false, lastTamper := (code, sec), bbram := 0, check := .empty } }).raise 0x8010 true code sec 2
  match s2.openRecord with
  | some n => if [3, 4, 6].contains (s2.recordOf n).1 then s2.abandon n code else s2
  | none => s2

/-- Read the battery latch and the BBRAM check word. -/
def State.readLatch (s : State) : State :=
  match s.life.latch with
  | some (c, sec) => s.recordTamper c sec
  | none => if s.life.check = .invalid then s.recordTamper 0x21 s.life.batSeconds else s

/-! ## Images (R427 to R431) -/

/-- The image slots of a kind: CURRENT, NEXT. -/
def Life.slots (l : Life) (kind : Nat) : Option FwSlot × Option FwSlot :=
  if kind = 1 then (l.hollowCur, l.hollowNext) else (l.plainCur, l.plainNext)

/-- Put the image slots of a kind back. -/
def Life.setSlots (l : Life) (kind : Nat) (x : Option FwSlot × Option FwSlot) : Life :=
  if kind = 1 then { l with hollowCur := x.1, hollowNext := x.2 } else { l with plainCur := x.1, plainNext := x.2 }

/-- A slot is marked invalid: event 0x8021. -/
def State.spoil (s : State) (kind slot cause : Nat) : State :=
  let x := s.life.slots kind
  let bad (f : Option FwSlot) : Option FwSlot := f.map (fun y => { y with valid := false })
  ({ s with life := s.life.setSlots kind (if slot = 1 then (x.1, bad x.2) else (bad x.1, x.2)) }).raise 0x8021 true kind slot cause

/-- Try the image of a slot: 0 CURRENT, 1 NEXT. -/
def State.trySlot (s : State) (kind slot : Nat) : Option FwImage × State :=
  let x := s.life.slots kind
  match (if slot = 1 then x.2 else x.1) with
  | none => (none, s)
  | some f =>
    if !f.valid then (none, s)
    else match s.imageFault f.image kind with
      | none => (some f.image, s)
      | some c => (none, s.spoil kind slot c)

/-- Try the recovery flash: an image that verifies is written to CURRENT, event 0x8022 (R430). -/
def State.tryFlash (s : State) (kind : Nat) : Option FwImage × State :=
  match (if kind = 1 then s.life.flash.1 else s.life.flash.2) with
  | none => (none, s)
  | some f =>
    match s.imageFault f kind with
    | some c => (none, s.raise 0x8021 true kind 2 c)
    | none =>
      let l := s.life.setSlots kind (some { image := f, valid := true }, (s.life.slots kind).2)
      (some f, ({ s with life := { l with flashBoot := true } }).raise 0x8022 true kind f.version.toNat 0)

/-- Choose the image of a kind: NEXT, CURRENT, then the flash; with the slot it came from (R429, R430). -/
def State.chooseImage (s : State) (kind : Nat) : Option (FwImage × Nat) × State :=
  match s.trySlot kind 1 with
  | (some f, s1) => (some (f, 1), s1)
  | (none, s1) =>
    match s1.trySlot kind 0 with
    | (some f, s2) => (some (f, 0), s2)
    | (none, s2) => (match s2.tryFlash kind with
      | (some f, s3) => (some (f, 0), s3)
      | (none, s3) => (none, s3))

/-- NEXT is adopted: it becomes CURRENT, the security version and, for a Hollow image, the revocations are burnt, event 0x8020 (R431). -/
def State.adoptImage (s : State) (kind : Nat) (f : FwImage) : State :=
  let l := s.life.setSlots kind ((s.life.slots kind).2, none)
  let s1 := ({ s with life := l }).modOtp (fun o =>
    if kind = 1 then { o with svnH := burnTo o.svnH f.svn, vkeyRevoke := o.vkeyRevoke ||| f.revoke } else { o with svnP := burnTo o.svnP f.svn })
  s1.raise 0x8020 true kind f.version.toNat f.svn

/-! ## The roots at a start (R246, R251, R272, R429) -/

/-- L0 and L1 of a Hollow image, then L2 in OWNED, or the session root elsewhere. -/
def State.openRoots (s : State) (f : FwImage) : State :=
  let s1 := ({ s with life := { s.life with hollowHash := some f.hash, running := (f.version, s.life.running.2) } }).deriveUpper
  if s1.isOwned then s1.openL2 else s1.drawSession

/-- The Hollow image boots: one from NEXT that leaves an existing L2 out of reach gives way to CURRENT in the same start, with cause 5; otherwise it is adopted (R429, R431). -/
def State.bootHollow (s : State) (f : FwImage) (slot : Nat) : Option State :=
  let t := s.openRoots f
  if slot = 0 then some t
  else if t.quarry.l2.isSome || s.quarry.current.isNone then some (t.adoptImage 1 f)
  else
    match (s.spoil 1 1 5).trySlot 1 0 with
    | (some g, s1) => some (s1.openRoots g)
    | (none, s1) => (match s1.tryFlash 1 with
      | (some g, s2) => some (s2.openRoots g)
      | (none, _) => none)

/-- The Plain image boots; one from NEXT is adopted where L2 is available or no owner root exists. -/
def State.bootPlain (s : State) (f : FwImage) (slot : Nat) : State :=
  let s1 := { s with life := { s.life with running := (s.life.running.1, f.version) } }
  if slot = 1 ∧ (s1.quarry.l2.isSome ∨ s1.quarry.current.isNone) then s1.adoptImage 2 f else s1

/-! ## Regions, page owners and rules at a start (Table 09-4, R337, R341) -/

/-- A region of Table 09-4. -/
def bootRegion (first last : Nat) (world : BitVec 2) (cls : BitVec 8) (w x a paged tagged lock : Bool) : Region :=
  { en := true, lock := lock, read := true, write := w, exec := x, atomic := a, world := world, cls := cls, paged := paged, tagged := tagged,
    base := BitVec.ofNat 28 first, limit := BitVec.ofNat 28 last }

/-- The regions the boot ROM loads (Table 09-4). -/
def State.bootRegions (s : State) : Table Region :=
  let p := s.pagedStart
  [(0, bootRegion 0 (p - 1) 2 0x20 true false false false false true),
   (1, bootRegion p (s.usableEnd / 4096 - 1) 3 0xFF true true true true true false),
   (16, bootRegion 0x8000000 0x8003FFF 3 0x30 true true false true false false),
   (32, bootRegion 0xC000000 0xC000FFF 3 0x8F true false true false true false),
   (33, bootRegion 0xC002000 0xC0023FF 2 0x10 true true true false false true),
   (34, bootRegion 0xC002400 0xC0027FF 1 0x10 true true true false false false),
   (35, bootRegion 0xC003000 0xC003FFF 3 0x9A true false false false false false),
   (48, bootRegion 0xC001000 0xC0010FF 3 0x04 true false false false false true)]

/-- Pages of the page owner table and the tag table, at the start of the paged area: Hollow pages of kind 6 (R337). -/
def State.tablePages (s : State) : Nat :=
  let n := s.usableEnd / 4096 - s.pagedStart
  ((n + 16384) * 8 + n * 32 + 4095) / 4096

/-- The owner entry of those pages. -/
def tableOwner : PageOwner :=
  { world := 2, inst := 0, read := true, write := true, exec := false, atomic := false, user := false, dma := false,
    defColour := 0, tagged := false, anyInst := false, kind := 6 }

/-- The owner entry of a page reserved to the unit, of a kind. -/
def reservedOwner (kind : Nat) : PageOwner :=
  { world := 3, inst := 0, read := true, write := true, exec := false, atomic := false, user := false, dma := false,
    defColour := 0, tagged := false, anyInst := false, kind := kind }

/-- Pages of the areas reserved to the unit, in the order of Table 07-12: context blocks (R87), spill blocks (R213), hash context store (R194), tree interior (R275); each with its kind (Table 09-5). -/
def reservedAreas : List (Nat × Nat) := [(69632, 3), (262144, 4), (4096, 8), (147456, 9)]

/-- The entries of those areas from a page on (R87, R213; their place is a choice: log 150). -/
def reservedRuns : Nat → List (Nat × Nat) → List (Nat × Nat × PageOwner)
  | _, [] => []
  | page, a :: rest => (page, a.1, reservedOwner a.2) :: reservedRuns (page + a.1) rest

/-- The page owner table the boot ROM leaves: the protection tables and, after them, the areas reserved to the unit (R87, R213, R337). -/
def State.bootPot (s : State) : List (Nat × Nat × PageOwner) :=
  (s.pagedStart, s.tablePages, tableOwner) :: reservedRuns (s.pagedStart + s.tablePages) reservedAreas

/-- The rule over the paged area that each context of an instance is given (R341). -/
def State.wideRule (s : State) : Rule :=
  { en := true, read := true, write := true, exec := true, atomic := true, user := true,
    base := BitVec.ofNat 28 s.pagedStart, limit := BitVec.ofNat 28 (s.usableEnd / 4096 - 1) }

/-- Give an instance's two contexts that rule. -/
def State.grantRules (s : State) (i : Nat) : State :=
  { s with prot := { s.prot with
      rules := s.prot.rules.filter (fun r => !(r.1 == .user false i || r.1 == .user true i)) ++ [(.user false i, 0, s.wideRule), (.user true i, 0, s.wideRule)] } }

/-- Protection as it stands when the monitor has started. -/
def State.bootProt (s : State) : State :=
  let s1 := { s with prot := { s.prot with regions := s.bootRegions, pot := s.bootPot, bootHash := s.life.hollowHash } }
  s1.insts.foldl (fun (t : State) (e : Nat × Inst) => t.grantRules e.1) s1

/-! ## Entropy and DRBGs at a start (R199 to R201) -/

/-- The start-up tests of the sources, before their first output: those that fail are fenced; which test and its count are the sources' own (R199; log 9). -/
def State.bootSources (s : State) (failed : List Nat) : State :=
  failed.foldl (fun (t : State) e =>
    if (elemKind e).1 = 5 ∧ !t.fenced e then
      let (x, t1) := t.take 32
      t1.failSource (Fin.ofNat 4 (elemKind e).2) (x.getLsbD 31) (x.setWidth 31).toNat
    else t) s

/-- The eight instances are instantiated, each from one seed and its own number; without a healthy source they stand stopped (R201, R204). -/
def State.bootDrbg (s : State) : State :=
  (List.finRange 8).foldl (fun (t : State) (i : Fin 8) =>
    if t.healthySources = 0 then t.modDrbg i (fun _ => { stopped := true })
    else
      let (seed, t1) := t.take 384
      t1.modDrbg i (fun _ => { work := some (Drbg.seeded {} i seed), reseededAt := t1.frame.num })) s

/-! ## The start (R530, R531) -/

/-- Instance 0 has a label and a bench from the first start on (R248, R295). -/
def State.bootManager (s : State) : State :=
  match s.inst 0 with
  | none => s
  | some x =>
    if x.label ≠ [] then s
    else
      let (d, s1) := s.takeBytes 24
      let label := labelOf 0 s1.epoch d
      s1.modInst 0 (fun (y : Inst) => { y with label := label, dir := benchDir (benchNode (labelDigest label) .derived []) })

/-- READY: the frame tick starts. A unit that holds a pairing record waits, silent, until it rejoins (R395, R531). -/
def State.readyUp (s : State) : State :=
  let (ms, s1) := s.take 16
  let paired := s1.inPair
  { s1 with
    frame := { s1.frame with ticking := true, cycle := 11920 }
    quarry := { s1.quarry with ownerKeys := s1.quarry.l2.isSome && decide (s1.quarry.durable.1 = 0) }
    twin := { s1.twin with silent := paired, state := if paired then .silent else .unpaired }
    power := { s1.power with run := .running, ready := true, faultN := false, startMs := ms.toNat } }

/-- From the verified images to READY. -/
def State.startWorlds (s : State) : State :=
  match s.chooseImage 1 with
  | (none, s1) => s1.stopBoot 3
  | (some (f, slot), s1) =>
    match s1.bootHollow f slot with
    | none => s1.stopBoot 3
    | some s2 =>
      match s2.chooseImage 2 with
      | (none, s3) => s3.stopBoot 3
      | (some (g, slot2), s3) =>
        let s4 := s3.bootPlain g slot2
        if s4.host.mem.2.2.2 then s4.stopBoot 4
        else s4.bootManager.refreshManager.bootProt.readyUp

/-- The measurement of the Hollow image a transition wraps L2 for: that of the running image, or of the one this start chooses (Table 11-4, R429). -/
def State.knowHash (s : State) : State :=
  if s.life.hollowHash.isSome then s
  else match s.chooseImage 1 with
    | (some (f, _), s1) => { s1 with life := { s1.life with hollowHash := some f.hash } }
    | (none, s1) => s1

/-- From the tamper check on; a transition completed here restarts the unit (R418, R419, R439). -/
def State.bootOn (s : State) : Nat → State
  | 0 => s
  | n + 1 =>
    let s1 := s.readLatch
    match s1.openRecord with
    | some r =>
      if (s1.recordOf r).1 = 7 then (s1.resume r).stopBoot 5
      else if (s1.recordOf r).1 ≠ 5 ∧ s1.tampered then s1.stopBoot 1
      else
        let s2 := s1.bootDrbg.knowHash
        if s2.life.hollowHash.isNone then s2.stopBoot 3 else State.bootOn ((s2.resume r).flushed.fresh) n
    | none => if s1.tampered then s1.stopBoot 1 else s1.bootDrbg.startWorlds

/-- An open SCRAP record (R443). -/
def State.openScrap (s : State) : Option Nat := (List.range 64).find? (fun n => (s.tlog n).1.toNat % 256 == 7 && (s.tlog n).2.2 == 0)

/-- The OTP copies that disagree with the majority: word, bank, is the copy repaired; each is counted and event 0x8006 names it (R413). -/
def State.readOtp (s : State) (otp : List (Nat × Nat × Bool)) : State :=
  otp.foldl (fun (t : State) e =>
    ({ t with life := { t.life with corrected := min (t.life.corrected + 1) 0xFFFF } }).raise 0x8006 true e.1 e.2.1 (if e.2.2 then 1 else 2)) s

/-- Start-up from the release of cold reset (Table 14-9), with what the OTP read and the sources' start-up tests find. -/
def State.startUp (s : State) (otp : List (Nat × Nat × Bool)) (kat : List Nat) : State :=
  let s1 := (s.fresh.readOtp otp).latchLcs
  match s1.life.otp.faultOf with
  | some (p1, p2) => (({ s1 with life := { s1.life with fault := true } }).raise 0x8007 true p1 p2 0).stopBoot 2
  | none =>
    match s1.life.otp.lcs with
    | .raw => s1.stopBoot 0
    | .tested => s1.stopBoot 0
    | .scrapped => (match s1.openScrap with
      | some n => (s1.resume n).stopBoot 5
      | none => s1.stopBoot 5)
    | _ => (s1.bootSources kat).bootOn 4

/-! ## The power-fail sequence (Table 10-9, R513 to R522) -/

/-- Everything that holds no power any more: links, passes, sessions of the ports. -/
def State.linksDown (s : State) : State :=
  { s with
    twin := { s.twin with up := false, keyed := false, kept := [], parts := [], nonces := (none, none) }
    passes := { s.passes with a := { s.passes.a with up := false, healthy := false }, b := { s.passes.b with up := false, healthy := false } }
    host := { s.host with ports := s.host.ports.map (fun (p : Port) => { p with up := false }), waiting := [] } }

/-- The unit is quiescent, or in cold reset where RESET_N or PWR_GOOD is low. -/
def State.quiescent (s : State) : State :=
  { s with
    jobs := []
    frame := { s.frame with ticking := false }
    power := { s.power with
      run := if s.power.resetN && s.power.pwrGood then .quiescent else .coldReset
      ready := false, fail := none, syncOut := false, faultN := true, holdover := false, holdoverAt := none } }

/-- The sequence of frame P + 1: work aborted, keys and states zeroed, the checkpoint of P and the silent marker sent in a pair, Strata, counts and frame number flushed to MRAM, event 0x0201 (Table 10-9). -/
def State.powerFail (s : State) (p trigger cycle : Nat) : State :=
  let s1 := s.zeroEngines.zeroKeys
  let s2 := if s1.inPair then
      ((s1.twin.sent.filter (fun c => c.frame == p)).foldl (fun (t : State) (c : Checkpoint) => t.sendTwin 2 (.body c.frame c.digest c.records)) s1).sendTwin 3 (.silent 7)
    else s1
  let (us, s3) := s2.take 32
  let s4 := (s3.endFreezeOf 4).raise 0x0201 false trigger cycle us.toNat
  let s5 := s4.passRecords s4.strata.buffer.length
  let s6 := { s5 with
    strata := { s5.strata with stored := some (s5.strata.seconds, s5.frame.num) }
    twin := { s5.twin with unserved := s5.twin.unserved || (s5.inPair && !s5.isPaired) } }
  s6.linksDown.quiescent

/-- A trigger of the power-fail sequence: 1 an input, 2 a detector. The first counts; where no frames run the unit is quiescent at once (Table 14-8). -/
def State.trigger (s : State) (kind : Nat) : State :=
  match s.power.run with
  | .running | .halted =>
    if s.twin.silent then s.powerFail s.frame.num kind s.frame.cycle
    else if !s.ticks then (s.zeroEngines.zeroKeys).linksDown.quiescent
    else if s.power.fail.isSome then s
    else { s with power := { s.power with fail := some (s.frame.num, kind, s.frame.cycle) } }
  | .stopped => (s.zeroEngines.zeroKeys).linksDown.quiescent
  | .quiescent => if s.power.resetN && s.power.pwrGood then s else { s with power := { s.power with run := .coldReset } }
  | _ => s

/-! ## The tamper response (Table 11-10) -/

/-- The first row: secret and check word zeroed, the battery latch written. -/
def State.latchTamper (s : State) (code : Nat) : State :=
  { s with life := { s.life with bbram := 0, check := .invalid, latch := some (code, s.life.batSeconds), burnt := false } }

/-- The whole response on main power: keys, SRAM and DRAM lost, TAMPER_CNT burnt in OWNED, the unit halted until its next start; nothing goes to MRAM (R448). -/
def State.tamperResponse (s : State) (code : Nat) : State :=
  let s1 := (s.latchTamper code).zeroEngines.zeroKeys.linksDown
  let s2 := if s1.isOwned then (s1.modOtp (fun o => { o with tamperCnt := burnNext o.tamperCnt })) else s1
  let s3 := { s2 with
    mem := s2.mem.filter (fun (c : Host.Cell) => decide (0x8000000000 ≤ c.1) && decide (c.1 < 0x8004000000))
    jobs := []
    strata := { s2.strata with side := [], sideFull := [], buffer := [], frozen := none }
    life := { s2.life with lastTamper := (code, s.life.batSeconds), burnt := s.isOwned }
    passes := { s2.passes with
      a := { s2.passes.a with txSa := Vector.replicate 4 none, txAn := none, rxSa := [] }
      b := { s2.passes.b with txSa := Vector.replicate 4 none, txAn := none, rxSa := [] } }
    frame := { s2.frame with ticking := false }
    power := { s2.power with run := .stopped, halt := 1, fail := none, syncOut := false, faultN := true } }
  (s3.raise 0x8010 true code s.life.batSeconds 1).latchLcs

end Sys2Proof.Machine
end

