-- ==== Sys2Proof/Machine/LifeCycle.lean ====
section
/-! DEFINITION. Life-cycle transitions and attestation: requests, their checks and their steps (R411 to R425, R442 to R444). -/

namespace Sys2Proof.Machine

/-! ## Attestation (R422 to R425) -/

/-- ATTEST (R425). -/
def execAttest (rq : Req) (user : Bytes) (outAddr : Word) (outLen : Nat) (s : State) : Host.Outcome State Fault Refusal :=
  ok (s.request rq 0x30 true (fun t =>
    let n := srcInst rq.src
    let prog := leNat (user.take 2)
    if prog ≠ 0 ∧ (t.program n prog).isNone then t.answer rq 0x30 St.programUnknown
    else if outLen < 2884 then t.answer rq 0x30 St.lengthInvalid
    else match t.attest n prog ((user.drop 4).take 24) (if prog = 0 then 0 else t.measureOfProgram n prog) with
      | none => t.answer rq 0x30 St.keyUseExhausted
      | some (b, u) => (u.hostWrite n outAddr b).answer rq 0x30 St.ok))

/-- ATTEST_CERT (R422). -/
def execAttestCert (rq : Req) (cert : OwnerCert) (s : State) : Host.Outcome State Fault Refusal :=
  ok (s.request rq 0xDA true (fun t =>
    match t.life.trees.toArray[cert.tree]? with
    | none => t.answer rq 0xDA St.authFail
    | some x =>
      if cert.epoch ≠ t.epoch ∨ padTo 68 cert.pub ≠ padTo 68 x.pub ∨ !t.ownerSigned cert then t.answer rq 0xDA St.authFail
      else
        ((t.modTree cert.tree (fun y => { y with cert := some (ownerCertBytes cert ++ cert.sig) })).raise 0x8040 true cert.tree 2 0).answer rq 0xDA St.ok))

/-- Frames a tree takes to generate: 180 ms (R423). -/
def treeFrames : Nat := 18000

/-- ATTEST_TREE (R423). -/
def execAttestTree (rq : Req) (outAddr : Word) (outLen : Nat) (s : State) : Host.Outcome State Fault Refusal :=
  ok (s.request rq 0xDB true (fun t =>
    if !t.isOwned then t.answer rq 0xDB St.descInvalid
    else if outLen < 68 then t.answer rq 0xDB St.lengthInvalid
    else if 16 ≤ t.life.trees.length + t.life.treeGen.length then t.answer rq 0xDB St.quota
    else
      let from_ := (t.life.treeGen.getLast?).elim t.frame.num (fun g => g.2.2.2)
      { t with life := { t.life with treeGen := t.life.treeGen ++ [(replyTo rq, rq.tag, outAddr, from_ + treeFrames)] } }))

/-- A tree whose generation is done: event 0x8040, its public key at OUT_ADDR, its number in the reply. -/
def State.finishTree (s : State) : State :=
  match s.life.treeGen with
  | [] => s
  | (d, tag, addr, f) :: rest =>
    if s.frame.num < f then s
    else
      let n := s.life.trees.length
      let s1 := State.newTree { s with life := { s.life with treeGen := rest } }
      (s1.hostWrite (destInst d) addr (padTo 68 ((s1.life.trees.getLast?).elim [] (fun (t : Tree) => t.pub)))).reply d 0xDB St.ok tag (leBytes 1 n)

/-- LC_STATUS (R444). -/
def execLcStatus (rq : Req) (s : State) : Host.Outcome State Fault Refusal :=
  ok (s.request rq 0xD0 false (fun t =>
    let r (off : Nat) : Bytes := leBytes 4 (t.reg off).toNat
    t.reply (replyTo rq) 0xD0 St.ok rq.tag (r 0x500000 ++ r 0x500008 ++ r 0x50001C)))

/-! ## What a transition needs (R412, R416, Table 11-2) -/

/-- The state allows the transition: COMMISSION 3, DECOMMISSION 4, RECOVER 5, RETURN 6; a paired unit takes none of them, but a TAMPERED unit is no longer paired. -/
def State.transAllowed (s : State) (code : Nat) : Bool :=
  (!s.inPair || s.tampered) && s.life.trans.isNone && (match code, s.life.otp.lcs with
    | 3, .sealed => true
    | 3, .released e => decide (e < 15)
    | 4, .owned _ => true
    | 5, .owned _ => s.tampered
    | 6, .sealed => true
    | 6, .released _ => true
    | _, _ => false)

/-- The epoch a transition is for. -/
def State.transEpoch (s : State) (code : Nat) : Nat :=
  match code, s.life.otp.lcs with
  | 3, .released e => e + 1
  | _, _ => s.epoch

/-- A transition whose authorisation has passed commits at order 1 of the next frame; where no frames run it commits at once (R419). -/
def State.commitTransition (s : State) : State :=
  match s.life.trans with
  | none => s
  | some t =>
    if t.committed then s
    else match s.freeRecord false with
      | none => s
      | some n =>
        let s1 := { s with life := { s.life with trans := some { t with committed := true } } }
        (s1.squashAll (fun _ => true) St.deviceHalted (fun _ => 0) false).beginRecord n t.code t.epoch

/-- Stage a transition. -/
def State.stageTransition (s : State) (rq : Req) (code : Nat) (r : Option CommRecord) (nonce : Bytes) : State :=
  let t : Transition := { code := code, epoch := s.transEpoch code, record := r, dest := some (replyTo rq, rq.tag), nonce := nonce }
  let s1 := { s with life := { s.life with trans := some t } }
  if s1.ticks then s1.stage .transition else s1.commitTransition

/-- The checks every transition shares come before its authorisation: the state, then the records (R412, R416). -/
def State.askTransition (s : State) (rq : Req) (mtype code : Nat) (k : State → State) : State :=
  if !s.transAllowed code then s.answer rq mtype St.descInvalid
  else if (s.freeRecord false).isNone then s.answer rq mtype St.quota
  else k s

/-! ## COMMISSION (R420, Table 11-5) -/

/-- The bytes of a commissioning record. -/
def commBytes (r : CommRecord) : Bytes :=
  leBytes 4 r.magic.toNat ++ leBytes 1 r.n ++ leBytes 1 r.q3 ++ leBytes 1 r.q4 ++ leBytes 1 r.ockAlg ++ leBytes 1 r.inputEn.toNat ++
  leBytes 1 r.polarity.toNat ++ leBytes 2 r.meshEn.toNat ++ zeros 4 ++ padTo 1952 r.ock ++
  r.custodians.flatMap (fun c => leBytes 1 c.1 ++ zeros 7 ++ padTo 1952 c.2)

/-- A record the first two checks pass. -/
def commGood (r : CommRecord) : Bool :=
  !r.rsv && r.magic == 0x434D5231 && decide (3 ≤ r.n) && decide (r.n ≤ 16) && decide (2 ≤ r.q3) && decide (r.q3 ≤ r.n) &&
  decide (3 ≤ r.q4) && decide (r.q4 ≤ r.n) && decide (r.q3 ≤ r.q4) && r.custodians.length == r.n &&
  (r.ockAlg == 1 || r.ockAlg == 2) && r.custodians.all (fun c => c.1 == 1 || c.1 == 2)

/-- Every custodian being registered signs the record under this challenge. -/
def proved (r : CommRecord) (proofs : List SigEntry) (c : BitVec 128) : Bool :=
  let m := ascii "WL9640 COMMISSION" ++ leBytes 16 c.toNat ++ leBytes 32 (Config.sha3 (commBytes r)).toNat
  r.custodians.zipIdx.all (fun (e : (Nat × Bytes) × Nat) =>
    proofs.any (fun p => p.index == e.2 && p.alg == e.1.1 && Config.verify e.1.1 e.1.2 m p.sig)) &&
  proofs.all (fun p => decide (p.index < r.n))

/-- COMMISSION (R420). -/
def execCommission (rq : Req) (rec : CommRecord) (proofs : List SigEntry) (s : State) : Host.Outcome State Fault Refusal :=
  ok (s.request rq 0xD1 true (fun t =>
    t.askTransition rq 0xD1 3 (fun u =>
      if !commGood rec then u.answer rq 0xD1 St.descInvalid
      else match u.liveChallenges.find? (fun c => proved rec proofs c.1) with
        | none => u.answer rq 0xD1 St.authFail
        | some (c, _) => (u.spendChallenge c).stageTransition rq 3 (some rec) (leBytes 16 c.toNat ++ zeros 8))))

/-- DECOMMISSION (R412). -/
def execDecommission (rq : Req) (token : Token) (s : State) : Host.Outcome State Fault Refusal :=
  ok (s.request rq 0xD2 true (fun t =>
    t.askTransition rq 0xD2 4 (fun u => u.withToken rq 0xD2 4 (u.threshold 4) token [] [] (fun v => v.stageTransition rq 4 none []))))

/-- RECOVER (R442). -/
def execRecover (rq : Req) (token : Token) (s : State) : Host.Outcome State Fault Refusal :=
  ok (s.request rq 0xD3 true (fun t =>
    t.askTransition rq 0xD3 5 (fun u => u.withToken rq 0xD3 4 (u.threshold 4) token [] [] (fun v => v.stageTransition rq 5 none []))))

/-! ## RETURN and SCRAP (R412, R443, Table 11-12) -/

/-- A C4 token, where a custodian register exists; without one nothing is asked. -/
def State.withC4 (s : State) (rq : Req) (mtype : Nat) (token : Option Token) (ext : Bytes) (k : State → State) : State :=
  if s.quarry.custodians = [] then k s
  else match token with
    | none => s.answer rq mtype St.quorumMissing
    | some t => s.withToken rq mtype 4 (s.threshold 4) t [] ext k

/-- A vendor block signs a message from a slot of use 2 in force (R434, R435). -/
def State.vendorGood (s : State) (v : VendorBlock) (message : Bytes) : Bool :=
  s.vendorKey v.slot 2 v.pub && Config.verify algVendor v.pub message v.sig

/-- The bytes of a vendor block (R434). -/
def vendorBytes (v : VendorBlock) : Bytes := leBytes 1 v.slot ++ zeros 3 ++ leBytes 4 v.sig.length ++ v.pub ++ v.sig

/-- RETURN (R412). -/
def execReturnUnit (rq : Req) (vendor : VendorBlock) (challenge : BitVec 128) (token : Option Token) (s : State) : Host.Outcome State Fault Refusal :=
  ok (s.request rq 0xD4 true (fun t =>
    if vendor.rsv then t.answer rq 0xD4 St.descInvalid
    else t.askTransition rq 0xD4 6 (fun u =>
      if !u.challengeLive challenge then u.answer rq 0xD4 St.authFail
      else u.withC4 rq 0xD4 token (vendorBytes vendor) (fun v =>
        let w := v.spendChallenge challenge
        if !w.vendorGood vendor (ascii "WL9640 RETURN" ++ leBytes 16 challenge.toNat) then w.answer rq 0xD4 St.authFail
        else w.stageTransition rq 6 none []))))

/-- A reply written at once, since the unit stops or restarts (R421, R433, R443). -/
def State.answerNow (s : State) (d : Dest) (mtype : Nat) (tag : BitVec 16) (body : Bytes) : State :=
  let r : Reply := { dest := d, mtype := mtype, status := 0, tag := tag, body := body, due := s.frame.num }
  if s.canWrite r then s.writeReply r else s

/-- SCRAP wipes the unit: every step at once, then the boot ROM stops (R35, R412, R417, R443). -/
def State.scrapNow (s : State) : State :=
  let n := (s.freeRecord true).getD 63
  let s1 := (s.squashAll (fun _ => true) St.deviceHalted (fun _ => 0) false).zeroEngines.zeroKeys.linksDown
  let s2 := ((s1.beginRecord n 7 s1.epoch).runRecord n 1 none).stopBoot 5
  { s2 with
    jobs := []
    frame := { s2.frame with ticking := false }
    power := { s2.power with ready := false, syncOut := false }
    life := { s2.life with trans := none } }

/-- SCRAP (R443). -/
def execScrap (rq : Req) (echo : BitVec 128) (token : Option Token) (s : State) : Host.Outcome State Fault Refusal :=
  ok (s.request rq 0xD5 true (fun t =>
    if !t.challengeLive echo then t.answer rq 0xD5 St.authFail
    else t.withC4 rq 0xD5 token (leBytes 16 echo.toNat) (fun u =>
      ((u.spendChallenge echo).answerNow (replyTo rq) 0xD5 rq.tag []).scrapNow)))

/-! ## The steps of a committed transition (R419 to R421) -/

/-- The body of the reply to a COMMISSION: the public key of tree 0 and its statement, signed with leaf 0 (R421). -/
def State.commissionReply (s : State) (nonce : Bytes) : Bytes × State :=
  match s.life.trees.head? with
  | none => ([], s)
  | some t =>
    let b := s.statement 0 0 0 nonce 0
    (zeros 48 ++ padTo 68 t.pub ++ b ++ padTo 2692 (Config.treeSign t.secret t.next b), s.useLeaf 0 t)

/-- The steps run, the reply is released, the unit restarts. -/
def State.runTransition (s : State) (t : Transition) (n : Nat) : State :=
  let s1 := (s.knowHash.runRecord n 1 t.record).thenCommission t.code
  let (body, s2) := if t.code = 3 then s1.commissionReply t.nonce else ([], s1)
  let s3 := match t.dest with
    | some (d, tag) => s2.answerNow d (if t.code = 3 then 0xD1 else if t.code = 4 then 0xD2 else if t.code = 5 then 0xD3 else 0xD4) tag body
    | none => s2
  ({ s3 with life := { s3.life with trans := none } }).flushed.startUp [] []

/-- TRANSITION_RUN (R419). -/
def execTransitionRun (s : State) : Host.Outcome State Fault Refusal :=
  ok (match s.life.trans, s.openRecord with
      | some t, some n => if t.committed ∧ s.jobs = [] then s.runTransition t n else s
      | _, _ => s)

/-! ## TEST and SEAL (Table 11-2, Table 11-4, R508, R535) -/

/-- Factory test is open: the unit stands in the boot ROM as RAW or TESTED, and the command comes with TEST_EN high. -/
def State.factory (s : State) (l : Lcs) : Bool := decide (s.power.run = .stopped) && !s.life.fault && decide (s.life.otp.lcs = l)

/-- TEST (R412). -/
def execTestUnit (trim : List (BitVec 32)) (s : State) : Host.Outcome State Fault Refusal :=
  ok (if !s.factory .raw then s
      else
        let n := (s.freeRecord false).getD 0
        let s1 := ({ s with power := { s.power with testEn := true } }).beginRecord n 1 0
        let s2 := s1.modOtp (fun o => { o with trim := Vector.ofFn (fun (k : Fin 64) => trim.getD k.val 0), lcBase := o.lcBase ||| 1 })
        ((s2.markStep n 1 0 none 1).endRecord n 1).latchLcs)

/-- The vendor key slots as SEAL burns them. -/
def Otp.burnKeys (o : Otp) (keys : List (Nat × Dig × BitVec 4)) : Otp :=
  keys.foldl (fun (o : Otp) k =>
    if h : k.1 < 8 then { o with vkeyHash := o.vkeyHash.set k.1 k.2.1 h, vkeyUse := o.vkeyUse.set k.1 k.2.2 h } else o) o

/-- SEAL (R412). -/
def execSealUnit (keys : List (Nat × Dig × BitVec 4)) (s : State) : Host.Outcome State Fault Refusal :=
  ok (if !s.factory .tested then s
      else
        let n := (s.freeRecord false).getD 1
        let s1 := ({ s with power := { s.power with testEn := true } }).beginRecord n 2 0
        let (seed, s2) := s1.take 256
        let s3 := State.markStep n 2 0 none (s2.modOtp (fun o => { o with l0Seed := seed })) 1
        let s4 := State.markStep n 2 0 none (s3.modOtp (fun o => o.burnKeys keys)) 2
        let s5 := State.markStep n 2 0 none (s4.burnBase 1) 3
        ((s5.wipeSecret).endRecord n 2).latchLcs)

end Sys2Proof.Machine
end

