-- ==== Sys2Proof/Machine/Package.lean ====
section
/-! DEFINITION. The migration package: what travels, how it is sealed and opened (R320 to R323). -/

namespace Sys2Proof.Config

/-- The body of a migration package as bytes: the spec lists what it carries and gives no layout (R322; free value, log 9). -/
opaque migBody (x : Sys2Proof.Machine.Inst) : Bytes

/-- What a package body carries, none where it is not one (R322, R323; log 9). -/
opaque migOpen (b : Bytes) : Option Sys2Proof.Machine.Inst

end Sys2Proof.Config

namespace Sys2Proof.Machine

/-! ## What travels (R322) -/

/-- A node travels: its EXPORT bit [3] is set, or it lies on the path to one whose bit is. -/
def State.travels (s : State) (i : Nat) (dir : Table DirEntry) (idx : Nat) : Bool :=
  dir.any (fun (e : Nat × DirEntry) => e.2.node.elim false (fun n => n.exportBits.getLsbD 3) && s.below i idx e.1)

/-- A node as carried: its reservations move past every block the source reserved. -/
def carriedNode (n : Node) : Node :=
  { n with useBlk := 0, invCur := none, asked := none, askedUse := none, leaf := (0, 0) }

/-- A directory entry as carried; an index that does not travel is FREE with its last GENERATION. -/
def State.carriedEntry (s : State) (i : Nat) (dir : Table DirEntry) (e : Nat × DirEntry) : Nat × DirEntry :=
  if e.1 = 0 then (0, { e.2 with node := e.2.node.map (fun n => { n with origin := .carried, material := s.benchKey i }), shadows := [] })
  else if s.travels i dir e.1 then (e.1, { e.2 with node := e.2.node.map carriedNode, shadows := [] })
  else (e.1, { state := if e.2.state = .dead then .dead else .free, lastGen := e.2.lastGen, node := none, shadows := [] })

/-- A queue pair as carried: configuration, indices, PHASE, the kept doorbell values. -/
def carriedPair (q : QPair) : QPair :=
  { q with fetched := [], ready := 0, fetching := 0, cancels := [], cancelsNow := [], inflight := 0, unsignalled := 0, oldest := none, fullSince := none }

/-- Slots a directory's nodes take, the bench apart. -/
def dirSlots (dir : Table DirEntry) : Nat :=
  ((dir.filter (fun (e : Nat × DirEntry) => e.1 != 0)).map (fun (e : Nat × DirEntry) => e.2.node.elim 0 (fun n => slotsOf n.material))).sum

/-- The body of a package, as an instance that holds what travels. -/
def State.packInst (s : State) (i : Nat) (x : Inst) : Inst :=
  let dir := x.dir.map (s.carriedEntry i x.dir)
  { share := x.share, label := x.label, dir := dir, binds := x.binds, progs := x.progs, maps := x.maps, tables := x.tables
    qs := x.qs.map carriedPair
    reqTail := x.reqTail, reqLatched := x.reqLatched, reqHead := x.reqHead, rspTail := x.rspTail, rspHead := x.rspHead
    slotsUsed := dirSlots dir + (x.progs.map (fun e => e.2.slots)).sum }

/-! ## Sealing (Table 08-11) -/

/-- Bytes of body in a chunk. -/
def chunkSize : Nat := 1048576

/-- The chunks of a body. -/
def chunksOf (b : Bytes) : List Bytes := (List.range ((b.length + chunkSize - 1) / chunkSize)).map (fun k => (b.drop (k * chunkSize)).take chunkSize)

/-- The clear header of a package. -/
def packHeader (inst pers : Nat) (encapKey : Bytes) (bodyLen chunks frame : Nat) : Bytes :=
  leBytes 4 0x4D494731 ++ leBytes 2 1 ++ leBytes 2 inst ++ leBytes 1 pers ++ zeros 7 ++ leBytes 32 (Config.sha3 encapKey).toNat ++
  leBytes 8 bodyLen ++ leBytes 4 chunks ++ zeros 4 ++ leBytes 8 frame ++ zeros 56

/-- The key that seals the chunks. -/
def packKey (shared header : Bytes) : Bytes := kmac256 shared (leBytes 32 (Config.sha3 header).toNat) 32 (ascii "WL9640 MIG")

/-- The IV of a chunk: its number and 4 zero bytes. -/
def chunkIv (k : Nat) : Bytes := leBytes 8 k ++ zeros 4

/-- A sealed chunk and its tag. -/
def sealChunk (key header : Bytes) (k : Nat) (b : Bytes) : Bytes × Bytes :=
  let r := Config.gcm key (chunkIv k) header b
  (r.1, leBytes 16 r.2.toNat)

/-- What the source's signature covers. -/
def packMessage (header ct : Bytes) (tags : List Bytes) : Bytes := leBytes 32 (Config.sha3 (header ++ ct ++ tags.flatten)).toNat

/-- Make a package: its parts in order, and the state after the leaf is used; none with no certified leaf left. -/
def State.makePackage (s : State) (i : Nat) (x : Inst) (encapKey : Bytes) : Option (List Bytes × State) :=
  let r := s.takeRandom 32
  let enc := Config.kemEncap encapKey r.1
  let body := Config.migBody (s.packInst i x)
  let chunks := chunksOf body
  let header := packHeader i x.share.personality encapKey body.length chunks.length s.frame.num
  let key := packKey enc.2 header
  let sealedChunks := chunks.zipIdx.map (fun c => sealChunk key header c.2 c.1)
  (r.2.attSign (packMessage header enc.1 (sealedChunks.map (·.2)))).map (fun g =>
    ([header ++ enc.1] ++ sealedChunks.map (fun c => c.1 ++ c.2) ++
      [g.1 ++ ((g.2.2.life.trees.toArray[g.2.1]?).bind (fun (t : Tree) => t.cert)).getD []], g.2.2))

/-! ## Opening (R323) -/

/-- An owner certificate read from its bytes (R422). -/
def parseCert (b : Bytes) : OwnerCert :=
  let f (o n : Nat) : Nat := leNat ((b.drop o).take n)
  { epoch := f 4 1, tree := f 5 1, alg := f 6 1, pub := (b.drop 16).take 68, sig := (b.drop 88).take (f 8 4)
    rsv := f 0 4 != 0x4F435231 || f 7 1 != 0 || f 12 4 != 0 || f 84 4 != 0 || b.length != 88 + f 8 4 }

/-- Open the chunks of a package in turn: the body and the tags, none at the first tag that fails. -/
def openChunks (key header : Bytes) : Nat → Nat → Bytes → Option (Bytes × List Bytes)
  | 0, _, _ => some ([], [])
  | n + 1, k, b =>
    let m := if n = 0 then b.length - 16 else chunkSize
    match Config.gcmInv key (chunkIv k) header (b.take m) (BitVec.ofNat 128 (leNat ((b.drop m).take 16))) with
    | none => none
    | some p => (openChunks key header n (k + 1) (b.drop (m + 16))).map (fun r => (p ++ r.1, (b.drop m).take 16 :: r.2))

/-- Open a package: what it carries and the kept key it was made for; none where any check fails. -/
def State.openPackage (s : State) (b : Bytes) : Option (Inst × TargetKey) :=
  let f (o n : Nat) : Nat := leNat ((b.drop o).take n)
  let header := b.take 128
  let ct := (b.drop 128).take 1568
  let bodyLen := f 48 8
  let n := f 56 4
  let sealedLen := bodyLen + 16 * n
  if f 0 4 != 0x4D494731 || f 4 2 != 1 || n != (bodyLen + chunkSize - 1) / chunkSize || decide (b.length < 1696 + sealedLen + 2692 + 88) then none
  else match s.mail.targets.find? (fun (t : TargetKey) => (Config.sha3 t.encap).toNat == f 16 32) with
    | none => none
    | some t =>
      match openChunks (packKey (Config.kemDecap t.decap ct) header) header n 0 ((b.drop 1696).take sealedLen) with
      | none => none
      | some (body, tags) =>
        let trailer := b.drop (1696 + sealedLen)
        if s.certGood (parseCert (trailer.drop 2692)) (packMessage header ct tags) (trailer.take 2692) then (Config.migOpen body).map (fun x => (x, t))
        else none

end Sys2Proof.Machine
end

