-- ==== Sys2Proof/Machine/Journal.lean ====
section
/-! DEFINITION. The journal of the key store: its ring, durability, snapshots and restore (R279 to R285). -/

namespace Sys2Proof.Machine

/-! ## JRNL_SET and JRNL_STAT (R284, R285) -/

/-- JRNL_SET (R285). -/
def execJrnlSet (rq : Req) (base : Word) (j : Nat) (en : Bool) (s : State) : Host.Outcome State Fault Refusal :=
  ok (s.request rq 0xA0 false (fun t =>
    let r := t.quarry.ring
    if j < 12 ∨ 24 < j ∨ base.toNat % 4096 ≠ 0 then t.answer rq 0xA0 St.descInvalid
    else if t.quarry.written ≠ [] ∧ (base ≠ r.1 ∨ j ≠ r.2.1) then t.answer rq 0xA0 St.descInvalid
    else t.stage (.jrnlSet base j en (replyTo rq) rq.tag)))

/-- The next SEQ to be written to the ring (R285). -/
def State.nextWritten (s : State) : Nat := match s.quarry.staging with | e :: _ => e.seq | [] => s.quarry.seq

/-- JRNL_STAT (R285). -/
def execJrnlStat (rq : Req) (s : State) : Host.Outcome State Fault Refusal :=
  ok (s.request rq 0xA3 false (fun t =>
    let q := t.quarry
    t.reply (replyTo rq) 0xA3 St.ok rq.tag (leBytes 8 t.nextWritten ++ leBytes 8 q.durable.1 ++ leBytes 4 q.staging.length ++
      leBytes 4 ((if q.restore.isSome then 1 else 0) + (if q.ownerKeys then 2 else 0)) ++
      leBytes 8 ((q.anchors.getD 0 (0, 0)).1) ++ leBytes 8 ((q.anchors.getD 1 (0, 0)).1))))

/-! ## Durability (R280 to R282, R285) -/

/-- The CHAIN the unit wrote for a SEQ, from the durable one to the last written. -/
def State.chainAt (s : State) (seq : Nat) : Option (BitVec 128) :=
  if seq = s.quarry.durable.1 then some s.quarry.durable.2
  else (s.quarry.written.find? (fun (e : Staged) => e.seq == seq)).map (fun (e : Staged) => e.chain)

/-- An entry of the reservation log is covered by a record written after it (R281). -/
def covered (entries : List Staged) (r : ResEntry) : Bool :=
  entries.any (fun (e : Staged) => (e.kind == jRecord || e.kind == jFull) && e.inst == r.inst && e.node == r.node && decide (r.seq ≤ e.seq))

/-- Entries up to a SEQ are durable: ring slots and log entries are free, a durable snapshot is anchored (R281, R282, R285). -/
def State.makeDurable (s : State) (seq : Nat) (chain : BitVec 128) : State :=
  let q := s.quarry
  let now := q.written.filter (fun (e : Staged) => decide (e.seq ≤ seq))
  let snaps := q.snapEnds.filter (fun n => decide (n.2.2 ≤ seq))
  let anchors := q.anchors ++ snaps.map (fun n => (n.1, n.2.1))
  { s with quarry := { q with
      durable := (seq, chain)
      written := q.written.filter (fun (e : Staged) => decide (seq < e.seq))
      resLog := q.resLog.filter (fun r => !covered now r)
      snapEnds := q.snapEnds.filter (fun n => decide (seq < n.2.2))
      anchors := anchors.drop (anchors.length - 2) } }

/-- JRNL_DURABLE (R285). -/
def execJrnlDurable (rq : Req) (seq : Nat) (chain : BitVec 128) (s : State) : Host.Outcome State Fault Refusal :=
  ok (s.request rq 0xA1 false (fun t =>
    if seq < t.quarry.durable.1 ∨ t.chainAt seq ≠ some chain then t.answer rq 0xA1 St.authFail
    else (t.makeDurable seq chain).answer rq 0xA1 St.ok))

/-! ## Writing the ring (R280, R284) -/

/-- Entries that may be written now, at most n: the slot's previous entry is durable (R284). -/
def State.writable (s : State) (n : Nat) : List Staged :=
  let lim := s.quarry.durable.1 + 2 ^ s.quarry.ring.2.1
  if !s.quarry.ring.2.2 || !s.functionUp 0 then []
  else (s.quarry.staging.take n).takeWhile (fun (e : Staged) => decide (e.seq ≤ lim))

/-- Write one entry to its slot. -/
def State.writeEntry (s : State) (e : Staged) : State :=
  let r := s.quarry.ring
  s.issueWrite 0 (r.1 + BitVec.ofNat 64 (192 * (e.seq % 2 ^ r.2.1))) e.bytes

/-- Snapshots whose SNAP_END has been written are answered (R285). -/
def State.paySnaps (s : State) (upto : Nat) : State :=
  let due := s.quarry.snapOwed.filter (fun o => decide (o.1 ≤ upto))
  let s1 := { s with quarry := { s.quarry with snapOwed := s.quarry.snapOwed.filter (fun o => decide (upto < o.1)) } }
  due.foldl (fun (t : State) o => t.reply o.2.2.1 0xA2 St.ok o.2.2.2 (leBytes 8 o.2.1 ++ leBytes 8 o.1)) s1

/-- JOURNAL_WRITE (R284). -/
def execJournalWrite (s : State) : Host.Outcome State Fault Refusal :=
  ok (if !s.ticks then s
      else
        let es := s.writable 4096
        match es.getLast? with
        | none => s
        | some e =>
          let s1 := es.foldl (fun (t : State) e => t.writeEntry e) s
          ({ s1 with quarry := { s1.quarry with staging := s1.quarry.staging.drop es.length, written := s1.quarry.written ++ es } }).paySnaps e.seq)

/-! ## Snapshots (R282, R285) -/

/-- What a snapshot writes: every allocated record, then every directory block. -/
def State.snapWork (s : State) : List (Nat × Nat) :=
  (s.insts.flatMap (fun (x : Nat × Inst) => (x.2.dir.filter (fun (e : Nat × DirEntry) => e.2.node.isSome)).map (fun e => (x.1, 2 * e.1)))) ++
  (s.insts.flatMap (fun (x : Nat × Inst) => ((x.2.dir.map (fun (e : Nat × DirEntry) => e.1 / 16 * 16)).eraseDups).map (fun b => (x.1, 2 * b + 1))))

/-- A snapshot begins: SNAP_BEGIN is staged, its work is held (R282). -/
def State.startSnap (s : State) (work : List (Nat × Nat)) : State :=
  let v := s.journal 0 jSnapBegin 0 0 []
  { v with quarry := { v.quarry with snap := some (s.quarry.seq, work), snapChain := v.quarry.chain } }

/-- JRNL_SNAP (R282). -/
def execJrnlSnap (rq : Req) (s : State) : Host.Outcome State Fault Refusal :=
  ok (s.request rq 0xA2 false (fun t =>
    if !t.quarry.ownerKeys then t.answer rq 0xA2 St.keyUnknown
    else
      let u := { t with quarry := { t.quarry with snapAsk := t.quarry.snapAsk ++ [(replyTo rq, rq.tag)] } }
      if u.quarry.snap.isSome then u else u.startSnap u.snapWork))

/-- Stage one piece of a snapshot. -/
def State.snapPiece (s : State) (w : Nat × Nat) : State :=
  if w.2 % 2 = 1 then s.journalDir w.1 (w.2 / 2)
  else if (s.node w.1 (w.2 / 2)).isSome then s.journalFull w.1 (w.2 / 2) else s

/-- Stage pieces while fewer than n entries have been staged since a SEQ and the staging area has room: what is left, and the state. -/
def State.snapSome (s : State) (from_ n : Nat) : List (Nat × Nat) → List (Nat × Nat) × State
  | [] => ([], s)
  | w :: ws =>
    if from_ + n ≤ s.quarry.seq + 32 ∨ stagingSize < s.quarry.staging.length + 33 then (w :: ws, s)
    else State.snapSome (s.snapPiece w) from_ n ws

/-- The running snapshot ends: SNAP_END is staged, its requests wait until it is written. -/
def State.endSnap (s : State) (begin_ : Nat) : State :=
  let e := s.quarry.seq
  let s1 := s.journal 0 jSnapEnd 0 0 []
  let q := s1.quarry
  { s1 with quarry := { q with
      snap := none
      snapAsk := []
      snapOwed := q.snapOwed ++ q.snapAsk.map (fun a => (e, begin_, a.1, a.2))
      snapEnds := q.snapEnds ++ [(begin_, q.snapChain, e)] } }

/-- SNAPSHOT_WRITE (R282). -/
def execSnapshotWrite (s : State) : Host.Outcome State Fault Refusal :=
  ok (if !s.ticks then s
      else match s.quarry.snap with
      | none => s
      | some (b, work) =>
        let r := s.snapSome s.quarry.seq 1024 work
        if r.1 = [] then r.2.endSnap b else { r.2 with quarry := { r.2.quarry with snap := some (b, r.1) } })

/-! ## Restore (R266, R283, R285) -/

/-- An entry's 176 bytes below its CHAIN. -/
def entryBytes (e : JEntry) : Bytes := journalHead e.seq e.frame e.inst e.kind e.part e.node ++ padTo 128 e.body ++ leBytes 16 e.tag.toNat

/-- Open an entry: its body in clear, none where its tag fails. -/
def openEntry (key : Bytes) (role0 : Bool) (e : JEntry) : Option JEntry :=
  (Config.gcmInv key (journalIv e.seq role0) (journalHead e.seq e.frame e.inst e.kind e.part e.node) (padTo 128 e.body) e.tag).map (fun b => { e with body := b })

/-- Check entries in turn from a SEQ and a CHAIN: the last SEQ and CHAIN and the entries opened, none at the first that fails. -/
def checkEntries (key : Bytes) (role0 : Bool) : Nat → BitVec 128 → List JEntry → Option (Nat × BitVec 128 × List JEntry)
  | seq, chain, [] => some (seq, chain, [])
  | seq, chain, e :: es =>
    if e.seq ≠ seq + 1 ∨ chainOf chain (entryBytes e) ≠ e.chain then none
    else match openEntry key role0 e with
      | none => none
      | some o => (checkEntries key role0 e.seq e.chain es).map (fun r => (r.1, r.2.1, o :: r.2.2))

/-- The first entry of a restore begins at an anchor, or at the beginning of the journal while fewer than two snapshots are anchored (R283). -/
def State.anchored (s : State) (partner : Bool) (e : JEntry) : Bool :=
  (e.seq == 1 && chainOf 0 (entryBytes e) == e.chain && (partner || decide (s.quarry.anchors.length < 2))) ||
  (e.kind == jSnapBegin && (partner || s.quarry.anchors.contains (e.seq, e.chain)))

/-- Check the entries of a RESTORE, the first of a sequence by its anchor. -/
def State.checkRestore (s : State) (first partner : Bool) (es : List JEntry) : Option (Nat × BitVec 128 × List JEntry) :=
  let key := s.journalKey (if partner then s.twin.record.elim 0 (·.2.2) else s.quarry.jid)
  let role := if partner then !s.twin.role0 else s.twin.role0
  if first then
    match es with
    | [] => none
    | e :: rest =>
      if !s.anchored partner e then none
      else (openEntry key role e).bind (fun o => (checkEntries key role e.seq e.chain rest).map (fun r => (r.1, r.2.1, o :: r.2.2)))
  else s.quarry.restore.bind (fun p => (checkEntries key role p.1 p.2.1 es).map (fun r => (r.1, r.2.1, p.2.2 ++ r.2.2)))

/-- A node record read from its 64 bytes (Table 07-4). -/
def parseRecord (b : Bytes) : Node :=
  let f (o n : Nat) : Nat := leNat ((b.drop o).take n)
  let w := f 0x10 5
  { labelDig := BitVec.ofNat 128 (f 0 16), parent := w % 2 ^ 34, level := w / 2 ^ 34 % 16
    origin := match w / 2 ^ 38 with | 0 => .derived | 1 => .generated | 2 => .imported | _ => .carried
    ktype := BitVec.ofNat 8 (f 0x15 1)
    state := match f 0x16 2 % 16 with | 1 => .pending | 2 => .active | 3 => .retired | 4 => .revoked | 6 => .exhausted | _ => .erased
    allocGen := f 0x16 2 / 16, gen := f 0x18 4, usage := BitVec.ofNat 16 (f 0x1C 2), policy := BitVec.ofNat 16 (f 0x1E 2)
    useCnt := f 0x20 5, bind := f 0x25 1, invBlk := f 0x28 6, useBlk := f 0x30 1 % 128, ext := f 0x31 1 % 32, created := f 0x38 8
    material := [], pub := [] }

/-- An index state from its code. -/
def indexOf : Nat → IndexState
  | 1 => .allocated | 2 => .dead | _ => .free

/-- The 16 directory entries of a DIR body (Table 07-13). -/
def applyDir (d : Table DirEntry) (b : Nat) (body : Bytes) : Table DirEntry :=
  (List.range 16).foldl (fun (t : Table DirEntry) k =>
    let w := leNat ((body.drop (8 * k)).take 8)
    let e := (tget t (b + k)).getD {}
    if w / 2 ^ 31 = 0 ∧ (tget t (b + k)).isNone then t
    else tset t (b + k) { e with lastGen := w / 2 ^ 31 % 4096, state := indexOf (w / 2 ^ 43 % 16) }) d

/-- Apply one opened entry to a directory; node 0 is the bench and stays (R248, R283). -/
def applyEntry (d : Table DirEntry) (e : JEntry) : Table DirEntry :=
  let old := (tget d e.node).getD {}
  if e.kind = jDir then applyDir d e.node e.body
  else if e.node = 0 then d
  else if e.kind = jRecord then
    let n := parseRecord (e.body.take 64)
    tset d e.node { old with node := some { n with material := old.node.elim [] (fun o => if o.gen = n.gen then o.material else []) } }
  else if e.kind = jFull then
    (if e.part = 0 then tset d e.node { old with node := some { parseRecord (e.body.take 64) with material := e.body.drop 64 } }
     else tset d e.node { old with node := old.node.map (fun n => { n with material := n.material.take (64 + 128 * (e.part - 1)) ++ e.body }) })
  else if e.kind = jFree then tset d e.node { old with node := none }
  else d

/-- The public part a restored node has again (R259). -/
def withPub (n : Node) : Node := { n with pub := if derivable n.ktype then [] else publicPart n.ktype n.material }

/-- The uses left in a block are skipped, a node without uses is EXHAUSTED (R264). -/
def skipBlock (n : Node) : Node :=
  { n with useBlk := 0, invCur := none, asked := none, askedUse := none, leaf := (0, 0)
           state := if n.useLim && n.useCnt == 0 && n.state == .active then .exhausted else n.state }

/-- Advance a node past an entry of the reservation log, which a record that covers it leaves as it is: INV_BLK goes on through every generation since the index was allocated, USE_CNT is of one generation (R266, R268). -/
def pastBlock (n : Node) (r : ResEntry) : Node :=
  if r.uses then (if r.gen = n.gen then { n with useCnt := min n.useCnt r.block } else n)
  else if n.allocGen ≤ r.gen then { n with invBlk := max n.invBlk (r.block + 1) }
  else n

/-- The directory of an instance after the entries of a restore: nodes with EXP_URESET are omitted (R266, R271, R283). -/
def restoreDir (d : Table DirEntry) (inst : Nat) (log : List ResEntry) (es : List JEntry) : Table DirEntry :=
  let mine := es.filter (fun e => e.inst == inst)
  let d1 := mine.foldl applyEntry d
  d1.map (fun (e : Nat × DirEntry) =>
    if e.1 = 0 then e
    else (e.1, { e.2 with node := e.2.node.bind (fun n =>
      if n.expUreset then none
      else some (withPub (skipBlock ((log.filter (fun r => r.inst == inst && r.node == e.1)).foldl pastBlock n)))) }))

/-- An opened entry as one written to the ring. -/
def asWritten (e : JEntry) : Staged :=
  { seq := e.seq, frame := e.frame, inst := e.inst, kind := e.kind, node := e.node, chain := e.chain, bytes := entryBytes e ++ leBytes 16 e.chain.toNat }

/-- A restore that has passed its checks: the store is rebuilt, the journal goes on from its last entry, owner keys are available (R283). -/
def State.applyRestore (s : State) (seq : Nat) (chain : BitVec 128) (es : List JEntry) : State :=
  let insts := s.insts.map (fun (x : Nat × Inst) =>
    let d := restoreDir x.2.dir x.1 s.quarry.resLog es
    (x.1, { x.2 with dir := d, slotsUsed := dirSlots d + (x.2.progs.map (fun e => e.2.slots)).sum }))
  { s with
    insts := insts
    quarry := { s.quarry with
      ownerKeys := true, restore := none, seq := seq + 1, chain := chain, staging := []
      written := (es.filter (fun e => decide (s.quarry.durable.1 < e.seq))).map asWritten
      slotsUsed := (insts.map (fun (x : Nat × Inst) => x.2.slotsUsed)).sum } }

/-- A restore is refused: all of it is discarded; the cause of event 0x3006 has no codes in the spec and is a free value (R283, log 9). -/
def State.refuseRestore (s : State) (rq : Req) : State :=
  let r := s.take 32
  let reached := s.quarry.restore.elim 0 (·.1)
  (({ r.2 with quarry := { r.2.quarry with restore := none } }).answer rq 0xA4 St.authFail).raise 0x3006 false 1 (reached % 2 ^ 32) r.1.toNat

/-- The restored sequence reaches the durable SEQ with the CHAIN that MRAM holds (R283). -/
def State.reaches (s : State) (partner : Bool) (es : List JEntry) : Bool :=
  partner || s.quarry.durable.1 == 0 || es.any (fun e => e.seq == s.quarry.durable.1 && e.chain == s.quarry.durable.2)

/-- RESTORE (R283). -/
def execRestore (rq : Req) (first last partner : Bool) (entries : List JEntry) (s : State) : Host.Outcome State Fault Refusal :=
  ok (s.request rq 0xA4 false (fun t =>
    if t.quarry.l2.isNone then t.answer rq 0xA4 St.keyUnknown
    else if t.quarry.ownerKeys ∨ entries = [] ∨ 65536 < entries.length ∨ (!first ∧ t.quarry.restore.isNone) then t.answer rq 0xA4 St.descInvalid
    else match t.checkRestore first partner entries with
      | none => t.refuseRestore rq
      | some (seq, chain, es) =>
        if !last then State.answer { t with quarry := { t.quarry with restore := some (seq, chain, es) } } rq 0xA4 St.ok
        else if !t.reaches partner es then t.refuseRestore rq
        else ((t.applyRestore seq chain es).answer rq 0xA4 St.ok).raise 0x3006 false 0 (seq % 2 ^ 32) 0))

end Sys2Proof.Machine
end

