-- ==== Sys2Proof/Machine/Wire.lean ====
section
/-! DEFINITION. Frames the passes send: MACsec packet numbers, neighbour advertisements (R206, R207, R394, R399, R483, R484). -/

namespace Sys2Proof.Config

/-- An unsolicited neighbour advertisement for an address from a MAC address: the packet of RFC 4861 (R394, R399; log 8). -/
opaque neighbourAdv (mac : BitVec 48) (addr : BitVec 128) : Bytes

/-- The answer to a neighbour solicitation: RFC 4861 (R483; log 8). -/
opaque neighbourReply (mac : BitVec 48) (target : BitVec 128) (source : Bytes) : Bytes

/-- The answer to an ICMPv6 echo request: RFC 4443 (R483; log 8). -/
opaque echoReply (mac : BitVec 48) (addr : BitVec 128) (payload : Bytes) : Bytes

/-- An MKPDU under a CAK, with its message number and, where the unit is key server, the AN and the wrapped SAK it distributes: IEEE 802.1X (R485; log 8). -/
opaque mkpdu (cak ckn : Bytes) (number : Nat) (sak : Option (Nat × Bytes)) : Bytes

/-- The ICV of an MKPDU of a peer under the ICK of a CAK and its CKN: IEEE 802.1X (R485; log 8). -/
opaque mkaIcv (cak ckn : Bytes) (peer : Nat) (sak : Option SakMsg) (latest : Nat) : BitVec 128

/-- The KEK of a CAK and its CKN: IEEE 802.1X (R485; log 8). -/
opaque mkaKek (cak ckn : Bytes) : Bytes

/-- The SSCI of a channel among those of a key: IEEE 802.1AEbw orders them by SCI (R206; log 8). -/
opaque ssci (channels : List Nat) (sci : Nat) : BitVec 32

/-- The IPv6 and UDP packet with hop limit 64 that carries a datagram: RFC 8200, RFC 768 (R483, R488; log 8). -/
opaque ipPacket (src : BitVec 128) (srcPort : Nat) (dst : BitVec 128) (dstPort : BitVec 16) (datagram : Bytes) : Bytes

/-- Destination and source address of a frame of a pass that carries neighbour discovery or an echo reply: RFC 2464, RFC 4861 (R483; log 8). -/
opaque linkHeader (mac : BitVec 48) (packet : Bytes) : Bytes

end Sys2Proof.Config

namespace Sys2Proof.Machine

/-- A pass of the two. -/
def State.pass (s : State) (b : Bool) : Pass := if b then s.passes.b else s.passes.a

/-- Change a pass. -/
def State.modPass (s : State) (b : Bool) (f : Pass → Pass) : State :=
  { s with passes := if b then { s.passes with b := f s.passes.b } else { s.passes with a := f s.passes.a } }

/-- The packet number at which MKA must rekey, and the number past the last (R207). -/
def Pass.pnMark (p : Pass) : Nat := if p.xpn then 0xC000000000000000 else 0xC0000000

/-- One past the last packet number. -/
def Pass.pnEnd (p : Pass) : Nat := if p.xpn then 2 ^ 64 else 2 ^ 32

/-- Transmission has stopped for want of packet numbers (R207). -/
def Pass.exhausted (p : Pass) : Bool :=
  match p.txAn with
  | some an => (match p.txSa[an] with | some a => decide (p.pnEnd ≤ a.next) | none => false)
  | none => false

/-! ## Frame protection (R205, R484, IEEE 802.1AE) -/

/-- The SCI of the unit on a pass: its MAC address and port 1 (R484). -/
def Pass.sci (p : Pass) : Nat := p.mac.toNat * 2 ^ 16 + 1

/-- The IV of a frame: SCI and PN, or under XPN the SSCI and the 64-bit PN with the salt added (R205). -/
def macsecIv (xpn : Bool) (key : SaKey) (sci pn : Nat) : Bytes :=
  if xpn then beBytes 12 ((key.ssci.toNat * 2 ^ 64 + pn) ^^^ key.salt.toNat) else beBytes 8 sci ++ beBytes 4 (pn % 2 ^ 32)

/-- The SecTAG of a transmitted frame: SC, E and C set, the AN, the short length, the PN's low 32 bits, the SCI (R484). -/
def secTag (an : Fin 4) (pn len sci : Nat) : Bytes :=
  [0x88, 0xE5, BitVec.ofNat 8 (0x2C + an.val), BitVec.ofNat 8 (if len < 48 then len else 0)] ++ beBytes 4 (pn % 2 ^ 32) ++ beBytes 8 sci

/-- The bytes of a frame that MACsec enciphers: the endpoint's 802.1Q tag where it has one, EtherType and packet, with confidentiality offset 0 (R482, R484). -/
def Net.clearBytes (n : Net) : Output → Bytes
  | .ether _ t b => beBytes 2 t ++ b
  | .nernaosh i peer d =>
    let e := n.endpoints.find? (fun (x : Endpoint) => x.inst == i)
    (match e.bind (·.vlan) with | some v => beBytes 2 0x8100 ++ beBytes 2 v | none => []) ++
      beBytes 2 0x86DD ++ Config.ipPacket (e.elim 0 (·.addr)) n.udp peer.addr peer.port d
  | _ => []

/-- Destination and source address of a frame: a datagram goes to the link-layer address its session last heard from (R483). -/
def Pass.addresses (p : Pass) (o : Output) (b : Bytes) : Bytes :=
  match o with
  | .nernaosh _ peer _ => beBytes 6 peer.mac.toNat ++ beBytes 6 p.mac.toNat
  | _ => Config.linkHeader p.mac b

/-- A frame as a pass sends it under an SA: GCM-AES-256 or GCM-AES-XPN-256 over addresses, SecTAG and packet (R205, R484). -/
def Pass.protect (p : Pass) (n : Net) (an : Fin 4) (a : TxSa) (o : Output) : Output :=
  let b := n.clearBytes o
  let r := Config.gcm a.key.sak (macsecIv p.xpn a.key p.sci a.next) (p.addresses o b ++ secTag an a.next b.length p.sci) b
  .secured o an a.next r.1 r.2

/-- Send one protected frame on the active pass: it takes the next PN of the active AN; the mark records 0x5020, the last PN 0x5021, and frames after it are dropped and counted (R205 to R207, R484). -/
def State.transmit (s : State) (o : Bool → Output) : State :=
  let b := s.passes.activeB
  let p := s.pass b
  let code := if b then 1 else 0
  if !s.passes.chosen || s.twin.silent || !p.up then s
  else match p.txAn with
    | none => s
    | some an =>
      match p.txSa[an] with
      | none => s
      | some a =>
        if p.pnEnd ≤ a.next then s.modPass b (fun p => { p with dropped := p.dropped + 1 })
        else
          let s1 := (s.modPass b (fun p => { p with txSa := p.txSa.set an.val (some { a with next := a.next + 1 }) an.isLt })).emit (p.protect s.net an a (o b))
          if a.next + 1 = p.pnMark then s1.raise 0x5020 false code an.val ((a.next + 1) % 2 ^ 32)
          else if a.next + 1 = p.pnEnd then s1.raise 0x5021 false code an.val (p.dropped % 2 ^ 32)
          else s1

/-- Send the neighbour advertisement of an endpoint from the active pass (R394, R399). -/
def State.advertise (s : State) (e : Endpoint) : State :=
  s.transmit (fun b => .ether b 0x86DD (Config.neighbourAdv (s.pass b).mac e.addr))

/-- Count frames and datagrams dropped (PASS_DROPS, R482 to R490). -/
def State.dropFrame (s : State) : State := { s with net := { s.net with drops := min (s.net.drops + 1) (2 ^ 32 - 1) } }

end Sys2Proof.Machine
end

