-- ==== Sys2Proof/Machine/NetOps.lean ====
section
/-! DEFINITION. Nernaosh sessions: datagrams and their tags, what a session sends, holds and acknowledges, its end (R488 to R494). -/

namespace Sys2Proof.Machine

/-! ## Datagrams (Tables 13-8, 13-9) -/

/-- Datagrams beyond ACK the unit accepts (R490). -/
def netWindow : Nat := 64

/-- The 32 header bytes of a datagram, big-endian. -/
def netHeader (dtype : Nat) (first last : Bool) (inst : Nat) (session : BitVec 32) (seq ack msg offset len window : Nat) : Bytes :=
  leBytes 1 (16 + dtype) ++ leBytes 1 ((if first then 1 else 0) + (if last then 2 else 0)) ++ beBytes 2 inst ++ beBytes 4 session.toNat ++
  beBytes 4 seq ++ beBytes 4 ack ++ beBytes 4 msg ++ beBytes 4 offset ++ beBytes 2 len ++ beBytes 2 window ++ zeros 4

/-- The header of a datagram as received. -/
def headerOf (dtype : Nat) (d : Datagram) : Bytes :=
  netHeader dtype d.first d.last d.inst d.session d.seq d.ack d.msg d.offset d.payload.length d.window

/-- The 16-byte tag of a datagram under a key (R489). -/
def netTag (key header payload : Bytes) (label : String) : Bytes := kmac256 key (header ++ payload) 16 (ascii label)

/-- The bytes of a tag. -/
def tagBytes (t : BitVec 128) : Bytes := leBytes 16 t.toNat

/-! ## Sessions -/

/-- An open session. -/
def State.session (s : State) (inst : Nat) (id : BitVec 32) : Option Session :=
  s.net.sessions.find? (fun x => x.inst == inst && x.id == id)

/-- Change a session. -/
def State.modSession (s : State) (inst : Nat) (id : BitVec 32) (f : Session → Session) : State :=
  { s with net := { s.net with sessions := s.net.sessions.map (fun (x : Session) => if x.inst = inst ∧ x.id = id then f x else x) } }

/-- A session ends without notice (R493, R494). -/
def State.endSession (s : State) (inst : Nat) (id : BitVec 32) : State :=
  if (s.session inst id).isNone then s
  else ({ s with net := { s.net with sessions := s.net.sessions.filter (fun (x : Session) => !(x.inst == inst && x.id == id)) } }).modInst inst
    (fun (x : Inst) => { x with sessions := x.sessions - 1 })

/-- Bytes of the reassembly pool in use (R491). -/
def State.poolUsed (s : State) : Nat :=
  (s.net.sessions.map (fun (x : Session) => (x.msgs.map (fun (m : NetMsg) => (m.parts.map (fun p => p.2.length)).sum)).sum)).sum

/-- The bytes of a datagram of a session. -/
def Session.datagram (x : Session) (dtype : Nat) (first last : Bool) (seq msg offset : Nat) (payload : Bytes) : Bytes :=
  let h := netHeader dtype first last x.inst x.id seq x.acked msg offset payload.length netWindow
  h ++ payload ++ netTag (leBytes 32 x.ks.toNat) h payload "NERNAOSH D"

/-- Send a datagram that is not a data datagram (types ACK and CLOSE of a session that ends). -/
def State.sendPlain (s : State) (x : Session) (dtype seq : Nat) (payload : Bytes) : State :=
  s.transmit (fun _ => .nernaosh x.inst x.peer (x.datagram dtype false false seq 0 0 payload))

/-- Acknowledge: an ACK with the highest SEQ acknowledged. -/
def State.sendAck (s : State) (inst : Nat) (id : BitVec 32) : State :=
  match s.session inst id with
  | some x => s.sendPlain x 6 0 []
  | none => s

/-- Send the fragments a session holds while at most 64 are unacknowledged and the peer's window is open (R490). -/
def State.pump (s : State) (inst : Nat) (id : BitVec 32) : Nat → State
  | 0 => s
  | n + 1 =>
    match s.session inst id with
    | none => s
    | some x =>
      match x.queue with
      | [] => s
      | f :: rest =>
        if 64 ≤ x.unacked.length ∨ x.limit ≤ x.txSeq then s
        else
          let b := x.datagram 5 f.first f.last x.txSeq f.msg f.offset f.payload
          let s1 := s.modSession inst id (fun (y : Session) =>
            { y with txSeq := y.txSeq + 1, queue := rest, unacked := y.unacked ++ [{ seq := y.txSeq, msg := f.msg, bytes := b, sentAt := s.frame.num }] })
          (s1.transmit (fun _ => .nernaosh inst x.peer b)).pump inst id n

/-- A message cut into fragments of the session's MSS. -/
def fragments (msg mss : Nat) (b : Bytes) : List Fragment :=
  let n := max 1 (ceilDiv b.length mss)
  (List.range n).map (fun k =>
    { msg := msg, offset := mss * k, payload := (b.drop (mss * k)).take mss, first := k == 0, last := k + 1 == n })

/-- Send a response message: it is held until it is acknowledged (R493). -/
def State.respond (s : State) (inst : Nat) (id : BitVec 32) (msg : Nat) (b : Bytes) : State :=
  (s.modSession inst id (fun (x : Session) =>
    { x with
      queue := x.queue ++ fragments msg x.mss b
      msgs := x.msgs.map (fun (m : NetMsg) => if m.msg = msg then { m with responded := true } else m) })).pump inst id 64

/-- Requests whose response is wholly acknowledged leave the session (R491). -/
def Session.settle (x : Session) : Session :=
  { x with msgs := x.msgs.filter (fun m => !m.responded || x.unacked.any (fun u => u.msg == m.msg) || x.queue.any (fun f => f.msg == m.msg)) }

/-- The ACK of a valid datagram, whose sender the session answers from now on (R483, R490, R493). -/
def State.takeAck (s : State) (inst : Nat) (id : BitVec 32) (peer : NetAddr) (ack window : Nat) : State :=
  (s.modSession inst id (fun (x : Session) =>
    ({ x with
      unacked := x.unacked.filter (fun u => decide (ack < u.seq))
      limit := max x.limit (ack + window)
      peer := peer
      lastSeen := s.frame.num } : Session).settle)).pump inst id 64

/-! ## Acknowledging at the tail (R493) -/

/-- Acknowledge what arrived in an earlier frame, in a pair once the checkpoint that records it is confirmed: one ACK per session. -/
def State.ackSession (s : State) (x : Session) : State :=
  let ripe (e : Nat × Nat) : Bool := decide (e.1 < s.frame.num) && (!s.isPaired || decide (e.1 ≤ s.twin.conf))
  match (x.arrivals.filter ripe).getLast? with
  | none => s
  | some e =>
    (s.modSession x.inst x.id (fun (y : Session) => { y with acked := max y.acked e.2, arrivals := y.arrivals.filter (fun a => !ripe a) })).sendAck x.inst x.id

/-- The ACKs of a tail. -/
def State.ackAll (s : State) : State := s.net.sessions.foldl State.ackSession s

end Sys2Proof.Machine
end

