-- ==== Sys2Proof/Machine/Release.lean ====
section
/-! DEFINITION. The release window of a tail: zeroing, completions, replies, interrupts (R29, R67, R70 to R76, R304, R310, R312, R406, R493). -/

namespace Sys2Proof.Machine

/-! ## Journal entries before replies and completions (R406) -/

/-- Every journal entry up to a SEQ has been written to the ring. -/
def State.journalled (s : State) (seq : Nat) : Bool := !s.quarry.staging.any (fun (e : Staged) => decide (e.seq ≤ seq))

/-! ## Zeroing (R72) -/

/-- Overwrite with zero what a failed job wrote to its destination. -/
def State.zeroOutput (s : State) (j : Job) : State :=
  let s1 := if j.net.isSome then s else j.ports.dirtied.foldl (fun (t : State) r => t.hostWrite j.inst r.1 (zeros r.2)) s
  s1.modJob j.slot (fun (x : Job) => { x with zeroing := false, ports := { x.ports with dirtied := [] } })

/-- Zero the output of every failed job whose function may write. -/
def State.zeroAll (s : State) : State :=
  (s.jobs.filter (fun (j : Job) => j.finished && j.zeroing && s.functionUp j.inst)).foldl State.zeroOutput s

/-! ## The completion entry (R70) -/

/-- BYTES_OUT: bytes written to the destination, 0 unless the status is OK. -/
def Job.bytesOut (j : Job) : Nat := if j.status = St.ok then j.ports.written[0] else 0

/-- The 32 bytes of a completion entry (Table 02-7). -/
def Job.entry (j : Job) (frame : Nat) (phase : Bool) : Bytes :=
  let good := decide (j.status = St.ok) && j.tagValid
  leBytes 4 j.desc.seq.toNat ++ leBytes 1 (j.status.toNat + (if j.missed then 128 else 0)) ++
  leBytes 1 ((if phase then 1 else 0) + (if good then 2 else 0)) ++ leBytes 2 j.detail.toNat ++
  leBytes 5 j.bytesOut ++ leBytes 3 (min (frame + 1 - j.admittedAt) 0xFFFFFF) ++ leBytes 16 (if good then j.tag.toNat else 0)

/-! ## Which jobs are released (R29, R74, R75) -/

/-- L: the frame of the last slice, or of admission. -/
def Job.last (j : Job) : Nat := j.lastRun.getD j.admittedAt

/-- The release frame max(L + 1, S). -/
def Job.releaseFrame (j : Job) : Nat := max (j.last + 1) (j.squashed.getD 0)

/-- The confirmation R29 requires: of the checkpoint of frame L, and for a job that was not squashed of the one that holds its finish record. -/
def State.confirmedFor (s : State) (j : Job) : Bool :=
  !s.isPaired || (decide (j.last ≤ s.twin.conf) &&
    (j.squashed.isSome || (match j.finishCkpt with | some c => decide (c ≤ s.twin.conf) | none => false)))

/-- No entry is written for a job: its instance undergoes a function-level reset, or any reset with EN of the pair 0 (Table 08-8, step 2). -/
def State.unwritten (s : State) (j : Job) : Bool :=
  match s.inst j.inst with
  | none => false
  | some x =>
    (match x.reset, j.q with
     | some r, some q => r.flr || !x.qs[q].en
     | some _, none => true
     | none, _ => false)

/-- Entries the host has not consumed: from DB_CQ_HEAD as last written to the tail, not as it stood at cycle 0; a head beyond the tail, which sets RING_ERR, leaves none, so that the completions of jobs in flight are still written (R62, R65; DESIGN CHOICE, log 134). -/
def QPair.unconsumed (q : QPair) : Nat :=
  let n := (q.cqTail - q.cqHead).toNat
  if 2 ^ q.cqLog < n then 0 else n

/-- Space in the completion ring of a job's pair (R62). -/
def State.ringSpace (s : State) (j : Job) : Bool :=
  s.unwritten j ||
  match j.q with
  | none => true
  | some q => (s.inst j.inst).elim false (fun x => decide (x.qs[q].unconsumed < 2 ^ x.qs[q].cqLog))

/-- The completions of a STALLED instance are held (R47). -/
def State.stalled (s : State) (i : Nat) : Bool := (s.inst i).any (fun x => decide (x.state = .stalled))

/-- A job may be released at this tail, apart from ring space. -/
def State.ripe (s : State) (j : Job) : Bool :=
  j.finished && !s.stalled j.inst && decide (j.releaseFrame ≤ s.frame.num) && s.confirmedFor j && s.journalled j.journal &&
  (s.unwritten j || (!j.zeroing && s.functionUp j.inst)) && (match j.pke with | some c => c.phase != .aborting | none => true)

/-- Release frame, then L, then admission order (R75). The release frame is the frame max(L + 1, S) in which the job falls due, also where its entry had to wait for a later tail (DESIGN CHOICE, log 135). -/
def releasedBefore (a b : Job) : Bool :=
  decide (a.releaseFrame < b.releaseFrame) ||
    (a.releaseFrame == b.releaseFrame && (decide (a.last < b.last) || (a.last == b.last && decide (a.order < b.order))))

/-! ## Releasing (R62, R67, R77, R462, R493) -/

/-- Write a completion entry into its ring (R67, R70, R317). -/
def State.putEntry (s : State) (i : Nat) (q : Fin 4) (index : BitVec 16) (b : Bytes) : State :=
  match s.inst i with
  | none => s
  | some x =>
    let a := x.qs[q].cqBase.toNat + 32 * (index.toNat % 2 ^ x.qs[q].cqLog)
    (s.emit (.completion i q.val index b)).modInst i (fun y => { y with dirty := y.dirty.mark a 32 })

/-- The place in the ring a completion takes: the tail moves, PHASE inverts at each pass, and a completion without NO_IRQ counts for vector 0. -/
def QPair.complete (x : QPair) (frame : Nat) (irq : Bool) : QPair :=
  let t := x.cqTail + 1
  { x with
    cqTail := t
    phase := if t.toNat % 2 ^ x.cqLog = 0 then !x.phase else x.phase
    unsignalled := if irq then x.unsignalled + 1 else x.unsignalled
    oldest := if irq && x.oldest.isNone then some frame else x.oldest }

/-- The completion goes out: to its ring, or as the response of a network request with PHASE 0, the result area and the output. -/
def State.putCompletion (s : State) (j : Job) : State :=
  if s.unwritten j then s
  else match j.q, j.net with
  | some q, _ =>
    (match s.inst j.inst with
     | none => s
     | some x =>
       (s.putEntry j.inst q x.qs[q].cqTail (j.entry s.frame.num x.qs[q].phase)).modQ j.inst q
         (fun y => y.complete s.frame.num (!j.desc.flags.getLsbD 3)))
  | none, some (id, msg) =>
    s.respond j.inst id msg (j.entry s.frame.num false ++ (if j.header.res then padTo j.header.resLen j.netOut.2 else []) ++ j.netOut.1.take j.bytesOut)
  | none, none => s

/-- The counters of a released completion (Tables 12-5, 12-6). -/
def State.countRelease (s : State) (j : Job) : State :=
  (((((s.countInst j.inst 1 1).countInst j.inst 2 (if j.status = St.ok then 0 else 1)).countInst j.inst 3 (if j.missed then 1 else 0)).countInst
    j.inst 11 j.bytesOut).countGlob 59 1)

/-- Release one job: its slot is free, and key versions it alone kept go (R77, R268). -/
def State.release (s : State) (j : Job) : State :=
  let s1 := (s.putCompletion j).countRelease j
  ({ s1 with jobs := s1.jobs.filter (fun (x : Job) => x.slot != j.slot) }).freeShadows j.inst

/-- Release a job if its ring has space; a ring without space shows CQ_FULL (Table 02-6). -/
def State.releaseIf (a : State × Nat) (j : Job) : State × Nat :=
  if 4096 ≤ a.2 then a
  else if a.1.ringSpace j then (a.1.release j, a.2 + 1)
  else (match j.q with
    | some q => (a.1.modQ j.inst q (fun x => { x with cqFull := true }), a.2)
    | none => a)

/-- CQ_FULL shows again only where a completion waits. -/
def State.clearFull (s : State) : State :=
  { s with insts := s.insts.map (fun (e : Nat × Inst) => (e.1, { e.2 with qs := e.2.qs.map (fun (q : QPair) => { q with cqFull := false }) })) }

/-- The completions of a tail, at most 4,096 (R74, R75). -/
def State.releaseAll (s : State) : State :=
  let s1 := s.zeroAll.clearFull
  ((sortBy releasedBefore (s1.jobs.filter s1.ripe)).foldl State.releaseIf (s1, 0)).1

/-- Entries of adopted instances' finish records are written into the ring slots they name (R390). -/
def State.writeRewrites (s : State) : State :=
  let go := s.twin.rewrites.filter (fun w => s.functionUp w.1)
  go.foldl (fun (t : State) w => if h : w.2.1 < 4 then t.putEntry w.1 ⟨w.2.1, h⟩ w.2.2.1 w.2.2.2 else t)
    { s with twin := { s.twin with rewrites := s.twin.rewrites.filter (fun w => !s.functionUp w.1) } }

/-! ## Replies (R304, R310, R312, R406) -/

/-- A reply is due at this tail: its frame has come, its journal entries are written, in a pair the checkpoint that holds it is confirmed; replies of a function whose link is down wait (R477). -/
def State.replyRipe (s : State) (r : Reply) : Bool :=
  (match r.dest with | .mailbox i => (s.portOf i).up | .port _ => true) && decide (r.due ≤ s.frame.num) && s.journalled r.journal && (!s.isPaired || decide (r.due ≤ s.twin.conf + 1))

/-- The instance a STATE notice is of. -/
def noticeInst (r : Reply) : Nat := leNat (r.body.take 2) / 16 % 1024

/-- The STATE code a STATE notice tells (Table 08-7). -/
def noticeState (r : Reply) : Nat := leNat (r.body.take 1) % 16

/-- Functions that a reply or notice signals: those with IRQ_EN, on a change of its own STATE the instance itself, and the manager on any instance that becomes STALLED (R47, R312). -/
def State.signals (s : State) (r : Reply) : Bool :=
  match r.dest with
  | .port _ => false
  | .mailbox i =>
    (s.inst i).elim false (fun x => x.mbIrq) || (r.mtype == 0xF3 && (noticeInst r == i || (i == 0 && noticeState r == stateCode .stalled)))

/-- Write a reply that is due; one without room waits, and RSP_FULL shows it. -/
def State.replyIf (a : State × List Nat) (r : Reply) : State × List Nat :=
  let (s, told) := a
  let keep := { s with mail := { s.mail with replies := s.mail.replies ++ [r] } }
  if !s.replyRipe r then (keep, told)
  else if s.canWrite r then (s.writeReply r, if s.signals r && !told.contains (destInst r.dest) then told ++ [destInst r.dest] else told)
  else (keep.modInst (destInst r.dest) (fun x => { x with rspFull := true }), told)

/-- The replies and notices of a tail, then vector 1 of each function they signal. -/
def State.replyAll (s : State) : State :=
  let rs := s.mail.replies
  let s1 := { s with
    mail := { s.mail with replies := [] }
    insts := s.insts.map (fun (e : Nat × Inst) => (e.1, { e.2 with rspFull := false })) }
  let (s2, told) := rs.foldl State.replyIf (s1, [])
  told.foldl State.signal1 s2

/-! ## Vector 0 and the status of the pairs (R66, R69, R76) -/

/-- A pair with IRQ_EN asks for vector 0: enough completions, or the oldest waits long enough. -/
def QPair.asksVector (x : QPair) (frame : Nat) : Bool :=
  x.irqEn && (decide (max 1 x.coalCount ≤ x.unsignalled) ||
    (decide (x.coalFrames ≠ 0) && x.oldest.any (fun f => decide (f + x.coalFrames ≤ frame))))

/-- The message covers every completion written before it. -/
def QPair.signalled (x : QPair) : QPair := if x.irqEn then { x with unsignalled := 0, oldest := none } else x

/-- Vector 0 of one instance. -/
def State.vector0 (s : State) (e : Nat × Inst) : State :=
  if e.2.qs.toList.any (fun q => q.asksVector s.frame.num) then
    (s.modInst e.1 (fun x => { x with qs := x.qs.map QPair.signalled })).msix e.1 0
  else s

/-- Vector 0 of every instance, once each. -/
def State.vectors0 (s : State) : State := s.insts.foldl State.vector0 s

/-- Jobs in flight from a pair. -/
def State.pairJobs (s : State) (i : Nat) (q : Fin 4) : Nat := (s.jobs.filter (fun (j : Job) => j.inst == i && j.q == some q)).length

/-- INFLIGHT and QUIESCED of a pair; QUIESCED becoming 1 after EN was sampled as 0 raises vector 1. -/
def State.quiesce (s : State) (i : Nat) (q : Fin 4) : State :=
  let n := s.pairJobs i q
  match s.inst i with
  | none => s
  | some x =>
    let s1 := s.modQ i q (fun y => { y with inflight := n, quiesced := decide (n = 0) })
    if n = 0 && !x.qs[q].quiesced && !x.qs[q].active then s1.signal1 i else s1

/-- INFLIGHT and QUIESCED of every pair. -/
def State.quiesceAll (s : State) : State :=
  s.insts.foldl (fun (t : State) (e : Nat × Inst) => [(0 : Fin 4), 1, 2, 3].foldl (fun (u : State) q => u.quiesce e.1 q) t) s

end Sys2Proof.Machine
end

