-- ==== Sys2Proof/Machine/KeyBlock.lean ====
section
/-! DEFINITION. Key blocks of ANSI X9.143: the header and the node attributes it maps to, protection of versions B and D (R286; the block's layout PRESUMED from the standard the rule names, log 147). -/

namespace Sys2Proof.Config

/-- Which of the MAC usages M0, M1, M3, M6 an exported MAC key is given: R286 maps all four to the same bits (R286; free value, log 147). -/
opaque macUsage (t : BitVec 8) : Fin 4

/-- The header maps no TDEA_OK: whether an imported TDEA key carries it (R286; free value, log 147). -/
opaque importTdeaOk : Bool

end Sys2Proof.Config

namespace Sys2Proof.Machine

/-! ## ASCII fields -/

/-- The value of an ASCII hexadecimal digit. -/
def hexDigit (b : Byte) : Option Nat :=
  let n := b.toNat
  if 0x30 ≤ n ∧ n ≤ 0x39 then some (n - 0x30) else if 0x41 ≤ n ∧ n ≤ 0x46 then some (n - 55)
  else if 0x61 ≤ n ∧ n ≤ 0x66 then some (n - 87) else none

/-- The character of a hexadecimal digit, upper case. -/
def hexChar (n : Nat) : Byte := BitVec.ofNat 8 (if n < 10 then 0x30 + n else 55 + n)

/-- Bytes as hexadecimal text. -/
def toHex (bs : Bytes) : Bytes := bs.flatMap (fun b => [hexChar (b.toNat / 16), hexChar (b.toNat % 16)])

/-- The bytes of hexadecimal text; none where a character is no digit or one is left over. -/
def fromHex : Bytes → Option Bytes
  | [] => some []
  | [_] => none
  | a :: b :: rest =>
    match hexDigit a, hexDigit b, fromHex rest with
    | some x, some y, some r => some (BitVec.ofNat 8 (16 * x + y) :: r)
    | _, _, _ => none

/-- The number of decimal characters. -/
def decField (bs : Bytes) : Option Nat :=
  if bs.all (fun b => decide (0x30 ≤ b.toNat ∧ b.toNat ≤ 0x39)) then some (bs.foldl (fun n b => 10 * n + (b.toNat - 0x30)) 0) else none

/-- n decimal characters of a number. -/
def decText : Nat → Nat → Bytes
  | 0, _ => []
  | k + 1, n => decText k (n / 10) ++ [BitVec.ofNat 8 (0x30 + n % 10)]

/-! ## The header's meaning (R286) -/

/-- The usage bits a key usage names; none for any other. -/
def usageBits (u : Bytes) : Option (List Nat) :=
  if u = ascii "B0" then some [uBdk]
  else if u = ascii "D0" then some [uEncrypt, uDecrypt]
  else if u = ascii "K0" then some [uWrap, uUnwrap]
  else if u = ascii "K1" then some [uKbpk]
  else if u = ascii "M0" ∨ u = ascii "M1" ∨ u = ascii "M3" ∨ u = ascii "M6" then some [uMacGen, uMacVer]
  else if u = ascii "P0" then some [uPin]
  else none

/-- The usage bits a mode of use leaves out of those that have a direction; none for any other mode. -/
def modeDrops (m : Bytes) : Option (List Nat) :=
  if m = ascii "N" then some []
  else if m = ascii "B" then some [uMacGen, uMacVer]
  else if m = ascii "C" then some [uEncrypt, uDecrypt, uWrap, uUnwrap]
  else if m = ascii "D" then some [uEncrypt, uWrap, uMacGen, uMacVer]
  else if m = ascii "E" then some [uDecrypt, uUnwrap, uMacGen, uMacVer]
  else if m = ascii "G" then some [uEncrypt, uDecrypt, uWrap, uUnwrap, uMacVer]
  else if m = ascii "V" then some [uEncrypt, uDecrypt, uWrap, uUnwrap, uMacGen]
  else none

/-- USAGE of a header; none where it maps to none, or the mode leaves no use. -/
def headerUsage (u m : Bytes) : Option (BitVec 16) :=
  match usageBits u, modeDrops m with
  | some bs, some drop =>
    let left := bs.filter (fun b => !drop.contains b)
    if left = [] then none else some (left.foldl (fun w b => w ||| (1#16 <<< b)) 0)
  | _, _ => none

/-- TYPE of an algorithm and a key length in bytes. -/
def headerType (a : Bytes) (bytes : Nat) : Option (BitVec 8) :=
  if a = ascii "A" then (if bytes = 16 then some 0x10 else if bytes = 24 then some 0x11 else if bytes = 32 then some 0x12 else none)
  else if a = ascii "T" then (if bytes = 16 then some 0x18 else if bytes = 24 then some 0x19 else none)
  else none

/-- EXPORT of an exportability. -/
def headerExport (e : Bytes) : Option (BitVec 16) :=
  if e = ascii "E" then some 1 else if e = ascii "N" ∨ e = ascii "S" then some 0 else none

/-- Skip n optional blocks: KS and KV alone are taken; none at any other or where one runs out. -/
def skipOptional : Nat → Bytes → Option Bytes
  | 0, bs => some bs
  | n + 1, bs =>
    match fromHex ((bs.drop 2).take 2) with
    | some [len] =>
      if (bs.take 2 = ascii "KS" ∨ bs.take 2 = ascii "KV") ∧ 4 ≤ len.toNat ∧ len.toNat ≤ bs.length then skipOptional n (bs.drop len.toNat)
      else none
    | _ => none

/-- A key block taken apart. -/
structure KeyBlk where
  verB : Bool
  usage : BitVec 16
  alg : Bytes
  exp : BitVec 16
  head : Bytes
  cipher : Bytes
  mac : Bytes
deriving DecidableEq, Repr

/-- Take a block apart: version D under an AES key, B under a TDEA key; none for any header value R286 does not list. -/
def parseBlock (kbpk : BitVec 8) (bs : Bytes) : Option KeyBlk :=
  let verB := isTdea kbpk
  let tag := if verB then 8 else 16
  let f (o n : Nat) := (bs.drop o).take n
  match decField (f 1 4), headerUsage (f 5 2) (f 8 1), headerExport (f 11 1), decField (f 12 2) with
  | some len, some usage, some exp, some count =>
    match skipOptional count (bs.drop 16) with
    | none => none
    | some rest =>
      match fromHex rest with
      | none => none
      | some body =>
        if f 0 1 = (if verB then ascii "B" else ascii "D") ∧ len = bs.length ∧ 16 ≤ bs.length ∧ f 14 2 = ascii "00" ∧ tag < body.length ∧
            (body.length - tag) % tag = 0 ∧ (f 7 1 = ascii "A" ∨ f 7 1 = ascii "T") then
          some { verB := verB, usage := usage, alg := f 7 1, exp := exp, head := bs.take (bs.length - rest.length),
                 cipher := body.take (body.length - tag), mac := body.drop (body.length - tag) }
        else none
  | _, _, _, _ => none

/-! ## Protection -/

/-- The algorithm indicator of a key block protection key. -/
def kbpkIndicator (t : BitVec 8) : Nat := if isTdea t then (if keyLen t = 16 then 0 else 1) else if keyLen t = 16 then 2 else if keyLen t = 24 then 3 else 4

/-- The key for encryption (0) or authentication (1), by CMAC under the protection key. -/
def blockKeyFor (t : BitVec 8) (key : Bytes) (use : Nat) : Bytes :=
  let c := cipherFn t key
  ((List.range ((keyLen t + c.b - 1) / c.b)).flatMap (fun i =>
    cmac c ([BitVec.ofNat 8 (i + 1), 0, BitVec.ofNat 8 use, 0] ++ beBytes 2 (kbpkIndicator t) ++ beBytes 2 (8 * keyLen t)))).take (keyLen t)

/-- The check value over header and clear key data. -/
def blockMac (t : BitVec 8) (key head plain : Bytes) : Bytes := cmac (cipherFn t (blockKeyFor t key 1)) (head ++ plain)

/-- Key data enciphered in CBC mode under the check value. -/
def blockSeal (t : BitVec 8) (key head plain : Bytes) : Bytes :=
  let c := cipherFn t (blockKeyFor t key 0)
  let m := blockMac t key head plain
  (cbcEnc c.enc m (inBlocks c.b plain)).flatten ++ m

/-- The clear key of a block; none where the check value is wrong. -/
def blockOpen (t : BitVec 8) (key : Bytes) (k : KeyBlk) : Option Bytes :=
  let c := cipherFn t (blockKeyFor t key 0)
  let plain := (cbcDec c.dec k.mac (inBlocks c.b k.cipher)).flatten
  if blockMac t key k.head plain = k.mac then
    (if beNat (plain.take 2) % 8 = 0 ∧ beNat (plain.take 2) / 8 ≤ plain.length - 2 then some ((plain.drop 2).take (beNat (plain.take 2) / 8)) else some [])
  else none

/-! ## Export (program 0x0091) -/

/-- Key usage and mode of use of a node's USAGE; none where no header maps to it. -/
def usageHeader (t : BitVec 8) (usage : BitVec 16) : Option Bytes :=
  match usage.toNat with
  | 0x0001 => some (ascii "D0E") | 0x0002 => some (ascii "D0D") | 0x0003 => some (ascii "D0B")
  | 0x0004 => some (ascii "K0E") | 0x0008 => some (ascii "K0D") | 0x000C => some (ascii "K0B")
  | 0x0010 => some ([ascii "M0", ascii "M1", ascii "M3", ascii "M6"].getD (Config.macUsage t).val [] ++ ascii "G")
  | 0x0020 => some ([ascii "M0", ascii "M1", ascii "M3", ascii "M6"].getD (Config.macUsage t).val [] ++ ascii "V")
  | 0x0030 => some ([ascii "M0", ascii "M1", ascii "M3", ascii "M6"].getD (Config.macUsage t).val [] ++ ascii "C")
  | 0x0200 => some (ascii "P0N") | 0x0400 => some (ascii "B0N") | 0x0800 => some (ascii "K1N")
  | _ => none

/-- The header of an exported key: version D, exportable, no optional block. -/
def exportHeader (t : BitVec 8) (usage : BitVec 16) (len : Nat) : Option Bytes :=
  (usageHeader t usage).map (fun u =>
    ascii "D" ++ decText 4 len ++ u.take 2 ++ (if isAes t then ascii "A" else ascii "T") ++ u.drop 2 ++ ascii "00E0000")

/-- The key block of a key: length, key, random fill to whole blocks; none where no header maps to its attributes (R286). -/
def exportBlock (kbpk : BitVec 8) (kbpkKey : Bytes) (n : Node) (key random : Bytes) : Option Bytes :=
  if !(isAes n.ktype || isTdea n.ktype) then none
  else
    let fill := (16 - (2 + key.length) % 16) % 16
    let plain := beBytes 2 (8 * key.length) ++ key ++ random.take fill
    (exportHeader n.ktype n.usage (16 + 2 * (plain.length + 16))).map (fun h => h ++ toHex (blockSeal kbpk kbpkKey h plain))

/-! ## Import (program 0x0092) -/

/-- The creation an imported block amounts to: its attributes, the parent handle and the label of AUX2 (R286). -/
def blockCreation (k : KeyBlk) (t : BitVec 8) (aux2 : Bytes) : Creation :=
  { parent := BitVec.ofNat 64 (leNat (aux2.take 8)), ktype := t, labelLen := 8, usage := k.usage,
    policy := k.exp ||| (if isTdea t && Config.importTdeaOk then 0x0080 else 0), uses := 0, bind := 0, label := aux2.drop 8, rsv := false }

/-- What an import finds: a status, or the creation and the key. -/
def importBlock (kbpk : BitVec 8) (kbpkKey aux2 src : Bytes) : BitVec 7 ⊕ (Creation × Bytes) :=
  match parseBlock kbpk src with
  | none => .inl St.descInvalid
  | some k =>
    match blockOpen kbpk kbpkKey k with
    | none => .inl St.authFail
    | some key =>
      match headerType k.alg key.length with
      | none => .inl St.descInvalid
      | some t => .inr (blockCreation k t aux2, key)

end Sys2Proof.Machine
end

