-- ==== Sys2Proof/Machine/Decimal.lean ====
section
/-! DEFINITION. Packed decimal, translation and check digits: majors 0x37 to 0x39 (R163 to R166). -/

namespace Sys2Proof.Machine

/-! ## Forms (R163) -/

/-- An invalid digit, sign or character. -/
def digitTrap : Trap := engineTrap St.descInvalid 0x40

/-- A result outside the range of its form. -/
def rangeTrap : Trap := engineTrap St.operandRange 0x41

/-- The 32 nibbles of a block register, most significant first. -/
def nibbles (v : Blk) : List Nat := (blkBytes v).flatMap (fun b => [b.toNat / 16, b.toNat % 16])

/-- A block register of 32 nibbles, most significant first. -/
def ofNibbles : List Nat → Bytes
  | a :: b :: rest => BitVec.ofNat 8 (16 * a + b) :: ofNibbles rest
  | [a] => [BitVec.ofNat 8 (16 * a)]
  | [] => []

/-- The value of digits, most significant first; none where one is above 9. -/
def digitsVal (ds : List Nat) : Option Nat :=
  if ds.all (fun d => decide (d ≤ 9)) then some (ds.foldl (fun n d => 10 * n + d) 0) else none

/-- The digits of a value, most significant first, k of them. -/
def digitsOf : Nat → Nat → List Nat
  | 0, _ => []
  | k + 1, n => digitsOf k (n / 10) ++ [n % 10]

/-- A sign nibble: true for negative; none where it is no sign. -/
def signOf (n : Nat) : Option Bool :=
  if n = 0xA ∨ n = 0xC ∨ n = 0xE ∨ n = 0xF then some false else if n = 0xB ∨ n = 0xD then some true else none

/-- A value with its sign. -/
def signed (n : Nat) (neg : Bool) : Int := if neg then -(n : Int) else (n : Int)

/-- Read signed packed. -/
def packedVal (v : Blk) : Option Int :=
  let ns := nibbles v
  match digitsVal (ns.take 31), signOf (ns.getD 31 0) with
  | some n, some neg => some (signed n neg)
  | _, _ => none

/-- Write signed packed: 0xC for positive values and zero, 0xD for negative; none above 31 digits. -/
def packedOf (x : Int) : Option Blk :=
  if 10 ^ 31 ≤ x.natAbs then none
  else some (blkOf (ofNibbles (digitsOf 31 x.natAbs ++ [if x < 0 then 0xD else 0xC])))

/-- Read unsigned packed. -/
def unsignedVal (v : Blk) : Option Nat := digitsVal (nibbles v)

/-- Drop the fill before the first digit: 0x00 and the space of the form. -/
def dropFill (space : Byte) (bs : Bytes) : Bytes := bs.dropWhile (fun b => b == 0 || b == space)

/-- The digit of a byte whose zone is as given. -/
def zonedDigit (zone : Nat) (b : Byte) : Option Nat := if b.toNat / 16 = zone ∧ b.toNat % 16 ≤ 9 then some (b.toNat % 16) else none

/-- Digits of bytes of one zone. -/
def zonedVal (zone : Nat) (bs : Bytes) : Option Nat :=
  if bs.all (fun b => (zonedDigit zone b).isSome) then some (bs.foldl (fun n b => 10 * n + b.toNat % 16) 0) else none

/-- The sign and digit of the last byte: an EBCDIC zone is a packed sign, an ASCII zone 3 is positive and 7 negative. -/
def lastZoned (ebcdic : Bool) (b : Byte) : Option (Nat × Bool) :=
  if 9 < b.toNat % 16 then none
  else if ebcdic then (signOf (b.toNat / 16)).map (fun s => (b.toNat % 16, s))
  else if b.toNat / 16 = 3 then some (b.toNat % 16, false)
  else if b.toNat / 16 = 7 then some (b.toNat % 16, true)
  else none

/-- The zone of digits and the space of a form. -/
def zoneOf (ebcdic : Bool) : Nat := if ebcdic then 0xF else 0x3
/-- The space of a form. -/
def spaceOf (ebcdic : Bool) : Byte := if ebcdic then 0x40 else 0x20

/-- Read zoned digits with their sign; nothing but fill is 0. -/
def zonedSigned (ebcdic : Bool) (v : Blk) : Option Int :=
  let bs := dropFill (spaceOf ebcdic) (blkBytes v)
  match bs.getLast? with
  | none => some 0
  | some b =>
    match zonedVal (zoneOf ebcdic) bs.dropLast, lastZoned ebcdic b with
    | some n, some (d, neg) => some (signed (10 * n + d) neg)
    | _, _ => none

/-- Read zoned digits without a sign. -/
def zonedUnsigned (ebcdic : Bool) (v : Blk) : Option Nat := zonedVal (zoneOf ebcdic) (dropFill (spaceOf ebcdic) (blkBytes v))

/-- Write 16 zoned digits, the last byte carrying the sign; none above 16 digits. -/
def zonedOf (ebcdic : Bool) (x : Int) : Option Blk :=
  if 10 ^ 16 ≤ x.natAbs then none
  else
    let zone (i : Nat) : Nat :=
      if i ≠ 15 then zoneOf ebcdic
      else if ebcdic then (if x < 0 then 0xD else 0xC) else (if x < 0 then 7 else 3)
    some (blkOf ((digitsOf 16 x.natAbs).zipIdx.map (fun (d, i) => BitVec.ofNat 8 (16 * zone i + d))))

/-! ## Window instructions (R105, R164) -/

/-- A window range of DLD or DSTB: a length outside 1 to 16, a bad pointer, a range beyond the window, another colour, or a wait for an outstanding request (R105, R141, R164). -/
def State.decAccess (s : State) (l : LaneId) (j : Job) (c : Ctx) (write : Bool) (p : Word) (n : Nat) : State × Option LaneRes :=
  let k : AccKind := if write then .write else .read
  if n = 0 || 16 < n then (s, some (.trap (engineTrap St.accessFault 0x42)))
  else match c.ptrTrap write p n, rangeRefused c p n with
    | some t, _ => (s, some (.trap t))
    | none, some r =>
      let off := ptrVa p - winBase
      let q := if r.1.cause = 8 then p + BitVec.ofNat 64 ((parts off n).getD r.2 0 - off) else p
      (s.rangeReport l j c write p n r, some (.trap (refusedTrap k false q r.1)))
    | none, none => if j.busyAt (ptrVa p - winBase) n then (s, some .wait) else (s, none)

/-- DLD (R164). -/
def execDld (l : LaneId) (d : VReg) (a b : GReg) (s : State) : Host.Outcome State Fault Refusal :=
  ok (laneStep l true [d] (fun s j c =>
    let n := (c.rg b).toNat
    match s.decAccess l j c false (c.rg a) n with
    | (t, some r) => (t, r)
    | (t, none) => (t.countLane l 0x04 1 c.pc, .ok (c.wv d (blkOf (zeros (16 - n) ++ Memory.readBytes c.window (ptrVa (c.rg a) - winBase) n))))) s)

/-- DSTB (R164). -/
def execDstb (l : LaneId) (d : VReg) (a b : GReg) (s : State) : Host.Outcome State Fault Refusal :=
  ok (laneStep l true [d] (fun s j c =>
    let n := (c.rg b).toNat
    match s.decAccess l j c true (c.rg a) n with
    | (t, some r) => (t, r)
    | (t, none) =>
      let off := ptrVa (c.rg a) - winBase
      (t, .ok { c with
        window := Memory.writeBytes c.window off ((blkBytes (c.rv d)).drop (16 - n))
        unfenced := c.unfenced ++ [(off, n)] })) s)

/-! ## Decimal arithmetic (R164) -/

/-- A signed packed operation of two operands. -/
def decBinary (l : LaneId) (d a b : VReg) (f : Int → Int → Int) (s : State) : State :=
  bankStep l true [d, a, b] (fun c =>
    match packedVal (c.rv a), packedVal (c.rv b) with
    | some x, some y => (match packedOf (f x y) with | some v => .ok (c.wv d v) | none => .trap rangeTrap)
    | _, _ => .trap digitTrap) s

/-- DADD (R164). -/
def execDadd (l : LaneId) (d a b : VReg) (s : State) : Host.Outcome State Fault Refusal :=
  ok (decBinary l d a b (fun x y => x + y) s)

/-- DSUB (R164). -/
def execDsub (l : LaneId) (d a b : VReg) (s : State) : Host.Outcome State Fault Refusal :=
  ok (decBinary l d a b (fun x y => x - y) s)

/-- -1, 0 or 1. -/
def cmpWord (x y : Int) : Word := if x < y then BitVec.allOnes 64 else if x = y then 0 else 1

/-- DCMP (R164). -/
def execDcmp (l : LaneId) (d : GReg) (a b : VReg) (s : State) : Host.Outcome State Fault Refusal :=
  ok (bankStep l true [a, b] (fun c =>
    match packedVal (c.rv a), packedVal (c.rv b) with
    | some x, some y => .ok (c.wg d (cmpWord x y))
    | _, _ => .trap digitTrap) s)

/-- Zoned to signed packed. -/
def packStep (l : LaneId) (ebcdic : Bool) (d a : VReg) (s : State) : State :=
  bankStep l true [d, a] (fun c =>
    match zonedSigned ebcdic (c.rv a) with
    | some x => (match packedOf x with | some v => .ok (c.wv d v) | none => .trap rangeTrap)
    | none => .trap digitTrap) s

/-- DPACK_E (R164). -/
def execDpackE (l : LaneId) (d a : VReg) (s : State) : Host.Outcome State Fault Refusal :=
  ok (packStep l true d a s)

/-- DPACK_A (R164). -/
def execDpackA (l : LaneId) (d a : VReg) (s : State) : Host.Outcome State Fault Refusal :=
  ok (packStep l false d a s)

/-- Digits only to unsigned packed. -/
def packUStep (l : LaneId) (ebcdic : Bool) (d a : VReg) (s : State) : State :=
  bankStep l true [d, a] (fun c =>
    match zonedUnsigned ebcdic (c.rv a) with
    | some n => .ok (c.wv d (blkOf (ofNibbles (digitsOf 32 n))))
    | none => .trap digitTrap) s

/-- DPACK_EU (R164). -/
def execDpackEu (l : LaneId) (d a : VReg) (s : State) : Host.Outcome State Fault Refusal :=
  ok (packUStep l true d a s)

/-- DPACK_AU (R164). -/
def execDpackAu (l : LaneId) (d a : VReg) (s : State) : Host.Outcome State Fault Refusal :=
  ok (packUStep l false d a s)

/-- Signed packed to 16 zoned digits. -/
def unpackStep (l : LaneId) (ebcdic : Bool) (d a : VReg) (s : State) : State :=
  bankStep l true [d, a] (fun c =>
    match packedVal (c.rv a) with
    | some x => (match zonedOf ebcdic x with | some v => .ok (c.wv d v) | none => .trap rangeTrap)
    | none => .trap digitTrap) s

/-- DUNPK_E (R164). -/
def execDunpkE (l : LaneId) (d a : VReg) (s : State) : Host.Outcome State Fault Refusal :=
  ok (unpackStep l true d a s)

/-- DUNPK_A (R164). -/
def execDunpkA (l : LaneId) (d a : VReg) (s : State) : Host.Outcome State Fault Refusal :=
  ok (unpackStep l false d a s)

/-- DCVB (R164). -/
def execDcvb (l : LaneId) (d : GReg) (a : VReg) (s : State) : Host.Outcome State Fault Refusal :=
  ok (bankStep l true [a] (fun c =>
    match packedVal (c.rv a) with
    | none => .trap digitTrap
    | some x => if -(2 ^ 63) ≤ x ∧ x < 2 ^ 63 then .ok (c.wg d (BitVec.ofInt 64 x)) else .trap rangeTrap) s)

/-- DCVD (R164). -/
def execDcvd (l : LaneId) (d : VReg) (a : GReg) (s : State) : Host.Outcome State Fault Refusal :=
  ok (bankStep l true [d] (fun c =>
    match packedOf (c.rg a).toInt with
    | some v => .ok (c.wv d v)
    | none => .trap rangeTrap) s)

/-! ## Translation (R165) -/

/-- The ASCII and EBCDIC codes of Table 04-13: first ASCII, first EBCDIC, how many. -/
def romRuns : List (Nat × Nat × Nat) :=
  [(0x20, 0x40, 1), (0x30, 0xF0, 10), (0x41, 0xC1, 9), (0x4A, 0xD1, 9), (0x53, 0xE2, 8), (0x61, 0x81, 9), (0x6A, 0x91, 9), (0x73, 0xA2, 8),
   (0x2E, 0x4B, 1), (0x3C, 0x4C, 1), (0x28, 0x4D, 1), (0x2B, 0x4E, 1), (0x26, 0x50, 1), (0x2A, 0x5C, 1), (0x29, 0x5D, 1), (0x3B, 0x5E, 1),
   (0x2D, 0x60, 1), (0x2F, 0x61, 1), (0x2C, 0x6B, 1), (0x25, 0x6C, 1), (0x5F, 0x6D, 1), (0x3E, 0x6E, 1), (0x3F, 0x6F, 1),
   (0x3A, 0x7A, 1), (0x23, 0x7B, 1), (0x40, 0x7C, 1), (0x27, 0x7D, 1), (0x3D, 0x7E, 1), (0x22, 0x7F, 1)]

/-- T0: EBCDIC to ASCII; any other byte is SUB. -/
def toAscii (b : Byte) : Byte :=
  match romRuns.find? (fun r => decide (r.2.1 ≤ b.toNat ∧ b.toNat < r.2.1 + r.2.2)) with
  | some r => BitVec.ofNat 8 (r.1 + (b.toNat - r.2.1))
  | none => 0x1A

/-- T1: ASCII to EBCDIC; any other byte is SUB. -/
def toEbcdic (b : Byte) : Byte :=
  match romRuns.find? (fun r => decide (r.1 ≤ b.toNat ∧ b.toNat < r.1 + r.2.2)) with
  | some r => BitVec.ofNat 8 (r.2.1 + (b.toNat - r.1))
  | none => 0x3F

/-- One byte through Tn: the ROM tables, a selected table of those the job was admitted with (R328), or the identity (R165). -/
def Job.xlat (j : Job) (c : Ctx) (n : BitVec 3) (b : Byte) : Byte :=
  if n = 0 then toAscii b
  else if n = 1 then toEbcdic b
  else match (c.xlt.toList.getD (n.toNat - 2) none).bind (fun t => tget j.tables t) with
    | some t => t.getD b.toNat b
    | none => b

/-- XLAT (R166). -/
def execXlat (l : LaneId) (d a : GReg) (n : BitVec 3) (s : State) : Host.Outcome State Fault Refusal :=
  ok (laneStep l true [] (fun s j c =>
    (s, .ok (c.wg d (BitVec.ofNat 64 (leNat ((leBytes 8 (c.rg a).toNat).map (j.xlat c n))))))) s)

/-- XLATV (R166). -/
def execXlatv (l : LaneId) (d a : VReg) (n : BitVec 3) (s : State) : Host.Outcome State Fault Refusal :=
  ok (laneStep l true [d, a] (fun s j c => (s, .ok (c.wv d (blkOf ((blkBytes (c.rv a)).map (j.xlat c n)))))) s)

/-- XLT_SEL (R165). -/
def execXltSel (l : LaneId) (n : BitVec 3) (a : GReg) (s : State) : Host.Outcome State Fault Refusal :=
  ok (laneStep l true [] (fun s j c =>
    let t := (c.rg a).toNat % 65536
    if n.toNat < 2 || (tget j.tables t).isNone then (s, .trap (engineTrap St.accessFault 0x50))
    else (s, .ok { c with xlt := c.xlt.set (n.toNat - 2) (some t) (by have := n.isLt; omega) })) s)

/-! ## Check digits (R166) -/

/-- The Luhn sum of digits, least significant first; the flag says whether the next one is doubled. -/
def luhnSum : Bool → List Nat → Nat
  | _, [] => 0
  | dbl, d :: ds => (if dbl then (if 9 < 2 * d then 2 * d - 9 else 2 * d) else d) + luhnSum (!dbl) ds

/-- A check-digit instruction over unsigned packed digits. -/
def checkStep (l : LaneId) (d : GReg) (a : VReg) (f : List Nat → Nat → Word) (s : State) : State :=
  bankStep l true [a] (fun c =>
    match unsignedVal (c.rv a) with
    | some n => .ok (c.wg d (f (nibbles (c.rv a)).reverse n))
    | none => .trap digitTrap) s

/-- LUHN_GEN (R166). -/
def execLuhnGen (l : LaneId) (d : GReg) (a : VReg) (s : State) : Host.Outcome State Fault Refusal :=
  ok (checkStep l d a (fun ds _ => BitVec.ofNat 64 ((10 - luhnSum true ds % 10) % 10)) s)

/-- LUHN_CHK (R166). -/
def execLuhnChk (l : LaneId) (d : GReg) (a : VReg) (s : State) : Host.Outcome State Fault Refusal :=
  ok (checkStep l d a (fun ds _ => if luhnSum false ds % 10 = 0 then 1 else 0) s)

/-- M97_STEP (R166). -/
def execM97Step (l : LaneId) (d : GReg) (a : VReg) (b : GReg) (s : State) : Host.Outcome State Fault Refusal :=
  ok (bankStep l true [a] (fun c =>
    if 97 ≤ (c.rg b).toNat then .trap (engineTrap St.accessFault 0x60)
    else match unsignedVal (c.rv a) with
      | some n => .ok (c.wg d (BitVec.ofNat 64 (((c.rg b).toNat * 10 ^ 32 + n) % 97)))
      | none => .trap digitTrap) s)

/-- M97_GEN (R166). -/
def execM97Gen (l : LaneId) (d : GReg) (a : VReg) (s : State) : Host.Outcome State Fault Refusal :=
  ok (checkStep l d a (fun _ n => BitVec.ofNat 64 (98 - n * 100 % 97)) s)

/-- M97_CHK (R166). -/
def execM97Chk (l : LaneId) (d : GReg) (a : VReg) (s : State) : Host.Outcome State Fault Refusal :=
  ok (checkStep l d a (fun _ n => if n % 97 = 1 then 1 else 0) s)

end Sys2Proof.Machine
end

