-- ==== Sys2Proof/Machine/Programs.lean ====
section
/-! DEFINITION. Owner programs, bindings and record maps through the mailbox (R175 to R179, R256, R325 to R328). -/

namespace Sys2Proof.Machine

/-! ## Owner programs (R175, R177, R179) -/

/-- The header of a program from its first 128 bytes; any reserved bit set is kept as one flag (Table 04-16). -/
def parseHeader (b : Bytes) : Header :=
  let f (o n : Nat) : Nat := leNat ((b.drop o).take n)
  let world := f 0x08 1
  let flags := f 0x2A 2
  { magic := BitVec.ofNat 32 (f 0x00 4), program := BitVec.ofNat 16 (f 0x04 2), version := BitVec.ofNat 16 (f 0x06 2),
    hollow := world.testBit 0, personality := BitVec.ofNat 2 (world / 2), windowKib := f 0x09 1, block := f 0x0A 1, entry := f 0x0C 4,
    imageLen := f 0x10 4, constLen := f 0x14 4, lenMin := f 0x18 5, lenMax := f 0x20 5, padModes := BitVec.ofNat 16 (f 0x28 2),
    outFree := flags.testBit 0, decrypt := flags.testBit 1, cs3 := flags.testBit 2, res := flags.testBit 3,
    argFix := f 0x2C 2, argVar := f 0x2E 2, argMax := f 0x30 2, resOff := f 0x32 2, resLen := f 0x34 2,
    resources := BitVec.ofNat 5 (f 0x36 2), key0Spec := BitVec.ofNat 64 (f 0x38 8), key1Spec := BitVec.ofNat 64 (f 0x40 8),
    argRsv := BitVec.ofNat 128 (f 0x48 16),
    rsv := world / 8 != 0 || f 0x0B 1 != 0 || f 0x1D 3 != 0 || f 0x25 3 != 0 || flags / 16 != 0 || f 0x36 2 / 32 != 0 ||
      ((b.drop 0x58).take 0x28).any (· != 0) }

/-- The header of a program as sent (R175). -/
def progHeader (p : ProgImage) : Header := parseHeader p.file

/-- Header, image and constants: what is signed and measured (R177, R178). -/
def progBytes (p : ProgImage) : Bytes := p.file.take (128 + (progHeader p).imageLen + (progHeader p).constLen)

/-- A signature block (R177). -/
structure SigBlock where
  alg : Nat
  index : Nat
  rsv : Bool
  sig : Bytes
deriving DecidableEq, Repr

/-- The signature block after the constants, from an 8-byte boundary: SIG_ALG, KEY_INDEX, 2 reserved bytes, SIG_LEN, the signature; none where the body ends before it (R177). -/
def progSig (p : ProgImage) : Option SigBlock :=
  let b := p.file.drop ((128 + (progHeader p).imageLen + (progHeader p).constLen + 7) / 8 * 8)
  let n := leNat ((b.drop 4).take 4)
  if b.length < 8 + n then none
  else some { alg := (b.getD 0 0).toNat, index := (b.getD 1 0).toNat, rsv := b.getD 2 0 != 0 || b.getD 3 0 != 0, sig := (b.drop 8).take n }

/-- A header of an owner program that breaks Table 04-16, or does not name the ID of the request. -/
def headerBad (h : Header) (id : Nat) : Bool :=
  h.rsv || h.magic != 0x47494E31 || h.program.toNat != id || decide (id < 0x1000) || h.hollow || h.personality == 0 ||
  decide (h.windowKib < 1) || decide (16 < h.windowKib) || (h.block != 8 && h.block != 16) ||
  h.entry % 4 != 0 || decide (h.imageLen ≤ h.entry) || h.imageLen % 4 != 0 || decide (2 ^ 20 < h.imageLen) || decide (2 ^ 22 < h.constLen) ||
  decide (2 ^ 40 ≤ h.lenMin) || decide (2 ^ 40 ≤ h.lenMax) || decide (64 ≤ h.padModes.toNat) ||
  decide (0x80 < h.argFix) || (h.argVar != 0xFFFF && decide (h.argFix < h.argVar + 4)) || decide (h.windowKib * 1024 < h.argMax) ||
  decide (256 < h.resLen) || h.key0Spec.toNat % 4 == 3 || h.key1Spec.toNat % 4 == 3 ||
  decide (2 ^ 35 ≤ h.key0Spec.toNat) || decide (2 ^ 35 ≤ h.key1Spec.toNat)

/-- The signature of a program verifies against the program-signing key it names (R177). -/
def State.progSigned (s : State) (p : ProgImage) : Bool :=
  (progSig p).any (fun g => s.quarry.progKeys.any (fun k => k.1 == g.index && k.2.1 == g.alg && Config.verify g.alg k.2.2 (progBytes p) g.sig))

/-- Key-store slots of an image and its constants (R179, R277). -/
def progSlots (h : Header) : Nat := (h.imageLen + h.constLen + 127) / 128

/-- The program as held: its header, its measurement, its slots, its image and constants (R178, R179). -/
def progOf (p : ProgImage) : Program :=
  let h := progHeader p
  { header := h, measure := Config.sha3 (progBytes p), slots := progSlots h, version := h.version.toNat, image := (progBytes p).drop 128 }

/-- What refuses a load or a replacement (R179). -/
def State.progRefused (s : State) (inst id : Nat) (p : ProgImage) (replace : Bool) : Option (BitVec 7) :=
  match s.inst inst with
  | none => some St.descInvalid
  | some x =>
    let old := tget x.progs id
    if !s.progSigned p then some St.authFail
    else if headerBad (progHeader p) id || (progSig p).any (·.rsv) || old.isSome != replace then some St.descInvalid
    else if !s.slotRoom inst (progSlots (progHeader p) - old.elim 0 (·.slots)) || (!replace && decide (256 ≤ x.progs.length)) then some St.quota
    else none

/-- PROG_LOAD or PROG_REPLACE: checked, measured by the custody firmware, staged (R178, R179). -/
def State.requestProg (s : State) (rq : Req) (mtype id : Nat) (p : ProgImage) (replace : Bool) : State :=
  s.request rq mtype true (fun (t : State) =>
    match t.progRefused (srcInst rq.src) id p replace with
    | some st => t.answer rq mtype st
    | none => t.stage (.progSet (srcInst rq.src) id (progOf p) (replyTo rq) rq.tag mtype))

/-- PROG_LOAD (R179). -/
def execProgLoad (rq : Req) (id : Nat) (image : ProgImage) (s : State) : Host.Outcome State Fault Refusal :=
  ok (s.requestProg rq 0x20 id image false)

/-- PROG_REPLACE (R179). -/
def execProgReplace (rq : Req) (id : Nat) (image : ProgImage) (s : State) : Host.Outcome State Fault Refusal :=
  ok (s.requestProg rq 0x21 id image true)

/-- PROG_REMOVE (R179). -/
def execProgRemove (rq : Req) (id : Nat) (s : State) : Host.Outcome State Fault Refusal :=
  ok (s.request rq 0x22 false (fun t =>
    if (((t.inst (srcInst rq.src)).bind (fun x => tget x.progs id))).isNone then t.answer rq 0x22 St.descInvalid
    else t.stage (.progRemove (srcInst rq.src) id (replyTo rq) rq.tag)))

/-- The ROM programs and the owner programs of an instance: ID, VERSION, measurement (R178). -/
def State.progEntries (s : State) (inst : Nat) : List (Nat × Nat × Dig) :=
  romIds.map (fun i => (i, 0, Config.romMeasure i)) ++
  ((s.inst inst).elim [] (fun x => x.progs.map (fun e => (e.1, e.2.version, e.2.measure))))

/-- PROG_LIST (R179). -/
def execProgList (rq : Req) (outAddr : Word) (outLen : Nat) (s : State) : Host.Outcome State Fault Refusal :=
  ok (s.request rq 0x23 false (fun t =>
    t.putOut rq 0x23 outAddr outLen (Config.progList (t.progEntries (srcInst rq.src))) (fun (u : State) => u.answer rq 0x23 St.ok)))

/-! ## Bindings (R178, R256) -/

/-- A binding-table entry some node refers to, a shadow included; it is retained (R256). -/
def Inst.bindUsed (x : Inst) (k : Nat) : Bool :=
  x.dir.any (fun e => e.2.node.elim false (fun n => n.bind == k) || e.2.shadows.any (fun n => n.bind == k))

/-- Binding indices taken by staged additions of an instance. -/
def State.bindStaged (s : State) (inst : Nat) : List Nat :=
  s.staged.filterMap (fun c => match c with | .bindAdd i k _ _ _ => if i = inst then some k else none | _ => none)

/-- The entry a new binding takes: the lowest free index from 1 to 255, else the lowest no node refers to. -/
def State.bindSlot (s : State) (inst : Nat) : Option Nat :=
  match s.inst inst with
  | none => none
  | some x =>
    let ks := ((List.range 255).map (· + 1)).filter (fun k => !(s.bindStaged inst).contains k)
    (ks.find? (fun k => (tget x.binds k).isNone)).or (ks.find? (fun k => !x.bindUsed k))

/-- The measurement a BIND_ADD names: given, or that of a ROM program or a loaded owner program (R178). -/
def State.bindMeasure (s : State) (inst : Nat) (measured : Bool) (program : Nat) (measure : Dig) : Option Dig :=
  if measured then some measure
  else if program < 0x1000 then (if (romHeader program).isSome then some (Config.romMeasure program) else none)
  else ((s.inst inst).bind (fun x => tget x.progs program)).map (·.measure)

/-- BIND_ADD (R256). -/
def execBindAdd (rq : Req) (measured : Bool) (program : Nat) (measure : Dig) (s : State) : Host.Outcome State Fault Refusal :=
  ok (s.request rq 0x24 false (fun t =>
    let i := srcInst rq.src
    match t.bindMeasure i measured program measure, t.bindSlot i with
    | none, _ => t.answer rq 0x24 St.descInvalid
    | some _, none => t.answer rq 0x24 St.quota
    | some m, some k => t.stage (.bindAdd i k m (replyTo rq) rq.tag)))

/-! ## Record maps (Tables 08-12, 08-13, R326) -/

/-- The number in a field of an extended body, by its offset and bytes. -/
def extField (b : Bytes) (o n : Nat) : Nat := leNat ((b.drop o).take n)

/-- A field entry of a map, read from its 16 bytes (Table 08-13). -/
def parseField (b : Bytes) : MapField :=
  { offset := extField b 0 2, length := extField b 2 2, enc := extField b 4 1, role := extField b 5 1, macData := extField b 6 1 % 2 == 1,
    rsv := extField b 6 10 / 2 != 0 }

/-- Field entries the header announces, as far as the body holds them. -/
def mapFields (b : Bytes) : Nat := min (extField b 8 1) ((b.length - 64) / 16)

/-- A record map, read from an extended body (Table 08-12). -/
def parseMap (b : Bytes) : RecMap :=
  { magic := BitVec.ofNat 32 (extField b 0 4), mapId := extField b 4 1, charset := extField b 5 1, recLen := extField b 6 2,
    ops := BitVec.ofNat 5 (extField b 9 1), macAlg := extField b 10 1, macLen := extField b 11 1, pinIn := extField b 12 1 % 16,
    pinOut := extField b 12 1 / 16, macKey1 := extField b 13 1 % 2 == 1, key0 := BitVec.ofNat 64 (extField b 16 8),
    key1 := BitVec.ofNat 64 (extField b 24 8),
    fields := (List.range (mapFields b)).map (fun i => parseField ((b.drop (64 + 16 * i)).take 16)),
    rsv := extField b 9 1 / 32 != 0 || extField b 13 3 / 2 != 0 || extField b 32 32 != 0 }

/-- The tables that follow a map of so many field entries, 264 bytes each (R327). -/
def parseTables (b : Bytes) (n : Nat) : List (Nat × Bytes) :=
  let t := b.drop (64 + 16 * n)
  (List.range (t.length / 264)).map (fun k => (extField t (264 * k) 2, (t.drop (264 * k + 8)).take 256))

/-- The byte at an offset has bits outside those its fields use. -/
def strayAt (b : Bytes) (o used : Nat) : List (Option Nat) := if (b.getD o 0).toNat / 2 ^ used = 0 then [] else [some o]

/-- Reserved bits that are not zero, and a body that ends early or with bytes that are no table (R325, R327). -/
def shapeFaults (b : Bytes) (m : RecMap) : List (Option Nat) :=
  let n := m.fields.length
  let t := b.length - (64 + 16 * n)
  (if b.length < 64 ∨ n < extField b 8 1 then [some b.length] else []) ++
  strayAt b 9 5 ++ strayAt b 13 1 ++ (List.range 2).flatMap (fun k => strayAt b (14 + k) 0) ++ (List.range 32).flatMap (fun k => strayAt b (32 + k) 0) ++
  (List.range n).flatMap (fun i => strayAt b (64 + 16 * i + 6) 1 ++ (List.range 9).flatMap (fun k => strayAt b (64 + 16 * i + 7 + k) 0)) ++
  (List.range (t / 264)).flatMap (fun k => (List.range 6).flatMap (fun j => strayAt b (64 + 16 * n + 264 * k + 2 + j) 0)) ++
  (if t % 264 = 0 then [] else [some (64 + 16 * n + t / 264 * 264)])

/-- Offset of byte k of field entry i in the extended body. -/
def fieldAtByte (i k : Nat) : Option Nat := some (64 + 16 * i + k)

/-- A field's encoding is text. -/
def fieldText (f : MapField) : Bool := f.enc == 1 || f.enc == 2

/-- Digits a field can hold: one per character or zoned byte, two per packed byte less the sign. -/
def fieldDigits (f : MapField) : Nat := if f.enc = 3 then 2 * f.length - 1 else f.length

/-- A field holds n binary bytes, or 2n characters of hexadecimal text. -/
def fieldHolds (f : MapField) (n : Nat) : Bool :=
  (f.enc == 5 && f.length == n) || (fieldText f && f.length == 2 * n)

/-- Two fields overlap. -/
def fieldsMeet (a b : MapField) : Bool := decide (a.offset < b.offset + b.length) && decide (b.offset < a.offset + a.length)

/-- Faults of one entry by itself and against earlier entries: each at the first byte of the field it concerns. -/
def entryFaults (m : RecMap) (i : Nat) (f : MapField) : List (Option Nat) :=
  (if m.recLen ≤ f.offset then [fieldAtByte i 0] else []) ++
  (if f.length = 0 ∨ (f.offset < m.recLen ∧ m.recLen < f.offset + f.length) then [fieldAtByte i 2] else []) ++
  (if (m.fields.take i).any (fieldsMeet f) then [fieldAtByte i 0] else []) ++
  (if f.enc < 1 ∨ 5 < f.enc then [fieldAtByte i 4] else []) ++
  (if 7 < f.role then [fieldAtByte i 5] else []) ++
  (if (f.enc = 3 ∨ f.enc = 4) ∧ 16 < f.length then [fieldAtByte i 2] else []) ++
  (if f.enc = 5 ∧ 8 < f.length ∧ f.role ≠ 5 ∧ f.role ≠ 6 then [fieldAtByte i 2] else [])

/-- Entries of a role with their numbers. -/
def roleOf (m : RecMap) (r : Nat) : List (Nat × MapField) := (m.fields.zipIdx.map (fun e => (e.2, e.1))).filter (fun e => e.2.role == r)

/-- Exactly one entry of a role: a missing one has no byte, each further one is at fault. -/
def oneOf (m : RecMap) (r : Nat) : List (Option Nat) :=
  match roleOf m r with
  | [] => [none]
  | _ :: more => more.map (fun e => fieldAtByte e.1 5)

/-- Entries of a role that fail a test, at a byte of the entry. -/
def eachOf (m : RecMap) (r k : Nat) (good : MapField → Bool) : List (Option Nat) :=
  (roleOf m r).filterMap (fun e => if good e.2 then none else some (fieldAtByte e.1 k))

/-- The RESULT_CODE field (R326). -/
def resultFaults (m : RecMap) : List (Option Nat) :=
  oneOf m 7 ++ eachOf m 7 2 (fun f => f.length == 2) ++ eachOf m 7 4 (fun f => f.enc == m.charset)

/-- The fields of a total (R326). -/
def totalFaults (m : RecMap) : List (Option Nat) :=
  if !m.ops.getLsbD 3 then []
  else
    (if (roleOf m 1) = [] then [none] else []) ++ ((roleOf m 1).drop 16).map (fun e => fieldAtByte e.1 5) ++ oneOf m 2 ++
    eachOf m 1 4 (fun f => decide (3 ≤ f.enc)) ++ eachOf m 2 4 (fun f => decide (3 ≤ f.enc))

/-- A PIN block format uses the PAN (R170). -/
def usesPan (fmt : Nat) : Bool := fmt == 0 || fmt == 3 || fmt == 4

/-- PAN and ACCOUNT fields, where the map's operations use them (R326). -/
def digitFaults (m : RecMap) : List (Option Nat) :=
  let pin := m.ops.getLsbD 0 && (usesPan m.pinIn || usesPan m.pinOut)
  (if m.ops.getLsbD 2 && roleOf m 3 = [] && roleOf m 4 = [] then [none] else []) ++
  (if pin && roleOf m 3 = [] then [none] else []) ++
  (if m.ops.getLsbD 2 || pin then eachOf m 3 2 (fun f => decide (12 ≤ fieldDigits f) && decide (fieldDigits f ≤ 19)) ++ eachOf m 3 4 (fun f => f.enc != 5)
   else []) ++
  (if m.ops.getLsbD 2 then eachOf m 4 4 (fun f => f.enc != 5) else [])

/-- The formats known (Table 08-12). -/
def pinFormat (fmt : Nat) : Bool := fmt == 0 || fmt == 1 || fmt == 3 || fmt == 4

/-- The bytes of a PIN block of a format (R170). -/
def pinBytes (fmt : Nat) : Nat := if fmt = 4 then 16 else 8

/-- PIN translation (R170, R326). -/
def pinFaults (m : RecMap) : List (Option Nat) :=
  if !m.ops.getLsbD 0 then []
  else
    (if !pinFormat m.pinIn || !pinFormat m.pinOut || (m.pinOut == 1 && m.pinIn != 1) then [some 0x0C] else []) ++ oneOf m 5 ++
    eachOf m 5 2 (fun f => fieldHolds f (max (pinBytes m.pinIn) (pinBytes m.pinOut))) ++ eachOf m 5 4 (fun f => fieldText f || f.enc == 5) ++
    (if m.ops.getLsbD 1 || m.ops.getLsbD 4 then [some 0x09] else [])

/-- MAC verification and generation, the key apart (R326). -/
def macFaults (m : RecMap) : List (Option Nat) :=
  if !m.ops.getLsbD 1 && !m.ops.getLsbD 4 then []
  else
    (if m.macAlg < 1 ∨ 3 < m.macAlg then [some 0x0A] else []) ++
    (if m.macLen < 4 ∨ (if m.macAlg = 3 then 16 else 8) < m.macLen then [some 0x0B] else []) ++ oneOf m 6 ++
    eachOf m 6 2 (fun f => fieldHolds f m.macLen) ++ eachOf m 6 4 (fun f => fieldText f || f.enc == 5) ++
    (if m.fields.any (fun f => f.macData) then [] else [none])

/-- A key the map names: of the instance, with usage RECORD, and what the operations ask of it (R326). -/
def State.mapKeyFaults (s : State) (inst : Nat) (m : RecMap) (second : Bool) : List (Option Nat) :=
  let h := if second then m.key1 else m.key0
  let pin := m.ops.getLsbD 0
  let mac := (m.ops.getLsbD 1 || m.ops.getLsbD 4) && m.macKey1 == second
  let at_ : List (Option Nat) := [some (if second then 0x18 else 0x10)]
  if hType h = 0 then (if pin || mac then at_ else [])
  else match s.checkHandle inst h, s.node (hInst h) (hNode h) with
    | none, some n =>
      if !(n.may uRecord) || (pin && !(n.may uPin)) ||
         (mac && ((m.ops.getLsbD 1 && !(n.may uMacVer)) || (m.ops.getLsbD 4 && !(n.may uMacGen)) ||
           !(if m.macAlg = 3 then isAes n.ktype else isTdea n.ktype))) then at_
      else []
    | _, _ => at_

/-- The tables that follow a map (R327). -/
def tableFaults (m : RecMap) (ts : List (Nat × Bytes)) : List (Option Nat) :=
  let base := 64 + 16 * m.fields.length
  (ts.zipIdx.filterMap (fun t => if t.1.1 < 0x100 then some (some (base + 264 * t.2)) else none)) ++
  (if 64 < ts.length then [some (base + 264 * 64)] else [])

/-- Every fault of a map: offsets in the extended body, none where no byte shows it (R326). -/
def State.mapFaults (s : State) (inst : Nat) (m : RecMap) (ts : List (Nat × Bytes)) : List (Option Nat) :=
  (if m.magic ≠ 0x4D415031 then [some 0] else []) ++ (if m.charset ≠ 1 ∧ m.charset ≠ 2 then [some 5] else []) ++
  (if m.recLen < 1 ∨ 4096 < m.recLen then [some 6] else []) ++ (if m.fields = [] ∨ 128 < m.fields.length then [some 8] else []) ++
  (m.fields.zipIdx.flatMap (fun e => entryFaults m e.2 e.1)) ++ resultFaults m ++ totalFaults m ++
  digitFaults m ++ pinFaults m ++ macFaults m ++ s.mapKeyFaults inst m false ++ s.mapKeyFaults inst m true ++ tableFaults m ts

/-- The lowest of a list of offsets. -/
def lowest : List Nat → Option Nat
  | [] => none
  | a :: as => some (as.foldl min a)

/-- Refuse a map: the offset of the first offending byte, a free value where no byte shows the fault (R326, log 9). -/
def State.refuseMap (s : State) (rq : Req) (faults : List (Option Nat)) : State :=
  match lowest (faults.filterMap id) with
  | some o => s.reply (replyTo rq) 0x28 St.descInvalid rq.tag (leBytes 4 o)
  | none =>
    let r := s.take 32
    r.2.reply (replyTo rq) 0x28 St.descInvalid rq.tag (leBytes 4 r.1.toNat)

/-- An instance of the record channel. -/
def State.isRecord (s : State) (inst : Nat) : Bool := (s.inst inst).elim false (fun x => x.share.personality == 2)

/-- Tables after an installation (R327). -/
def addTables (have_ : Table Bytes) (ts : List (Nat × Bytes)) : Table Bytes := ts.foldl (fun t e => tset t e.1 e.2) have_

/-- An instance's tables stay at most 64 with these (R327). -/
def State.tablesFit (s : State) (inst : Nat) (ts : List (Nat × Bytes)) : Bool :=
  decide ((addTables ((s.inst inst).elim [] (·.tables)) ts).length ≤ 64)

/-- MAP_INSTALL (R326). -/
def execMapInstall (rq : Req) (ext : Bytes) (token : Token) (s : State) : Host.Outcome State Fault Refusal :=
  ok (s.request rq 0x28 true (fun t =>
    let i := srcInst rq.src
    if !t.isRecord i then t.answer rq 0x28 St.descInvalid
    else
      let map := parseMap ext
      let tables := parseTables ext map.fields.length
      let faults := shapeFaults ext map ++ t.mapFaults i map tables
      if faults ≠ [] then t.refuseMap rq faults
      else if !t.tablesFit i tables then t.answer rq 0x28 St.quota
      else t.withToken rq 0x28 3 (t.threshold 3) token [] ext (fun (u : State) => u.stage (.mapInstall i map tables (replyTo rq) rq.tag))))

/-- MAP_REMOVE (R328). -/
def execMapRemove (rq : Req) (id : Nat) (s : State) : Host.Outcome State Fault Refusal :=
  ok (s.request rq 0x29 false (fun t =>
    let i := srcInst rq.src
    if !t.isRecord i || ((t.inst i).bind (fun x => tget x.maps id)).isNone then t.answer rq 0x29 St.descInvalid
    else t.stage (.mapRemove i id (replyTo rq) rq.tag)))

end Sys2Proof.Machine
end

