-- ==== Sys2Proof/Machine/Pins.lean ====
section
/-! DEFINITION. PIN blocks of ISO 9564-1 in formats 0, 1, 3 and 4, their translation, and the keys of AES DUKPT (R170, R171; PRESUMED from the standards the rules name, log 145, 146). -/

namespace Sys2Proof.Config

/-- The usage indicator under which a DUKPT program derives its working key, of those ANSI X9.24-3 assigns: the spec does not say which (R171; free value, log 146). -/
opaque dukptUsage (program : Nat) : Nat

/-- The PAN of a DUKPT PIN translation, from its argument block: Table 04-15 gives it no place (R171; free value, log 146). -/
opaque dukptPan (arg : Bytes) : List Nat

end Sys2Proof.Config

namespace Sys2Proof.Machine

/-! ## PIN blocks (R170, ISO 9564-1) -/

/-- The nibbles of bytes, most significant first. -/
def nibblesOf (bs : Bytes) : List Nat := bs.flatMap (fun b => [b.toNat / 16, b.toNat % 16])

/-- The bytes of nibbles, two by two. -/
def bytesOfNibbles : List Nat → Bytes
  | a :: b :: rest => BitVec.ofNat 8 (16 * a + b) :: bytesOfNibbles rest
  | [a] => [BitVec.ofNat 8 (16 * a)]
  | [] => []

/-- The PAN field of formats 0 and 3: four zeros, then the twelve digits left of the check digit. -/
def panField0 (pan : List Nat) : Bytes :=
  let ds := pan.dropLast
  bytesOfNibbles (List.replicate 4 0 ++ List.replicate (12 - ds.length) 0 ++ ds.drop (ds.length - 12))

/-- The PAN field of format 4: the digits beyond twelve, the PAN, zeros. -/
def panField4 (pan : List Nat) : Bytes :=
  padTo 16 (bytesOfNibbles ((pan.length - 12) :: (List.replicate (12 - pan.length) 0 ++ pan)))

/-- The clear PIN field of an enciphered block (R170). -/
def pinClear (fmt : Nat) (c : BlockFn) (pan : List Nat) (block : Bytes) : List Nat :=
  let x := c.dec block
  if fmt = 0 ∨ fmt = 3 then nibblesOf (xorBytes x (panField0 pan))
  else if fmt = 4 then nibblesOf (c.dec (xorBytes x (panField4 pan)))
  else nibblesOf x

/-- The fill of a format that must conform: F for format 0, A to F for 3, A for 4; format 1 carries any (R170). -/
def pinFill (fmt : Nat) (fill : List Nat) : Bool :=
  if fmt = 0 then fill.all (· == 15) else if fmt = 3 then fill.all (fun n => decide (10 ≤ n)) else if fmt = 4 then fill.all (· == 10) else true

/-- The PIN of a clear field: control field, 4 to 12 decimal digits, fill; none where one does not conform (R170). -/
def pinOf (fmt : Nat) (f : List Nat) : Option (List Nat) :=
  let n := f.getD 1 0
  let ds := (f.drop 2).take n
  if f.getD 0 16 == fmt && decide (4 ≤ n) && decide (n ≤ 12) && ds.all (fun d => decide (d ≤ 9)) && pinFill fmt ((f.drop (2 + n)).take (14 - n))
  then some ds else none

/-- The clear field of a PIN: control, length, digits and fill, random where the format asks for it (R170). -/
def pinField (fmt : Nat) (pin random : List Nat) : List Nat :=
  let n := 14 - pin.length
  let fill :=
    if fmt = 0 then List.replicate n 15
    else if fmt = 1 then random.take n
    else if fmt = 3 then (random.take n).map (fun x => 10 + x % 6)
    else List.replicate n 10 ++ (random.drop n).take 16
  fmt :: pin.length :: pin ++ fill

/-- The enciphered block of a PIN (R170). -/
def pinBlock (fmt : Nat) (c : BlockFn) (pan pin random : List Nat) : Bytes :=
  let x := bytesOfNibbles (pinField fmt pin random)
  if fmt = 0 ∨ fmt = 3 then c.enc (xorBytes x (panField0 pan))
  else if fmt = 4 then c.enc (xorBytes (c.enc x) (panField4 pan))
  else c.enc x

/-- A translation R170 allows: between known formats, to format 1 from format 1 alone. -/
def pinAllowed (from_ to_ : Nat) : Bool := pinFormat from_ && pinFormat to_ && (to_ != 1 || from_ == 1)

/-- A key of a format: AES for format 4, TDEA for the others (R170). -/
def pinKeyOk (fmt : Nat) (t : BitVec 8) : Bool := if fmt = 4 then isAes t else isTdea t

/-- Translate a block; none where it does not conform (R170). -/
def pinTranslate (from_ to_ : Nat) (ci co : BlockFn) (pan random : List Nat) (block : Bytes) : Option Bytes :=
  (pinOf from_ (pinClear from_ ci pan block)).map (fun pin => pinBlock to_ co pan pin random)

/-! ## AES DUKPT (R171, ANSI X9.24-3) -/

/-- The algorithm indicator of an AES key of so many bytes. -/
def aesIndicator (bytes : Nat) : Nat := if bytes = 16 then 2 else if bytes = 24 then 3 else 4

/-- One block of derivation data: version, block number, usage, algorithm, bits, then 8 bytes. -/
def dukptData (i usage bytes : Nat) (tail : Bytes) : Bytes :=
  [0x01, BitVec.ofNat 8 i] ++ beBytes 2 usage ++ beBytes 2 (aesIndicator bytes) ++ beBytes 2 (8 * bytes) ++ tail

/-- A key of so many bytes derived under another. -/
def dukptKey (key : Bytes) (usage bytes : Nat) (tail : Bytes) : Bytes :=
  (((List.range ((bytes + 15) / 16)).flatMap (fun i => aesEnc key (dukptData (i + 1) usage bytes tail)))).take bytes

/-- The derivation keys along the counter's set bits, highest first: key and counter so far. -/
def dukptWalk (id : Bytes) (ctr bytes : Nat) : Nat → Bytes × Nat → Bytes × Nat
  | 0, r => r
  | n + 1, (key, sofar) =>
    dukptWalk id ctr bytes n
      (if ctr.testBit n then (dukptKey key 0x8000 bytes (id.drop 4 ++ beBytes 4 (sofar + 2 ^ n)), sofar + 2 ^ n) else (key, sofar))

/-- The working key of a KSN: initial key, the walk over the counter, the key for a usage (R171). -/
def dukptWorking (bdk ksn : Bytes) (usage bytes : Nat) : Bytes :=
  let id := ksn.take 8
  let ctr := beNat ((ksn.drop 8).take 4)
  let first := dukptKey bdk 0x8001 bdk.length id
  dukptKey (dukptWalk id ctr bdk.length 32 (first, 0)).1 usage bytes (id.drop 4 ++ beBytes 4 ctr)

/-- Set bits of a counter. -/
def bitCount (x : Nat) : Nat := ((List.range 32).filter x.testBit).length

/-- A transaction counter R171 refuses: 0, or more than 16 bits set. -/
def ksnBad (ksn : Bytes) : Bool :=
  let ctr := beNat ((ksn.drop 8).take 4)
  ctr == 0 || decide (16 < bitCount ctr)

end Sys2Proof.Machine
end

