-- ==== Sys2Proof/Machine/Records.lean ====
section
/-! DEFINITION. The record interpreter, program 0x00C0: the operations of a record map in their order and the response record (R172 to R174, R324 to R326). -/

namespace Sys2Proof.Config

/-- Whether a record MAC of ISO/IEC 9797-1 is padded with 0x80 and zeros or with zeros alone: the spec does not say (R173; free value, log 148). -/
opaque macMarked : Bool

end Sys2Proof.Config

namespace Sys2Proof.Machine

/-! ## Fields (R173, Table 08-13) -/

/-- The bytes of a field. -/
def fieldBytes (f : MapField) (rec : Bytes) : Bytes := (rec.drop f.offset).take f.length

/-- The record with a field's first bytes written. -/
def fieldWrite (f : MapField) (rec data : Bytes) : Bytes :=
  let d := data.take f.length
  rec.take f.offset ++ d ++ rec.drop (f.offset + d.length)

/-- Fields of a role in record order. -/
def fieldsOf (m : RecMap) (role : Nat) : List MapField :=
  sortBy (fun a b => decide (a.offset ≤ b.offset)) (m.fields.filter (fun f => f.role == role))

/-- Bytes as DLD loads them (R164). -/
def dldOf (bs : Bytes) : Blk := blkOf (zeros (16 - bs.length) ++ bs)

/-- The record is EBCDIC. -/
def ebcdicOf (m : RecMap) : Bool := m.charset == 1

/-- The value of a decimal or binary field; none where it cannot be decoded (R173; log 148). -/
def fieldValue (m : RecMap) (f : MapField) (rec : Bytes) : Option Int :=
  let bs := fieldBytes f rec
  match f.enc with
  | 3 => packedVal (dldOf bs)
  | 4 => zonedSigned (ebcdicOf m) (dldOf bs)
  | 5 => some (if f.length = 8 then (BitVec.ofNat 64 (beNat bs)).toInt else (beNat bs : Int))
  | 1 => (zonedVal 0xF (dropFill 0x40 bs)).map (fun n => (n : Int))
  | _ => (zonedVal 0x3 (dropFill 0x20 bs)).map (fun n => (n : Int))

/-- Decimal digits of a number, at least k of them. -/
def digitsAtLeast (k n : Nat) : List Nat :=
  let ds := (digitsOf 40 n).dropWhile (· == 0)
  List.replicate (k - ds.length) 0 ++ ds

/-- The digits of a PAN: a text's as they stand, those of a packed or zoned number, 12 at least (log 148). -/
def panDigits (m : RecMap) (f : MapField) (rec : Bytes) : Option (List Nat) :=
  (fieldValue m f rec).map (fun v =>
    if fieldText f then (dropFill (spaceOf (f.enc == 1)) (fieldBytes f rec)).map (fun b => b.toNat % 16) else digitsAtLeast 12 v.natAbs)

/-- A hexadecimal character of the record's set, in either case (R326). -/
def recHexDigit (ebcdic : Bool) (b : Byte) : Option Nat :=
  let n := b.toNat
  if ebcdic then
    (if 0xF0 ≤ n ∧ n ≤ 0xF9 then some (n - 0xF0) else if 0xC1 ≤ n ∧ n ≤ 0xC6 then some (n - 0xC1 + 10)
     else if 0x81 ≤ n ∧ n ≤ 0x86 then some (n - 0x81 + 10) else none)
  else
    (if 0x30 ≤ n ∧ n ≤ 0x39 then some (n - 0x30) else if 0x41 ≤ n ∧ n ≤ 0x46 then some (n - 0x41 + 10)
     else if 0x61 ≤ n ∧ n ≤ 0x66 then some (n - 0x61 + 10) else none)

/-- A hexadecimal character of the record's set, upper case (R326). -/
def recHexChar (ebcdic : Bool) (n : Nat) : Byte :=
  BitVec.ofNat 8 (if n < 10 then (if ebcdic then 0xF0 else 0x30) + n else (if ebcdic then 0xC1 else 0x41) + (n - 10))

/-- The binary content of a field: its bytes, or what its hexadecimal text spells; none where a character is no digit (R326). -/
def fieldBinary (m : RecMap) (f : MapField) (rec : Bytes) : Option Bytes :=
  if f.enc = 5 then some (fieldBytes f rec)
  else
    let ds := (fieldBytes f rec).map (recHexDigit (ebcdicOf m))
    if ds.all Option.isSome then some (bytesOfNibbles (ds.map (·.getD 0))) else none

/-- Binary content as a field holds it. -/
def fieldEncode (m : RecMap) (f : MapField) (data : Bytes) : Bytes :=
  if f.enc = 5 then data else (nibblesOf data).map (recHexChar (ebcdicOf m))

/-! ## MACs (R173) -/

/-- A message padded for a CBC MAC. -/
def macPadded (msg : Bytes) : Bytes :=
  if Config.macMarked then toMultiple 8 (msg ++ [0x80]) else if msg = [] then zeros 8 else toMultiple 8 msg

/-- ISO/IEC 9797-1 MAC algorithm 1 with TDEA. -/
def macOne (key msg : Bytes) : Bytes := (cbcEnc (tdeaEnc key) (zeros 8) (inBlocks 8 (macPadded msg))).getLastD (zeros 8)

/-- ISO/IEC 9797-1 MAC algorithm 3: single DES under the first key up to the last block, which all keys encipher. -/
def macThree (key msg : Bytes) : Bytes :=
  let one := key.take 8 ++ key.take 8 ++ key.take 8
  let xs := inBlocks 8 (macPadded msg)
  tdeaEnc key (xorBytes ((cbcEnc (tdeaEnc one) (zeros 8) (xs.take (xs.length - 1))).getLastD (zeros 8)) (xs.getLastD (zeros 8)))

/-- The MAC of a record: over its MAC_DATA fields in record order, MAC_LEN bytes (R173). -/
def recordMac (m : RecMap) (key rec : Bytes) : Bytes :=
  let msg := (sortBy (fun (a b : MapField) => decide (a.offset ≤ b.offset)) (m.fields.filter (·.macData))).flatMap (fun f => fieldBytes f rec)
  (if m.macAlg = 1 then macOne key msg else if m.macAlg = 2 then macThree key msg else cmac (aesFn key) msg).take m.macLen

/-! ## The operations (R173) -/

/-- What an operation meets: it passes, fails with its result code, or ends the job. -/
inductive RecRes where
  | pass
  | fail (code : Nat)
  | stop (st : BitVec 7)
deriving DecidableEq, Repr

/-- The keys of a map: type and value of KEY0 and KEY1. -/
structure RecKeys where
  t0 : BitVec 8
  k0 : Bytes
  t1 : BitVec 8
  k1 : Bytes
deriving DecidableEq, Repr

/-- PIN translation: the record after it; a malformed block is left as it stands, a longer field keeps open bytes beyond the new block (R173, R174; log 148). -/
def recPin (m : RecMap) (ks : RecKeys) (random : List Nat) (open_ rec : Bytes) : RecRes × Bytes :=
  if !m.ops.getLsbD 0 then (.pass, rec)
  else if !pinAllowed m.pinIn m.pinOut then (.stop St.descInvalid, rec)
  else if !pinKeyOk m.pinIn ks.t0 || !pinKeyOk m.pinOut ks.t1 then (.stop St.keyAttrDenied, rec)
  else match fieldsOf m 5 with
    | [] => (.pass, rec)
    | f :: _ =>
      let pan := (fieldsOf m 3).head?.map (fun p => panDigits m p rec)
      match fieldBinary m f rec, pan with
      | none, _ => (.stop St.descInvalid, rec)
      | _, some none => (.stop St.descInvalid, rec)
      | some b, p =>
        match pinTranslate m.pinIn m.pinOut (cipherFn ks.t0 ks.k0) (cipherFn ks.t1 ks.k1) ((p.bind id).getD []) random (b.take (pinBytes m.pinIn)) with
        | none => (.fail 12, rec)
        | some out => (.pass, fieldWrite f rec (fieldEncode m f (out ++ open_.take (b.length - out.length))))

/-- MAC verification (R173). -/
def recVerify (m : RecMap) (key rec : Bytes) : RecRes :=
  if !m.ops.getLsbD 1 then .pass
  else match fieldsOf m 6 with
    | [] => .pass
    | f :: _ =>
      match fieldBinary m f rec with
      | none => .stop St.descInvalid
      | some b => if b = recordMac m key rec then .pass else .fail 10

/-- Check digits: Luhn of every PAN field, MOD 97-10 of every ACCOUNT field (R166, R173). -/
def recDigits (m : RecMap) (rec : Bytes) : RecRes :=
  if !m.ops.getLsbD 2 then .pass
  else
    let pans := (fieldsOf m 3).map (fun f => fieldValue m f rec)
    let accounts := (fieldsOf m 4).map (fun f => fieldValue m f rec)
    if (pans ++ accounts).any Option.isNone then .stop St.descInvalid
    else if pans.all (fun v => luhnSum false (digitsOf 40 (v.getD 0).natAbs).reverse % 10 == 0) && accounts.all (fun v => (v.getD 0).natAbs % 97 == 1) then .pass
    else .fail 11

/-- Sums as DADD forms them, one field after another: none beyond 31 digits (R164). -/
def dsum : Int → List Int → Option Int
  | n, [] => some n
  | n, x :: xs => if 10 ^ 31 ≤ (n + x).natAbs then none else dsum (n + x) xs

/-- The total check (R173). -/
def recTotal (m : RecMap) (rec : Bytes) : RecRes :=
  if !m.ops.getLsbD 3 then .pass
  else
    let amounts := (fieldsOf m 1).map (fun f => fieldValue m f rec)
    let total := (fieldsOf m 2).head?.map (fun f => fieldValue m f rec)
    match total with
    | some (some t) =>
      if amounts.any Option.isNone then .stop St.descInvalid
      else match dsum 0 (amounts.map (·.getD 0)) with
        | none => .stop St.operandRange
        | some n => if n = t then .pass else .fail 13
    | _ => .stop St.descInvalid

/-- The status that ends the job, from the first operation that gives one. -/
def stopOf (rs : List RecRes) : Option (BitVec 7) := rs.findSome? (fun r => match r with | .stop st => some st | _ => none)

/-- The result code: that of the first failing operation, 00 where all passed (R174). -/
def resultCode (rs : List RecRes) : Nat := (rs.findSome? (fun r => match r with | .fail c => some c | _ => none)).getD 0

/-- The two digits of a result code in the record's encoding. -/
def codeText (m : RecMap) (code : Nat) : Bytes := [recHexChar (ebcdicOf m) (code / 10), recHexChar (ebcdicOf m) (code % 10)]

/-- The record with its RESULT_CODE written (R174). -/
def withCode (m : RecMap) (code : Nat) (rec : Bytes) : Bytes :=
  match fieldsOf m 7 with | f :: _ => fieldWrite f rec (codeText m code) | [] => rec

/-- MAC generation over the fields as finally written (R173). -/
def recGenerate (m : RecMap) (key rec : Bytes) : Bytes :=
  if !m.ops.getLsbD 4 then rec
  else match fieldsOf m 6 with | f :: _ => fieldWrite f rec (fieldEncode m f (recordMac m key rec)) | [] => rec

/-- The interpreter: the operations in order, then the response record, or the status that ends the job with none (R173, R174). -/
def interpret (m : RecMap) (ks : RecKeys) (random : List Nat) (open_ rec : Bytes) : BitVec 7 ⊕ Bytes :=
  let key := if m.macKey1 then ks.k1 else ks.k0
  let p := recPin m ks random open_ rec
  let rs := [p.1, recVerify m key p.2, recDigits m p.2, recTotal m p.2]
  match stopOf rs with
  | some st => .inl st
  | none => .inr (recGenerate m key (withCode m (resultCode rs) p.2))

end Sys2Proof.Machine
end

