-- ==== Sys2Proof/Machine/RomRun.lean ====
section
/-! DEFINITION. What each ROM program leaves at its end: the rows of Table 04-15 over the job's argument block, source and keys (R168 to R174, R192, R286; log 145). -/

namespace Sys2Proof.Machine

/-- What a ROM program works on: the argument block, the source, the keys, the first invocation, its random bytes and its record map. -/
structure RomIn where
  id : Nat
  decrypt : Bool
  cs3 : Bool
  pad : BitVec 8
  arg : Bytes
  src : Bytes
  t0 : BitVec 8
  k0 : Bytes
  t1 : BitVec 8
  k1 : Bytes
  node1 : Option Node
  inv : Nat
  random : Nat → Bytes
  map : Option RecMap

/-- What it leaves: status, DETAIL, bytes of DST and of the result area, the TAG, a key to import. -/
structure RomOut where
  st : BitVec 7 := St.ok
  detail : BitVec 16 := 0
  out : Bytes := []
  res : Bytes := []
  tag : Option Bytes := none
  make : Option (Creation × Bytes) := none
deriving DecidableEq, Repr

/-- A program that ends with a status of its own (R71, R130). -/
def romStop (st : BitVec 7) : RomOut := { st := st, detail := endDetail st }

/-- A program an engine refuses: reason of Table 04-1 (R71, R140). -/
def romRefused (reason : BitVec 8) : RomOut := { st := St.accessFault, detail := engineDetail reason }

/-! ## The argument block (Table 04-11) -/

/-- A little-endian field of the argument block. -/
def RomIn.field (i : RomIn) (o n : Nat) : Nat := leNat ((i.arg.drop o).take n)
/-- IV. -/
def RomIn.iv (i : RomIn) (n : Nat) : Bytes := padTo n (i.arg.take n)
/-- AADLEN. -/
def RomIn.aadLen (i : RomIn) : Nat := i.field 0x10 4
/-- TAGLEN. -/
def RomIn.tagLen (i : RomIn) : Nat := i.field 0x18 1
/-- ALG. -/
def RomIn.alg (i : RomIn) : Nat := i.field 0x19 1
/-- AUX. -/
def RomIn.aux (i : RomIn) : Nat := i.field 0x1A 2
/-- OUTLEN. -/
def RomIn.outLen (i : RomIn) : Nat := i.field 0x1C 4
/-- AUX2. -/
def RomIn.aux2 (i : RomIn) : Bytes := padTo 16 ((i.arg.drop 0x20).take 16)
/-- The first n bytes of EXPECT. -/
def RomIn.expect (i : RomIn) (n : Nat) : Bytes := padTo n ((i.arg.drop 0x40).take n)
/-- TAIL. -/
def RomIn.tail (i : RomIn) : Bytes := padTo i.aadLen (i.arg.drop 0x80)
/-- LENGTH, all of it delivered. -/
def RomIn.len (i : RomIn) : Nat := i.src.length
/-- The cipher of KEY0. -/
def RomIn.cipher (i : RomIn) : BlockFn := cipherFn i.t0 i.k0

/-- A verification: OK, or AUTH_FAIL on a mismatch (R168). -/
def RomIn.verify (i : RomIn) (tag : Bytes) (n : Nat) (out : Bytes) : RomOut :=
  if tag.take n = i.expect n then { out := out } else { romStop St.authFail with out := out }

/-- The first check that fails. -/
def firstBad : List (Bool × RomOut) → Option RomOut
  | [] => none
  | (bad, o) :: rest => if bad then some o else firstBad rest

/-- A value outside the range its row gives (R168). -/
def outside (lo hi n : Nat) : Bool := decide (n < lo) || decide (hi < n)

/-- Argument checks of a program, in the order of the example in R171's section: ranges, then the tail length; hash and MAC selectors as the engines take them. -/
def RomIn.argFault (i : RomIn) : Option RomOut :=
  let bad := romStop St.descInvalid
  let tooLong : Bool × RomOut := (decide (8192 < i.aadLen), romStop St.lengthInvalid)
  let keyed (t : Nat) : Bool × RomOut := (i.t0.toNat != t, romStop St.keyAttrDenied)
  match i.id with
  | 0x05 => firstBad [(i.aux % 4 == 3, romRefused 0x02)]
  | 0x21 | 0x22 | 0x23 => firstBad [(outside 12 16 i.tagLen, bad), tooLong]
  | 0x24 => firstBad [(outside 12 16 i.tagLen, bad)]
  | 0x25 | 0x26 => firstBad [(outside 7 13 (i.aux % 16), bad), (outside 4 16 i.tagLen || i.tagLen % 2 != 0, bad), tooLong]
  | 0x29 | 0x2A => firstBad [(outside 4 16 i.tagLen, bad)]
  | 0x2B | 0x2C => firstBad [(outside 4 8 i.tagLen, bad)]
  | 0x41 | 0x42 => firstBad [(outside 1 6 i.alg, bad), (outside 4 (digestLen (BitVec.ofNat 8 i.alg)) i.tagLen, bad), keyed (0x20 + i.alg)]
  | 0x43 | 0x44 => firstBad [(i.alg != 0x2A && i.alg != 0x2B, bad), (outside 4 64 i.tagLen, bad), tooLong, keyed i.alg]
  | 0x51 => firstBad [(outside 1 0x14 i.alg, bad), (outside 1 6 i.alg && outside 0x11 0x14 i.alg, romRefused 0x20)]
  | 0x52 => firstBad [(outside 0x18 0x19 i.alg, bad)]
  | 0x61 => firstBad [(decide (2 ≤ i.alg) || decide (2 ^ 30 < i.outLen), bad), tooLong]
  | 0x71 => firstBad [(!pinAllowed (i.alg % 16) (i.alg / 16), bad)]
  | 0x81 => firstBad [(i.aux % 4 == 3, bad), (ksnBad i.aux2, bad), (!pinAllowed 4 (i.alg / 16), bad)]
  | 0x82 | 0x83 => firstBad [(i.aux % 4 == 3, bad), (ksnBad i.aux2, bad)]
  | _ => none

/-! ## The modes (rows 0x0001 to 0x0018) -/

/-- The source as si0 delivers it: the encrypt direction pads (R153). -/
def RomIn.padded (i : RomIn) : Bytes := if i.decrypt then i.src else i.src ++ padBytes i.pad i.cipher.b i.len

/-- Decrypted bytes as so0 writes them: the padding of modes 0x01 and 0x02 checked and removed (R153, R155). -/
def RomIn.unpadded (i : RomIn) (out : Bytes) : RomOut :=
  if i.decrypt && (i.pad == 1 || i.pad == 2) then
    match padLength i.pad i.cipher.b (out.drop (out.length - i.cipher.b)) with
    | some n => { out := out.take (out.length - n) }
    | none => { romStop St.padInvalid with out := out.take (out.length - i.cipher.b) }
  else { out := out }

/-- The counter register of a counter program: AES with the width of AUX, TDEA with its 8 bytes in VALUE bytes 8 to 15 (Table 05-3). -/
def RomIn.counter (i : RomIn) : Counter :=
  if i.cipher.b = 8 then armedAt (blkOf (zeros 8 ++ i.iv 8)) (2 ^ 64 - 1) .w64
  else
    let v := blkOf (i.iv 16)
    match i.aux % 4 with
    | 0 => armedAt v (2 ^ 32 - 1) .w32
    | 1 => armedAt v (2 ^ 64 - 1) .w64
    | _ => armedAt v (2 ^ 64 - 1) .w128

/-- Text under counter blocks, or COUNTER_EXHAUSTED where the guard refuses (R192). -/
def romCtr (text : Option Bytes) (f : Bytes → RomOut) : RomOut :=
  match text with
  | some t => f t
  | none => romStop St.counterExhausted

/-- A confidentiality mode by its place in the group: ECB, CBC, CTR, CFB, OFB. -/
def RomIn.mode (i : RomIn) (k : Nat) : RomOut :=
  let c := i.cipher
  let xs := inBlocks c.b i.padded
  let iv := i.iv c.b
  match k with
  | 1 => { out := ecb c.enc xs }
  | 2 => i.unpadded (ecb c.dec xs)
  | 3 => if i.pad = 5 then { out := cs3Enc c iv i.src } else { out := (cbcEnc c.enc iv xs).flatten }
  | 4 => if i.pad = 5 then { out := cs3Dec c iv i.src } else i.unpadded (cbcDec c.dec iv xs).flatten
  | 5 => romCtr ((ctrMode (fun v => c.enc ((blkBytes v).drop (16 - c.b))) i.counter (inBlocks c.b i.src)).map List.flatten) (fun t => { out := t })
  | 6 => { out := (cfbEnc c.enc iv (inBlocks c.b i.src)).flatten }
  | 7 => { out := (cfbDec c.enc iv (inBlocks c.b i.src)).flatten }
  | _ => { out := (ofb c.enc iv (inBlocks c.b i.src)).flatten }

/-! ## Authenticated modes, XTS, MACs (rows 0x0021 to 0x002C) -/

/-- J0 of an encryption: fixed field, the invocation big-endian, 1 (Table 05-3). -/
def RomIn.j0 (i : RomIn) : Bytes := i.iv 4 ++ beBytes 8 i.inv ++ [0, 0, 0, 1]

/-- J0 of a decryption or verification: the 12-byte IV, 1 (Table 05-3). -/
def RomIn.j0In (i : RomIn) : Bytes := i.iv 12 ++ [0, 0, 0, 1]

/-- The first TAGLEN bytes of a tag, as SO.TAG posts them. -/
def RomIn.cut (i : RomIn) (tag : Bytes) : Option Bytes := some (padTo 16 (tag.take i.tagLen))

/-- GCM, GMAC and CCM (R168). -/
def RomIn.aead (i : RomIn) : RomOut :=
  let f := i.cipher.enc
  let nonce := i.iv (i.aux % 16)
  match i.id with
  | 0x21 => romCtr (gcmText f i.j0 i.src) (fun c => { out := c, res := i.j0, tag := i.cut (gcmTag f i.j0 i.tail c) })
  | 0x22 => romCtr (gcmText f i.j0In i.src) (fun p => i.verify (gcmTag f i.j0In i.tail i.src) i.tagLen p)
  | 0x23 => { res := i.j0, tag := i.cut (gcmTag f i.j0 (i.tail ++ i.src) []) }
  | 0x24 => i.verify (gcmTag f i.j0In i.src []) i.tagLen []
  | 0x25 =>
    if 2 ^ (8 * (15 - i.aux % 16)) ≤ i.len then romStop St.lengthInvalid
    else { out := ccmText f nonce i.src, tag := i.cut (ccmTag f nonce i.tagLen i.tail i.src) }
  | _ =>
    let p := ccmText f nonce i.src
    if 2 ^ (8 * (15 - i.aux % 16)) ≤ i.len then romStop St.lengthInvalid
    else i.verify (ccmTag f nonce i.tagLen i.tail p) i.tagLen p

/-- XTS under the halves of a 512-bit key (R144). -/
def RomIn.xts (i : RomIn) : RomOut :=
  let k1 := i.k0.take 32
  let t0 := blkOf (aesEnc ((i.k0.drop 32).take 32) i.aux2)
  { out := xtsRun (if i.decrypt then aesDec k1 else aesEnc k1) i.decrypt t0 i.src }

/-- Key wrapping (rows 0x0031 to 0x0034). -/
def RomIn.wrap (i : RomIn) : RomOut :=
  let open_ (r : Option Bytes) : RomOut := match r with | some p => { out := p } | none => romStop St.authFail
  match i.id with
  | 0x31 => { out := Config.kw i.k0 i.src }
  | 0x32 => open_ (Config.kwInv i.k0 i.src)
  | 0x33 => { out := Config.kwp i.k0 i.src }
  | _ => open_ (Config.kwpInv i.k0 i.src)

/-! ## Hashes, MACs over hashes, random output (rows 0x0041 to 0x0061) -/

/-- The MAC of rows 0x0041 to 0x0044, TAGLEN bytes. -/
def RomIn.hashMac (i : RomIn) : Bytes :=
  if i.id < 0x43 then padTo i.tagLen (Config.hmac i.alg i.k0 i.src)
  else padTo i.tagLen (Config.kmac (i.alg == 0x2B) i.k0 i.src i.tagLen i.tail false)

/-- Rows 0x0041 to 0x0061. -/
def RomIn.hashing (i : RomIn) : RomOut :=
  match i.id with
  | 0x41 | 0x43 => { out := i.hashMac }
  | 0x42 | 0x44 => i.verify i.hashMac i.tagLen []
  | 0x51 => { out := padTo (digestLen (BitVec.ofNat 8 i.alg)) (Config.hash i.alg i.src) }
  | 0x52 => { out := padTo i.outLen (Config.shake (i.alg == 0x19) i.src i.outLen) }
  | _ => { out := padTo i.outLen (i.random i.outLen) }

/-! ## The Hollow's programs (rows 0x0071 to 0x00C0) -/

/-- Random nibbles for the fill of a PIN block. -/
def RomIn.fill (i : RomIn) : List Nat := nibblesOf (i.random 32)

/-- The PAN of AUX2: unsigned packed, AUX [4:0] digits; none where one is above 9 (R163; log 145). -/
def RomIn.pan (i : RomIn) : Option (List Nat) :=
  let ds := (nibblesOf i.aux2).drop (32 - i.aux % 32)
  if ds.all (fun d => decide (d ≤ 9)) then some ds else none

/-- A PIN translation between two keys; the block's length and the keys' types must be the formats' (R170; log 145). -/
def RomIn.pinJob (i : RomIn) (from_ to_ : Nat) (ti : BitVec 8) (ci : BlockFn) (pan : Option (List Nat)) : RomOut :=
  if !pinKeyOk from_ ti then romStop St.keyAttrDenied
  else if !pinKeyOk to_ i.t1 then { st := St.keyAttrDenied, detail := 1 }
  else if i.len ≠ pinBytes from_ then romStop St.lengthInvalid
  else match pan with
    | none => romStop St.descInvalid
    | some p =>
      match pinTranslate from_ to_ ci (cipherFn i.t1 i.k1) p i.fill i.src with
      | some out => { out := out }
      | none => romStop St.padInvalid

/-- The working key of a DUKPT program (R171). -/
def RomIn.working (i : RomIn) : Bytes := dukptWorking i.k0 (i.aux2.take 12) (Config.dukptUsage i.id) (16 + 8 * (i.aux % 4))

/-- DUKPT: PIN translation from format 4, CBC decryption, CMAC verification over 16 bytes of EXPECT (R171). -/
def RomIn.dukpt (i : RomIn) : RomOut :=
  let c := aesFn i.working
  match i.id with
  | 0x81 => i.pinJob 4 (i.alg / 16) 0x10 c (some (Config.dukptPan i.arg))
  | 0x82 => { out := (cbcDec c.dec (i.iv 16) (inBlocks 16 i.src)).flatten }
  | _ => i.verify (cmac c i.src) 16 []

/-- Key block export: EXPORT [0] of KEY1, then a header for its attributes (R286). -/
def RomIn.keyExport (i : RomIn) : RomOut :=
  let denied : RomOut := { st := St.keyAttrDenied, detail := 1 }
  match i.node1 with
  | none => denied
  | some n =>
    if !n.exportBits.getLsbD 0 then denied
    else match exportBlock i.t0 i.k0 n i.k1 (i.random 32) with
      | some b => { out := b }
      | none => denied

/-- Key block import (R286). -/
def RomIn.keyImport (i : RomIn) : RomOut :=
  match importBlock i.t0 i.k0 i.aux2 i.src with
  | .inl st => romStop st
  | .inr r => { make := some r }

/-- The record interpreter (R172 to R174). -/
def RomIn.record (i : RomIn) : RomOut :=
  match i.map with
  | none => romStop St.descInvalid
  | some m =>
    match interpret m { t0 := i.t0, k0 := i.k0, t1 := i.t1, k1 := i.k1 } i.fill (i.random 48 |>.drop 32) i.src with
    | .inl st => romStop st
    | .inr r => { out := r }

/-- What a ROM program leaves once its source is delivered (Table 04-15). -/
def RomIn.result (i : RomIn) : RomOut :=
  if i.id < 0x10 then i.mode i.id
  else if i.id < 0x20 then i.mode (i.id - 0x10)
  else if i.id < 0x27 then i.aead
  else if i.id < 0x29 then i.xts
  else if i.id = 0x29 ∨ i.id = 0x2B then { tag := i.cut (cmac i.cipher i.src) }
  else if i.id < 0x30 then i.verify (cmac i.cipher i.src) i.tagLen []
  else if i.id < 0x40 then i.wrap
  else if i.id < 0x70 then i.hashing
  else if i.id = 0x71 then i.pinJob (i.alg % 16) (i.alg / 16) i.t0 i.cipher i.pan
  else if i.id < 0x90 then i.dukpt
  else if i.id = 0x91 then i.keyExport
  else if i.id = 0x92 then i.keyImport
  else if i.id = 0xC0 then i.record
  else { out := i.src }

end Sys2Proof.Machine
end

