-- ==== Sys2Proof/Machine/System.lean ====
section
/-! DEFINITION. Control registers, traps on purpose, fences, the end of a job, counters read by programs: majors 0x2C, 0x2D, 0x30, 0x3A (R92, R122, R123, R130, R132, R167). -/

namespace Sys2Proof.Machine

/-! ## Control registers (Table 03-2) -/

/-- The numbers of Table 03-2. -/
def crKnown (n : Nat) : Bool := n ≤ 0x00A || (0x100 ≤ n && n ≤ 0x10E)

/-- JOBID, DESC and STEPS as words (Table 03-2). -/
def Job.idWord (j : Job) : Word := BitVec.ofNat 64 (j.desc.seq.toNat + j.slot % 2 ^ 14 * 2 ^ 32)

/-- DESC: FLAGS, PAD_MODE, PRIORITY, DEADLINE (Table 03-2). -/
def Job.descWord (j : Job) : Word :=
  BitVec.ofNat 64 (j.desc.flags.toNat + j.desc.padMode.toNat * 2 ^ 16 + j.desc.priority.toNat % 4 * 2 ^ 24 + j.desc.deadline.toNat * 2 ^ 26)

/-- STEPS: frames in flight, the admission frame counted as 1, and the step budget (Table 03-2, R80). -/
def Job.stepsWord (j : Job) (frame : Nat) : Word :=
  BitVec.ofNat 64 ((frame + 1 - j.admittedAt) % 2 ^ 24 + j.budget % 2 ^ 24 * 2 ^ 24)

/-- The first frame cycle after a lane's slice (R18). -/
def Lane.sliceEnd (x : Lane) : Nat := 256 + 342 * (x.slotLast + 1)

/-- The frame cycle a lane reads: not before what it read last, within its slice, else a free value, since instructions carry no cycle counts (log 12). -/
def State.laneNow (s : State) (l : LaneId) : Nat :=
  let x := s.lane l
  x.now + (Config.draw 14 s.free).toNat % (x.sliceEnd - x.now)

/-- The value of a control register. FCYC, SLEFT and the current slot agree on one frame cycle (log 12); the write-only JEND reads 0 (DESIGN CHOICE, log 132). -/
def State.crValue (s : State) (l : LaneId) (j : Job) (c : Ctx) (n : Nat) : Word :=
  match n with
  | 0x000 => BitVec.ofNat 64 (s.laneNow l % 2 ^ 14)
  | 0x001 => BitVec.ofNat 64 s.frame.num
  | 0x002 => j.idWord
  | 0x003 => BitVec.ofNat 64 (j.inst % 1024)
  | 0x004 => if (s.lane l).hollow then 1 else 0
  | 0x005 => j.desc.program.setWidth 64
  | 0x006 => j.desc.length.setWidth 64
  | 0x007 => j.descWord
  | 0x008 => j.stepsWord s.frame.num
  | 0x009 => BitVec.ofNat 64 (((s.lane l).sliceEnd - s.laneNow l) % 2 ^ 14)
  | 0x00A => c.cmask.setWidth 64
  | 0x100 => c.kstat
  | 0x101 => c.kepc
  | 0x102 => c.fsyn
  | 0x103 => c.faddr
  | 0x104 => c.kvec
  | 0x105 => c.ttb1
  | 0x106 => (s.lane l).ttb2
  | 0x107 => c.winb
  | 0x108 => c.kscr[0]
  | 0x109 => c.kscr[1]
  | 0x10A => c.kscr[2]
  | 0x10B => c.kscr[3]
  | 0x10C => BitVec.ofNat 64 (l.val + l.val / 8 * 2 ^ 6)
  | 0x10D =>
    BitVec.ofNat 64 ((s.laneNow l - 256) / 342 % 32 + (s.lane l).slotLast % 32 * 2 ^ 5)
  | _ => 0

/-- Write a control register at K level; none where the table marks it RO (R92, R93). -/
def Ctx.crWrite (c : Ctx) (n : Nat) (w : Word) : Option Ctx :=
  match n with
  | 0x00A => some { c with cmask := w.setWidth 16 }
  | 0x100 => some (c.setKstat w)
  | 0x101 => some { c with kepc := w }
  | 0x102 => some { c with fsyn := w &&& fsynMask }
  | 0x103 => some { c with faddr := w }
  | 0x104 => some { c with kvec := w &&& 0x7FFFFFF000 }
  | 0x105 => some { c with ttb1 := w &&& 0x3FFFFFFFFF001 }
  | 0x107 => some { c with winb := w &&& 0x7FFC00 }
  | 0x108 => some { c with kscr := c.kscr.set 0 w }
  | 0x109 => some { c with kscr := c.kscr.set 1 w }
  | 0x10A => some { c with kscr := c.kscr.set 2 w }
  | 0x10B => some { c with kscr := c.kscr.set 3 w }
  | _ => none

/-- CRR (R92). -/
def execCrr (l : LaneId) (d : GReg) (n : BitVec 12) (s : State) : Host.Outcome State Fault Refusal :=
  ok (laneStep l false [] (fun s j c =>
    if !(crKnown n.toNat) then (s, .trap undefTrap)
    else if c.level = .u && decide (0x100 ≤ n.toNat) then (s, .trap privTrap)
    else
      (if n = 0x000 || n = 0x009 || n = 0x10D then { s with free := s.free + 1 }.modLane l (fun x => { x with now := s.laneNow l }) else s,
       .ok (c.wg d (s.crValue l j c n.toNat)))) s)

/-! ## The end of a job (R128, R130) -/

/-- The DETAIL of a job the kernel ends with a status after a trap (R71, R128, R140). -/
def killDetail (j : Job) (c : Ctx) (st : BitVec 7) : BitVec 16 :=
  if st = St.faultDetected then BitVec.ofNat 16 (((j.pke.bind (·.engine))).elim 0 (·.val))
  else if fsynCause c.fsyn = 0x0D then refusalDetail j st ((fsynInfo c.fsyn).extractLsb' 8 8) c.refusedKey
  else if fsynCause c.fsyn = 0x20 then (if st = St.descInvalid then 0x38 else 0)
  else if st = St.accessFault || st = St.colourMismatch then trapDetail (fsynCause c.fsyn)
  else if st = St.descInvalid then 0x38
  else 0

/-- A write of JEND at K level: the running job ends with the status written; event 0x1008 for a lane fault (R92, R128, R130). -/
def State.jendWrite (s : State) (l : LaneId) (j : Job) (c : Ctx) (st : BitVec 7) : State :=
  if fsynCause c.fsyn = 0x20 then s.endJob j.slot st (killDetail j c st)
  else s.laneFault l j c st (killDetail j c st)

/-- The write of JEND by a lane (R92). -/
def jendStep (l : LaneId) (a : GReg) (s : State) : State :=
  ctlStep l (fun s j c =>
    if c.level = .u then s.takeTrap l c privTrap c.pc
    else (s.retire l false c.pc { c with pc := c.pc + 4 }).jendWrite l j c ((c.rg a).setWidth 7)) s

/-- CRW (R92). -/
def execCrw (l : LaneId) (n : BitVec 12) (a : GReg) (s : State) : Host.Outcome State Fault Refusal :=
  ok (if n = 0x10E then jendStep l a s
      else bankStep l false [] (fun c =>
        if !(crKnown n.toNat) then .trap undefTrap
        else if c.level = .u then .trap privTrap
        else match c.crWrite n.toNat (c.rg a) with
          | none => .trap undefTrap
          | some c' => .ok c') s)

/-- JEND (R130). -/
def execJend (l : LaneId) (a : GReg) (s : State) : Host.Outcome State Fault Refusal :=
  ok (jendStep l a s)

/-- The trap of KCALL: cause 0x10, INFO the immediate, FADDR left open (R122, R124). -/
def kcallTrap (imm : BitVec 16) : Trap := { cause := 0x10, info := imm }

/-! ## The end of a ROM program (R168; log 145) -/

/-- The key of a job's k0 or k1 as bound at admission: type and value. -/
def State.romKey (s : State) (j : Job) (second : Bool) : BitVec 8 × Bytes :=
  match j.keyAt second with
  | some h => (hType h, s.keyValue j.bound h)
  | none => (0, [])

/-- What the ROM program of a job works on; random bytes are one draw (R201). -/
def State.romIn (s : State) (j : Job) : RomIn :=
  let b := j.ports.arg.getD []
  { id := j.desc.program.toNat, decrypt := j.header.decrypt, cs3 := j.header.cs3, pad := j.desc.padMode, arg := b.take (argNeed j.header b),
    src := j.ports.src.take j.len, t0 := (s.romKey j false).1, k0 := (s.romKey j false).2, t1 := (s.romKey j true).1, k1 := (s.romKey j true).2,
    node1 := (j.keyAt true).bind (s.keyNode j.bound), inv := ((j.invsOf j.keyZero).bind (·.head?)).getD 0,
    random := fun n => leBytes n (Config.draw (8 * n) s.free).toNat, map := j.map }

/-- What the ROM program of a job leaves: by a fault in its arguments, or once all of its source is delivered; none before (R168). -/
def State.romOut (s : State) (j : Job) : Option RomOut :=
  match (s.romIn j).argFault with
  | some o => some o
  | none => if j.ports.src.length < j.len then none else some (s.romIn j).result

/-- A key to import becomes a node, PENDING until its commit, and its handle the result; or the status that refuses it (R260, R286). -/
def State.romMake (s : State) (j : Job) (o : RomOut) : State × RomOut :=
  match o.make with
  | none => (s, o)
  | some (rec, key) =>
    match s.creationRefused j.inst rec 1 with
    | some st => (s, romStop st)
    | none =>
      let r := s.reserveNode j.inst (s.nodeOf j.inst rec .imported (symMaterial rec.ktype key) [])
      (State.modJob { r.2 with staged := r.2.staged ++ [Change.keyCreate j.inst r.1 none] } j.slot (fun x => { x with made := some r.1 }),
       { o with res := leBytes 8 (r.2.handleOf j.inst r.1).toNat })

/-- Bytes of an output port not yet written. -/
def Job.unwritten (j : Job) (q : BitVec 2) (bs : Bytes) : Bytes := bs.drop (if q = 1 then j.ports.written[1] else j.ports.written[0])

/-- The program writes the rest of its output and result area, posts its TAG and ends. -/
def State.romWrite (s : State) (j : Job) (o : RomOut) : State :=
  let s1 := s.portWrite j 0 (j.unwritten 0 o.out)
  let j1 := (s1.job j.slot).getD j
  let s2 := if o.res = [] then s1 else s1.portWrite j1 1 (j1.unwritten 1 o.res)
  let s3 := match o.tag with
    | some t => s2.modJob j.slot (fun x => { x with tag := blkOf t, tagValid := true })
    | none => s2
  s3.endJob j.slot o.st o.detail

/-- What stops the rest of the output: an entry of the destination list still to be read, or its capacity (R60, R156). -/
def Job.romRoom (j : Job) (o : RomOut) : Option Pushed := j.room (j.unwritten 0 o.out).length

/-- END of a ROM program (R168, R130). -/
def State.romEnd (s : State) (j : Job) (o : RomOut) : State :=
  match j.romRoom o with
  | some (.fail st d) => s.endJob j.slot st d
  | some (.trap _) => s.endJob j.slot St.lengthInvalid 0
  | _ =>
    let r := ({ s with free := s.free + 1 }).romMake j o
    r.1.romWrite ((r.1.job j.slot).getD j) r.2

/-- The end KCALL gives a job: END of a ROM program as its row says (R168), of another with the status of g1 [6:0] where R130 lists it; any other value, and any other immediate, is ACCESS_FAULT with the lane fault (R130). -/
def State.kcallEnd (s : State) (l : LaneId) (j : Job) (imm : BitVec 16) (c : Ctx) : State :=
  let st := (c.rg 1).setWidth 7
  if imm = 0 && j.rom then (match s.romOut j with | some o => s.romEnd j o | none => s)
  else if imm = 0 ∧ endStatuses.contains st = true then s.endJob j.slot st (endDetail st)
  else s.laneFault l j (s.lane l).bank St.accessFault (trapDetail 0x10)

/-- END meets a ROM program that is not at its end: its source is not all delivered, or its destination list is not walked far enough (log 145). -/
def State.romEarly (s : State) (j : Job) : Bool :=
  j.rom && (match s.romOut j with | none => true | some o => j.romRoom o == some .wait)

/-- KCALL: the trap of R124 with KEPC the next instruction, then the kernel ends the job (R130); at K level with IE 0 a double fault (R127). END before the end of a ROM program changes nothing but the read of a list entry it waits for (log 145). -/
def kcallStep (l : LaneId) (imm : BitVec 16) (s : State) : State :=
  ctlStep l (fun s j c =>
    if c.level = .k && !c.ie then s.doubleFault l 0x10
    else if imm = 0 && s.romEarly j then (if (s.romOut j).isSome then s.readEntry j true else s)
    else
      let s1 := (s.retire l false c.pc c).takeTrap l c (kcallTrap imm) (c.pc + 4)
      s1.kcallEnd l j imm c) s

/-- KCALL (R122). -/
def execKcall (l : LaneId) (imm : BitVec 16) (s : State) : Host.Outcome State Fault Refusal :=
  ok (kcallStep l imm s)

/-- END (R130). -/
def execEndJob (l : LaneId) (s : State) : Host.Outcome State Fault Refusal :=
  ok (kcallStep l 0 s)

/-- The cells and colours of n granules of a lane's local store from a byte on, as a window holds them. -/
def State.localWindow (s : State) (l : LaneId) (at_ n : Nat) : List Host.Cell × List (BitVec 4) :=
  (Memory.writeBytes [] 0 (Memory.readBytes s.mem (localAddr l at_) (64 * n)),
   (List.range n).map (fun k => (tget (s.lane l).tags (at_ / 64 + k)).getD 0))

/-- WINB is applied: its size bounds the window, and the window begins at its base of the local store. A new base leaves the bytes and colours of the old window where they stood and takes those of the new place (R92, R104, R122). -/
def State.applyWinb (s : State) (l : LaneId) (c : Ctx) : State × Ctx :=
  let at_ := (c.winb.extractLsb' 10 8).toNat * 1024
  let c1 := { c with winSize := min 0x4000 ((c.winb.extractLsb' 18 5).toNat * 1024), winAt := at_ }
  if at_ = c.winAt then (s, c1)
  else
    let fit (a : Nat) : Nat := min 256 ((0x40000 - a) / 64)
    let old := (List.range (fit c.winAt)).foldl (fun (x : Lane) k => x.retag (c.winAt + 64 * k) (c.colourAt (64 * k))) (s.lane l)
    let s1 := { s with mem := Memory.writeBytes s.mem (localAddr l c.winAt) (Memory.readBytes c.window 0 (64 * fit c.winAt)) }.setLane l old
    let w := s1.localWindow l at_ (fit at_)
    (s1, { c1 with window := w.1, colours := Vector.ofFn (fun k => w.2.getD k.val 0) })

/-- KRET (R122). -/
def execKret (l : LaneId) (s : State) : Host.Outcome State Fault Refusal :=
  ok (laneStep l false [] (fun s _ c =>
    if c.level = .u then (s, .trap privTrap)
    else
      let r := s.applyWinb l c
      (r.1, .jump { r.2 with level := c.pl, ie := true } c.kepc)) s)

/-- FENCE (R123). -/
def execFence (l : LaneId) (mask : BitVec 4) (s : State) : Host.Outcome State Fault Refusal :=
  ok (bankStep l false [] (fun c =>
    if c.level = .u && mask.getLsbD 3 then .trap privTrap
    else .ok (if mask.getLsbD 1 then { c with unfenced := [] } else c)) s)

/-- The entries of the walk cache TLBFL keeps: none in mode 0, those of other instances in mode 1, those of stage 2 in mode 2 (R102, R122; log 14). -/
def walkKeeps (mode : BitVec 2) (w : Word) (e : WalkEntry) : Bool :=
  if mode = 0 then false else if mode = 1 then e.vmid % 1024 != (w.setWidth 10).toNat else e.stage2

/-- The TLB entries TLBFL keeps (R122). -/
def tlbKeeps (mode : BitVec 2) (w : Word) (e : TlbEntry) : Bool :=
  if mode = 0 then false
  else if mode = 1 then e.asid != w.setWidth 10
  else !(if e.big then ptrVa w / 2 ^ 21 * 512 == e.page else ptrVa w / 4096 == e.page)

/-- TLBFL (R122). -/
def execTlbfl (l : LaneId) (d : GReg) (mode : BitVec 2) (s : State) : Host.Outcome State Fault Refusal :=
  ok (laneStep l false [] (fun s _ c =>
    if mode = 3 then (s, .trap undefTrap)
    else if c.level = .u then (s, .trap privTrap)
    else (s.modLane l (fun x => { x with tlb := x.tlb.filter (tlbKeeps mode (c.rg d)), walks := x.walks.filter (walkKeeps mode (c.rg d)) }), .ok c)) s)

/-- Invasive debug is enabled for a lane's world (Table 09-14). -/
def State.invasive (s : State) (hollow : Bool) : Bool := if hollow then s.prot.dbg.getLsbD 0 else s.prot.dbg.getLsbD 4

/-- DSTOP (R132). -/
def execDstop (l : LaneId) (imm : BitVec 16) (s : State) : Host.Outcome State Fault Refusal :=
  ok (ctlStep l (fun s j c =>
    if c.level = .k && !c.ie then s.doubleFault l 0x11
    else
      let s1 := (s.retire l false c.pc c).takeTrap l c { cause := 0x11, info := imm } c.pc
      if s.invasive (s.lane l).hollow then s1.modLane l (fun x => { x with stopped := true })
      else s1.laneFault l j (s1.lane l).bank St.accessFault (trapDetail 0x11)) s)

/-! ## Yielding and counters (R167) -/

/-- YIELD (R167). -/
def execYieldSlice (l : LaneId) (s : State) : Host.Outcome State Fault Refusal :=
  ok (ctlStep l (fun s j c =>
    ((s.retire l true c.pc { c with pc := c.pc + 4 }).endSlice l .runnable).modJob j.slot (fun x => { x with yielded := true })) s)

/-- The snapshot of a counter as PMC.RD returns it: value and saturation flag (R167, R459). -/
def snapWord (c : Ctr) : Word := c.snap.1.setWidth 64 ||| (if c.snap.2 then 0x1000000000000 else 0)

/-- The counter a number of PMC.RD names for a lane and instance (R167). -/
def State.pmcNamed (s : State) (l : LaneId) (inst n : Nat) : Option Ctr :=
  if n < 8 then some ((tget s.pmc.lane (8 * l.val + n)).getD {})
  else if 16 ≤ n ∧ n < 32 then some ((tget s.pmc.inst (16 * inst + (n - 16))).getD {})
  else none

/-- PMC_RD (R167). -/
def execPmcRd (l : LaneId) (d a : GReg) (s : State) : Host.Outcome State Fault Refusal :=
  ok (laneStep l true [] (fun s j c =>
    (s, if !((s.inst j.inst).elim false (·.share.pmcUser)) then .trap privTrap
        else match s.pmcNamed l j.inst ((c.rg a).setWidth 6 : BitVec 6).toNat with
          | none => .trap (engineTrap St.accessFault 0x70)
          | some x => .ok (c.wg d (snapWord x)))) s)

/-! ## Undefined words (R109) -/

/-- UNDEFINED_INSTRUCTION (R109). -/
def execUndefinedInstruction (l : LaneId) (word : BitVec 32) (s : State) : Host.Outcome State Fault Refusal :=
  ok (if (geingDecode l word).isSome then s else bankStep l false [] (fun _ => .trap undefTrap) s)

end Sys2Proof.Machine
end

