-- ==== Sys2Proof/Machine/Firmware.lean ====
section
/-! DEFINITION. Firmware update and activation, debug certificates and the debugger's accesses, the tamper configuration (R356 to R359, R426 to R437). -/

namespace Sys2Proof.Machine

/-! ## FW_UPDATE and FW_CANCEL (R432, Table 07-11) -/

/-- Put an image into NEXT of its kind, valid or not. -/
def State.putNext (s : State) (image : FwImage) (valid : Bool) : State :=
  { s with life := s.life.setSlots image.kind ((s.life.slots image.kind).1, some { image := image, valid := valid }) }

/-- Write and verify an image; a Hollow image is sealed forward, and the request then completes when FORWARD is marked valid. -/
def State.takeImage (s : State) (rq : Req) (image : FwImage) : State :=
  if image.kind ≠ 1 ∧ image.kind ≠ 2 then s.answer rq 0xD6 St.authFail
  else
    let s1 := s.putNext image false
    let s2 := if image.kind = 1 then { s1 with quarry := { s1.quarry with forward := none } } else s1
    match s2.imageFault image image.kind with
    | some c => (s2.spoil image.kind 1 c).answer rq 0xD6 St.authFail
    | none =>
      let s3 := s2.putNext image true
      match image.kind, s3.quarry.l2 with
      | 1, some l2 =>
        let w := s3.wrapFor l2 image.hash 0
        State.stage { s3 with quarry := { s3.quarry with forward := some (w.1, w.2, false) } } (.imageReady 1 (replyTo rq) rq.tag)
      | _, _ => s3.answer rq 0xD6 St.ok

/-- FW_UPDATE (R432). -/
def execFwUpdate (rq : Req) (image : FwImage) (token : Token) (s : State) : Host.Outcome State Fault Refusal :=
  ok (s.request rq 0xD6 true (fun t =>
    t.withToken rq 0xD6 3 (t.threshold 3) token [] image.file (fun u => u.takeImage rq image)))

/-- FORWARD is marked valid: event 0x3008 (Table 07-11, step 3). -/
def State.commitForward (s : State) (d : Dest) (tag : BitVec 16) : State :=
  let s1 := match s.quarry.forward with
    | some (w, h, _) => State.raise { s with quarry := { s.quarry with forward := some (w, h, true) } } 0x3008 true 1 (hash32 h) 0
    | none => s
  s1.reply d 0xD6 St.ok tag []

/-- FW_CANCEL (R432). -/
def execFwCancel (rq : Req) (kind : Nat) (token : Token) (s : State) : Host.Outcome State Fault Refusal :=
  ok (s.request rq 0xD8 true (fun t =>
    if kind ≠ 1 ∧ kind ≠ 2 then t.answer rq 0xD8 St.descInvalid
    else t.withToken rq 0xD8 3 (t.threshold 3) token (leBytes 1 kind) [] (fun u => u.stage (.fwCancel kind (replyTo rq) rq.tag))))

/-- NEXT of a kind is zeroed, and FORWARD with it where the kind is Hollow: event 0x3008 where one was held (R432; log 36). -/
def State.commitCancel (s : State) (kind : Nat) (d : Dest) (tag : BitVec 16) : State :=
  let s1 := { s with life := s.life.setSlots kind ((s.life.slots kind).1, none) }
  let s2 := match kind, s1.quarry.forward with
    | 1, some (_, h, _) => State.raise { s1 with quarry := { s1.quarry with forward := none } } 0x3008 true 3 (hash32 h) 0
    | _, _ => s1
  s2.reply d 0xD8 St.ok tag []

/-! ## FW_ACTIVATE (R433) -/

/-- FW_ACTIVATE (R433). -/
def execFwActivate (rq : Req) (s : State) : Host.Outcome State Fault Refusal :=
  ok (s.request rq 0xD7 false (fun t =>
    if t.life.activate.isSome || t.staged.any (fun (c : Change) => match c with | .fwActivate _ _ => true | _ => false) then t.answer rq 0xD7 St.descInvalid
    else t.stage (.fwActivate (replyTo rq) rq.tag)))

/-- The commit: in a pair the reply is released at this frame's tail; a single unit stops admission and drains. -/
def State.commitActivate (s : State) (d : Dest) (tag : BitVec 16) : State :=
  let s1 := { s with life := { s.life with activate := some (s.frame.num, tag) } }
  if s1.inPair then s1.replyNow d 0xD7 St.ok tag [] else s1

/-- The restart itself: event 0x8023. -/
def State.plannedRestart (s : State) (drained squashed : Nat) : State :=
  ((s.raise 0x8023 true drained squashed 0).zeroEngines.zeroKeys).linksDown.flushed.startUp [] []

/-- A unit of a pair sends the silent marker and stops; its partner adopts. The marker's cause is free, since Table 10-4 has none for a planned restart (log 9). -/
def State.restartPair (s : State) : State :=
  let (c, s1) := s.take 8
  (s1.sendTwin 3 (.silent c.toNat)).plannedRestart 0 0

/-- A single unit: what is still unreleased after the drain is squashed, the reply released, then the restart. -/
def State.restartSingle (s : State) (f : Nat) (tag : BitVec 16) : State :=
  let left := s.jobs.length
  let s1 := if left = 0 then s else (s.squashAll (fun _ => true) St.deviceHalted (fun _ => 0) false).releaseAll
  (s1.answerNow (.mailbox 0) 0xD7 tag []).plannedRestart (s.frame.num - f) left

/-- FW_ACTIVATE_RESTART (R433). -/
def execFwActivateRestart (s : State) : Host.Outcome State Fault Refusal :=
  ok (match (if s.works then s.life.activate else none) with
      | none => s
      | some (f, tag) =>
        if s.inPair then (if f < s.frame.num ∨ 11800 ≤ s.frame.cycle then s.restartPair else s)
        else if s.jobs = [] ∨ f + 100000 ≤ s.frame.num then s.restartSingle f tag
        else s)

/-! ## Debug certificates (R434 to R436) -/

/-- The epoch a certificate must name: 0 outside OWNED and RELEASED. -/
def State.certEpoch (s : State) : Nat :=
  match s.life.otp.lcs with | .owned e => e | .released e => e | _ => 0

/-- The fields of a certificate are in order (R436, step 1). -/
def certFormed (c : DebugCert) : Bool :=
  c.shaped && c.rights != 0 &&
  ((c.limitKind == 0 && c.frames == 0) || (c.limitKind == 1 && decide (1 ≤ c.frames) && decide (c.frames ≤ 0xFFFFFFFE)))

/-- A vendor block is required (R435). -/
def State.vendorNeeded (s : State) (c : DebugCert) : Bool :=
  c.rights.getLsbD 0 || decide (s.life.otp.lcs = .returned) || s.quarry.custodians == []

/-- What refuses the token of a certificate: none where no register exists (R435, R436 step 4). -/
def State.certToken (s : State) (c : DebugCert) (token : Option Token) : Option (BitVec 7 × Nat) :=
  if s.quarry.custodians = [] then none
  else match token with
    | none => some (St.quorumMissing, 0xFF)
    | some t => if t.challenge ≠ c.challenge then some (St.authFail, 0xFF) else s.tokenFault t 0xD9 3 (s.threshold 3) c.body

/-- The first failure of the checks of R436, with its step. -/
def State.certFault (s : State) (c : DebugCert) (vendor : Option VendorBlock) (token : Option Token) : Option (BitVec 7 × Nat) :=
  if !certFormed c || vendor.any (·.rsv) then some (St.descInvalid, 1)
  else if s.inPair && (c.rights &&& 0x1F != 0) then some (St.descInvalid, 2)
  else if c.lcs ≠ lcsCode s.life.otp.lcs ∨ c.epoch ≠ s.certEpoch ∨ !s.challengeLive c.challenge then some (St.authFail, 3)
  else match s.certToken c token with
    | some (st, _) => some (st, 4)
    | none =>
      match vendor with
      | none => if s.vendorNeeded c then some (St.quorumMissing, 5) else none
      | some v => if s.vendorGood v (ascii "WL9640 DEBUG" ++ c.body) then none else some (St.authFail, 6)

/-- A refused token is recorded as R292 has it. -/
def State.tokenEvent (s : State) (c : DebugCert) (token : Option Token) : State :=
  match s.certToken c token with
  | some (st, i) => s.raise 0x300A true st.toNat 0xD9 i
  | none => s

/-- DBG_CERT (R436). -/
def execDbgCert (rq : Req) (cert : DebugCert) (vendor : Option VendorBlock) (token : Option Token) (s : State) : Host.Outcome State Fault Refusal :=
  ok (s.request rq 0xD9 true (fun t =>
    match t.certFault cert vendor token with
    | some (st, step) =>
      let t1 := (if step = 4 then t.tokenEvent cert token else t).raise 0x8030 true st.toNat cert.rights.toNat step
      let t2 := if step < 4 then t1 else t1.spendChallenge cert.challenge
      (State.answer { t2 with life := { t2.life with dbgLast := st.setWidth 8 } } rq 0xD9 st)
    | none =>
      let t1 := t.spendChallenge cert.challenge
      State.stage { t1 with life := { t1.life with dbgLast := 0, dbgAccepted := min (t1.life.dbgAccepted + 1) 0xFFFF } }
        (.debugRights cert.rights (if cert.limitKind = 1 then some cert.frames else none) (replyTo rq) rq.tag)))

/-- DEBUG_EXPIRY (R356). -/
def execDebugExpiry (s : State) : Host.Outcome State Fault Refusal :=
  ok (if s.prot.dbg ≠ 0 ∧ s.prot.dbgLeft = some 0 then { s with prot := { s.prot with dbgEnding := true } } else s)

/-! ## The debugger (R132, R358) -/

/-- Halt, step or resume a lane. -/
def State.holdLane (s : State) (l : LaneId) (f : Lane → Lane) : State :=
  if s.invasive (s.lane l).hollow then s.modLane l f else s

/-- A control core of the Hollow (Table 09-1). -/
def hollowCore (core : Nat) : Bool := core == 96 || core == 97

/-- A core the debugger may hold: 96 to 103, under its world's invasive right. -/
def State.coreOpen (s : State) (core : Nat) : Bool := decide (96 ≤ core) && decide (core ≤ 103) && s.invasive (hollowCore core)

/-- The port of a halted lane: its job and context. -/
def State.haltedLane (s : State) (l : LaneId) : Option (Job × Ctx) :=
  if s.invasive (s.lane l).hollow && (s.lane l).stopped then
    ((s.lane l).run.bind s.job).map (fun j => (j, (s.lane l).bank))
  else none

/-- Put out a value to the debugger. -/
def State.show (s : State) (v : Word) : State := s.emit (.debug v)

/-- Read a register of a halted lane; a V register gives its low then its high half. -/
def State.readDebug (s : State) (c : Ctx) (r : DebugReg) : State :=
  match r with
  | .g n => s.show (c.rg n)
  | .v n => (s.show ((c.rv n).setWidth 64)).show (((c.rv n) >>> 64).setWidth 64)
  | .pc => s.show c.pc

/-- Write a register of a halted lane. -/
def writeDebug (c : Ctx) (r : DebugReg) (v : Blk) : Ctx :=
  match r with
  | .g n => c.wg n (v.setWidth 64)
  | .v n => c.wv n v
  | .pc => { c with pc := v.setWidth 64 }

/-- An access through a control core's port, in that core's context; the core's level is taken as its world's owner (log). -/
def coreAcc (core : Nat) (k : AccKind) : Acc :=
  { ctx := .core (hollowCore core) true, master := core, kind := k, report := reportKind k, user := false, priv := true,
    hollow := hollowCore core, inst := 0, cls := 4 }

/-- Eight bytes through a halted core's port: a refusal is reported as the core's own. -/
def State.coreAccess (s : State) (core addr : Nat) (k : AccKind) (f : State → State) : State :=
  if !(s.coreOpen core && s.prot.haltedCores.contains core) then s
  else
    let a := coreAcc core k
    match s.checkAccess a addr 8 with
    | some (n, at_, r) => s.violate (a.report_ s.frame.num ((s.ctrlOf at_).getD 0) at_ 8 n r) r.overlap
    | none => f s

/-- What a debugger asks. -/
def State.debugged (s : State) (op : DebugOp) : State :=
  match op with
  | .haltLane l => s.holdLane l (fun x => { x with stopped := true })
  | .stepLane l => s.holdLane l (fun x => { x with stepping := x.stopped })
  | .resumeLane l => s.holdLane l (fun x => { x with stopped := false, stepping := false })
  | .haltCore c => if s.coreOpen c then { s with prot := { s.prot with haltedCores := (c :: s.prot.haltedCores).eraseDups } } else s
  | .stepCore _ => s
  | .resumeCore c => if s.coreOpen c then { s with prot := { s.prot with haltedCores := s.prot.haltedCores.filter (fun x => x != c) } } else s
  | .readReg l r => (match s.haltedLane l with
      | some (_, c) => s.readDebug c r
      | none => s)
  | .writeReg l r v => (match s.haltedLane l with
      | some (_, c) => s.modLane l (fun x => { x with bank := writeDebug c r v })
      | none => s)
  | .readLane l a => (match s.haltedLane l with
      | some (j, c) =>
        (match s.laneAccess l j c .read false true a 8 with
         | (s1, .at_ loc) => s1.show (BitVec.ofNat 64 (leNat (s1.readLoc c loc 8)))
         | (s1, _) => s1)
      | none => s)
  | .writeLane l a v => (match s.haltedLane l with
      | some (j, c) =>
        (match s.laneAccess l j c .write false true a 8 with
         | (s1, .at_ loc) =>
           let r := s1.writeLoc c loc (leBytes 8 v.toNat)
           r.1.modLane l (fun x => { x with bank := r.2 })
         | (s1, _) => s1)
      | none => s)
  | .readCore c a => s.coreAccess c a .read (fun t => t.show (BitVec.ofNat 64 (leNat (Memory.readBytes t.mem a 8))))
  | .writeCore c a v => s.coreAccess c a .write (fun t => { t with mem := Memory.writeBytes t.mem a (leBytes 8 v.toNat) })

/-- DEBUGGER_ACCESS (R358). -/
def execDebuggerAccess (op : DebugOp) (s : State) : Host.Outcome State Fault Refusal :=
  ok (s.debugged op)

/-! ## The tamper configuration (R437) -/

/-- TAMPER_CONFIG (R437). -/
def execTamperConfig (rq : Req) (cfg : BitVec 8 × BitVec 8 × BitVec 2) (token : Token) (s : State) : Host.Outcome State Fault Refusal :=
  ok (s.request rq 0xDC true (fun t =>
    t.withToken rq 0xDC 3 (t.threshold 3) token (leBytes 1 cfg.1.toNat ++ leBytes 1 cfg.2.1.toNat ++ leBytes 1 cfg.2.2.toNat) [] (fun u =>
      u.stage (.tamperCfg { inputEn := cfg.1, polarity := cfg.2.1, meshEn := cfg.2.2 } (replyTo rq) rq.tag))))

end Sys2Proof.Machine
end

