-- ==== Sys2Proof/Machine/PkeOps.lean ====
section
/-! DEFINITION. What each public-key operation computes on its engine (Table 06-2, R222 to R233). -/

namespace Sys2Proof.Machine

/-! ## Running a call on an engine -/

/-- The private key of a call: the key register's at the versions the job is bound to, or the chained one as read at the start (R214, R226, R263). -/
def State.callKeyBytes (s : State) (j : Job) (q : PkeCall) : Option Bytes :=
  match q.key with
  | some h => some (s.keyValue j.bound h)
  | none => q.chainKey

/-- The event of an iteration or candidate limit (R231). -/
def State.limitEvent (s : State) (e : Fin 16) (op : BitVec 16) (ins : List Bytes) (st : BitVec 7) : State :=
  if st = St.faultDetected then
    s.raise 0x4006 false e.val op.toNat (if opFam op = 6 then 400 else if opFam op = 2 then 60 * (leNat (((ins.getD 1 []).drop 2).take 2) / 2) else 64)
  else s

/-- A result held until its check (R236, R239). -/
def State.holdResult (s : State) (j : Job) (q : PkeCall) (o : Config.PkeOut) : State :=
  s.setCall j.slot (some { q with phase := .computed, status := o.status, results := o.outs, secret := o.secret })

/-- The call an engine runs, where it is the operation named. -/
def State.callOn (s : State) (e : Fin 16) (fam kind : Nat) : Option (Job × PkeCall) :=
  match s.pke.running[e] with
  | none => none
  | some slot =>
    match s.job slot with
    | none => none
    | some j => j.pke.bind (fun q => if q.phase = .running ∧ opFam q.op = fam ∧ opKind q.op = kind then some (j, q) else none)

/-- The private key of the partner's call: from the replica of the key store, at the versions the job is bound to (R240, R263). -/
def State.repeatKey (s : State) (c : CkptCall) : Option Bytes :=
  match c.key with
  | some h => some (s.shadowView.keyValue (s.replicaBound c.slot) h)
  | none => c.chained

/-- The repeat of the partner an engine runs: its digest (R239). -/
def State.runRepeat (s : State) (e : Fin 16) (fam kind : Nat) (f : BitVec 16 → Option Bytes → List Bytes → Option Bytes → Config.PkeOut) : State :=
  { s with pke := { s.pke with twinRepeats := s.pke.twinRepeats.map (fun r =>
      if r.engine = some e ∧ r.digest = none ∧ opFam r.call.op = fam ∧ opKind r.call.op = kind then
        let o := f r.call.op (s.repeatKey r.call) r.call.inputs r.call.seed
        { r with digest := some (Config.sha3 (leBytes 1 o.status.toNat ++ o.outs.flatten ++ o.secret.getD [])) }
      else r) } }

/-- Run an operation on its engine: a call already ended by its operands keeps its status (R214). -/
def State.runOp (s : State) (e : Fin 16) (fam kind : Nat) (f : BitVec 16 → Option Bytes → List Bytes → Option Bytes → Config.PkeOut) : State :=
  match s.callOn e fam kind with
  | none => s.runRepeat e fam kind f
  | some (j, q) =>
    if q.status ≠ St.ok then s.setCall j.slot (some { q with phase := .computed })
    else
      let o := f q.op (s.callKeyBytes j q) q.inputs q.seed
      (s.limitEvent e q.op q.inputs o.status).holdResult j q o

/-! ## Housekeeping (R211, R214, R227) -/

/-- PKE_FREE (R211). -/
def execPkeFree (e : Fin 16) (s : State) : Host.Outcome State Fault Refusal :=
  ok (match s.callOn e 0 1 with
      | none => s
      | some (j, q) => s.modJob j.slot (fun x => { x with pke := some { q with phase := .computed }, region := none }))

/-- PKE_STAGE (R214). -/
def execPkeStage (e : Fin 16) (s : State) : Host.Outcome State Fault Refusal :=
  ok (match s.callOn e 0 2 with
      | none => s
      | some (j, q) =>
        if q.status ≠ St.ok then s.setCall j.slot (some { q with phase := .computed })
        else s.modJob j.slot (fun x =>
          { x with pke := some { q with phase := .computed }, region := x.region.map (fun r => { r with retained := stagedAfter q.chain r.retained q.inputs, stale := false }) }))

/-- PKE_NONCE (R227). -/
def execPkeNonce (e : Fin 16) (s : State) : Host.Outcome State Fault Refusal :=
  ok (match s.callOn e 0 3 with
      | none => s
      | some (j, q) =>
        let n := (q.outs.getD 0 (0, 0)).2
        s.holdResult j q { status := q.status, outs := [padTo n (pkeRandom q.op 7 q.seed n)], secret := none })

/-! ## Modular arithmetic -/

/-- MODMUL (R222). -/
def execModmul (e : Fin 16) (s : State) : Host.Outcome State Fault Refusal :=
  ok (s.runOp e 1 1 (fun _ _ x _ => modular (x.getD 2 []) [x.getD 0 [], x.getD 1 []] (fun m => some (beNat (x.getD 0 []) * beNat (x.getD 1 []) % m))))

/-- MODADD (R222). -/
def execModadd (e : Fin 16) (s : State) : Host.Outcome State Fault Refusal :=
  ok (s.runOp e 1 2 (fun _ _ x _ => modular (x.getD 2 []) [x.getD 0 [], x.getD 1 []] (fun m => some ((beNat (x.getD 0 []) + beNat (x.getD 1 [])) % m))))

/-- MODSUB (R222). -/
def execModsub (e : Fin 16) (s : State) : Host.Outcome State Fault Refusal :=
  ok (s.runOp e 1 3 (fun _ _ x _ => modular (x.getD 2 []) [x.getD 0 [], x.getD 1 []] (fun m => some ((beNat (x.getD 0 []) + m - beNat (x.getD 1 [])) % m))))

/-- MODEXP and MODEXP.PUB give one value and differ in their times. -/
def modexpOut (x : List Bytes) : Config.PkeOut :=
  let ex := x.getD 1 []
  modular (x.getD 2 []) [x.getD 0 []] (fun m => some (powMod m (8 * ex.length) (beNat (x.getD 0 [])) (beNat ex) 1))

/-- MODEXP (R222). -/
def execModexp (e : Fin 16) (s : State) : Host.Outcome State Fault Refusal :=
  ok (s.runOp e 1 4 (fun _ _ x _ => modexpOut x))

/-- MODEXP_PUB (R222). -/
def execModexpPub (e : Fin 16) (s : State) : Host.Outcome State Fault Refusal :=
  ok (s.runOp e 1 5 (fun _ _ x _ => modexpOut x))

/-- MODINV (R222). -/
def execModinv (e : Fin 16) (s : State) : Host.Outcome State Fault Refusal :=
  ok (s.runOp e 1 6 (fun _ _ x _ => modular (x.getD 2 []) [x.getD 0 []] (fun m => invMod (beNat (x.getD 0 [])) m (8 * (x.getD 2 []).length))))

/-! ## RSA, curves, lattices, hash-based signatures -/

/-- RSA_SIGN (R222). -/
def execRsaSign (e : Fin 16) (s : State) : Host.Outcome State Fault Refusal :=
  ok (s.runOp e 2 1 rsaSign)

/-- RSA_VERIFY (R222). -/
def execRsaVerify (e : Fin 16) (s : State) : Host.Outcome State Fault Refusal :=
  ok (s.runOp e 2 2 (fun _ _ x _ => rsaVerify x))

/-- RSA_DECRYPT (R222). -/
def execRsaDecrypt (e : Fin 16) (s : State) : Host.Outcome State Fault Refusal :=
  ok (s.runOp e 2 3 (fun _ k x _ => rsaDecrypt k x))

/-- RSA_ENCRYPT (R222). -/
def execRsaEncrypt (e : Fin 16) (s : State) : Host.Outcome State Fault Refusal :=
  ok (s.runOp e 2 4 (fun op _ x r => rsaEncrypt op x r))

/-- RSA_KEYGEN (R222). -/
def execRsaKeygen (e : Fin 16) (s : State) : Host.Outcome State Fault Refusal :=
  ok (s.runOp e 2 5 (fun op _ x r => rsaKeygen op x r))

/-- ECDSA_SIGN (R222). -/
def execEcdsaSign (e : Fin 16) (s : State) : Host.Outcome State Fault Refusal :=
  ok (s.runOp e 3 1 ecdsaSign)

/-- ECDSA_VERIFY (R222). -/
def execEcdsaVerify (e : Fin 16) (s : State) : Host.Outcome State Fault Refusal :=
  ok (s.runOp e 3 2 (fun op _ x _ => ecdsaVerify op x))

/-- ECDH (R222). -/
def execEcdh (e : Fin 16) (s : State) : Host.Outcome State Fault Refusal :=
  ok (s.runOp e 3 3 (fun op k x _ => ecdh op k x))

/-- EC_KEYGEN (R222). -/
def execEcKeygen (e : Fin 16) (s : State) : Host.Outcome State Fault Refusal :=
  ok (s.runOp e 3 4 (fun op _ _ r => ecKeygen op r))

/-- VALIDATE (R222). -/
def execValidate (e : Fin 16) (s : State) : Host.Outcome State Fault Refusal :=
  ok (s.runOp e 3 5 (fun op _ x _ => validatePoint op x))

/-- EDDSA_SIGN (R222). -/
def execEddsaSign (e : Fin 16) (s : State) : Host.Outcome State Fault Refusal :=
  ok (s.runOp e 4 1 (fun op k x _ => eddsaSign op k x))

/-- EDDSA_VERIFY (R222). -/
def execEddsaVerify (e : Fin 16) (s : State) : Host.Outcome State Fault Refusal :=
  ok (s.runOp e 4 2 (fun op _ x _ => eddsaVerify op x))

/-- XDH (R222). -/
def execXdh (e : Fin 16) (s : State) : Host.Outcome State Fault Refusal :=
  ok (s.runOp e 4 3 (fun op k x _ => xdh op k x))

/-- EDDSA_KEYGEN (R222). -/
def execEddsaKeygen (e : Fin 16) (s : State) : Host.Outcome State Fault Refusal :=
  ok (s.runOp e 4 4 (fun op _ _ r => eddsaKeygen op r))

/-- XDH_KEYGEN (R222). -/
def execXdhKeygen (e : Fin 16) (s : State) : Host.Outcome State Fault Refusal :=
  ok (s.runOp e 4 5 (fun op _ _ r => xdhKeygen op r))

/-- ML_KEM_KEYGEN (R222). -/
def execMlKemKeygen (e : Fin 16) (s : State) : Host.Outcome State Fault Refusal :=
  ok (s.runOp e 5 1 (fun op _ _ r => mlKemKeygen op r))

/-- ML_KEM_ENCAPS (R222). -/
def execMlKemEncaps (e : Fin 16) (s : State) : Host.Outcome State Fault Refusal :=
  ok (s.runOp e 5 2 (fun op _ x r => mlKemEncaps op x r))

/-- ML_KEM_DECAPS (R222). -/
def execMlKemDecaps (e : Fin 16) (s : State) : Host.Outcome State Fault Refusal :=
  ok (s.runOp e 5 3 (fun op k x _ => mlKemDecaps op k x))

/-- ML_DSA_KEYGEN (R222). -/
def execMlDsaKeygen (e : Fin 16) (s : State) : Host.Outcome State Fault Refusal :=
  ok (s.runOp e 6 1 (fun op _ _ r => mlDsaKeygen op r))

/-- ML_DSA_SIGN (R222). -/
def execMlDsaSign (e : Fin 16) (s : State) : Host.Outcome State Fault Refusal :=
  ok (s.runOp e 6 2 mlDsaSign)

/-- ML_DSA_VERIFY (R222). -/
def execMlDsaVerify (e : Fin 16) (s : State) : Host.Outcome State Fault Refusal :=
  ok (s.runOp e 6 3 (fun op _ x _ => mlDsaVerify op x))

/-- XMSS_KEYGEN (R222). -/
def execXmssKeygen (e : Fin 16) (s : State) : Host.Outcome State Fault Refusal :=
  ok (s.runOp e 7 1 (fun op _ _ r => xmssKeygen op r))

/-- An XMSS signature takes a leaf of a committed block, waits for the next block, or finds the key's leaves used (R228). -/
def State.xmssSign (s : State) (j : Job) (q : PkeCall) (h : Handle) : State :=
  match s.node (hInst h) (hNode h) with
  | none => s.holdResult j q (noOut St.keyUseExhausted)
  | some n =>
    if n.leaf.1 < n.leaf.2 then
      let s1 := s.modNode (hInst h) (hNode h) (fun n => { n with leaf := (n.leaf.1 + 1, n.leaf.2) })
      s1.holdResult j q (xmssSignLeaf (s.callKeyBytes j q) q.inputs n.leaf.1)
    else if n.asked.isNone && n.allReserved then s.holdResult j q (noOut St.keyUseExhausted)
    else s.askInvs (hInst h) (hNode h)

/-- XMSS_SIGN (R228). -/
def execXmssSign (e : Fin 16) (s : State) : Host.Outcome State Fault Refusal :=
  ok (match s.callOn e 7 2 with
      | none => s
      | some (j, q) =>
        if q.status ≠ St.ok then s.setCall j.slot (some { q with phase := .computed })
        else match q.key with
          | none => s.holdResult j q (noOut St.accessFault)
          | some h => s.xmssSign j q h)

/-- XMSS_VERIFY (R222). -/
def execXmssVerify (e : Fin 16) (s : State) : Host.Outcome State Fault Refusal :=
  ok (s.runOp e 7 3 (fun op _ x _ => xmssVerify op x))

/-- SLH_DSA_VERIFY (R222). -/
def execSlhDsaVerify (e : Fin 16) (s : State) : Host.Outcome State Fault Refusal :=
  ok (s.runOp e 8 3 (fun op _ x _ => slhVerify op x))

end Sys2Proof.Machine
end

