-- ==== Sys2Proof/Machine/Service.lean ====
section
/-! DEFINITION. Taking an element out of service: its fence event, its work reissued to a sibling, the unit's self-diagnosis when it has none (R47 to R49, R127, R182, R197, R204, R238, R467 to R469). -/

namespace Sys2Proof.Machine

/-- P1 of event 0x1003 for an element: its master ID, or 0xFF with the kind in [15:8] (R332, Table 12-3). -/
def elemMaster (e : Nat) : Nat :=
  let k := elemKind e
  match k.1 with
  | 6 => 64 + k.2
  | 7 => 104
  | 8 => 105
  | 9 => 80 + k.2
  | 10 => k.2
  | n => 0xFF + 256 * n

/-- The gateable domain of an element (Table 09-16). -/
def elemDomain (e : Nat) : Option Nat :=
  let k := elemKind e
  match k.1 with
  | 1 => some (coreDomain k.2)
  | 2 => some (hashDomain k.2)
  | 3 => some (hashDomain k.2)
  | 6 => some (pkeDomain k.2)
  | 10 => some (laneDomain k.2)
  | _ => none

/-- An element is gated (R364). -/
def State.gatedElem (s : State) (e : Nat) : Bool :=
  match elemDomain e with
  | some d => s.prot.clockGated.getLsbD d || s.prot.powerGated.getLsbD d
  | none => false

/-- A DRBG instance stopped for want of a seed serves no request (R204). -/
def State.dryDrbg (s : State) (e : Nat) : Bool :=
  (elemKind e).1 == 4 && (s.engines.drbg.toList.getD (elemKind e).2 {}).stopped

/-- A healthy sibling of an element: of its kind, in service, able to serve (R47, R204). -/
def State.hasSibling (s : State) (e : Nat) : Bool :=
  (List.range 158).any (fun x => (elemKind x).1 == (elemKind e).1 && x != e && !s.fenced x && !s.gatedElem x && !s.dryDrbg x)

/-! ## The fence events (R127, R182, R197, R204, R238, R469) -/

/-- Fence an element by a timeout (4) or a failed test (1 KAT, 2 full, 3 march); a P field for which the event's table has no value for this case is free (log 9). -/
def State.fenceOut (s : State) (e cause : Nat) : State :=
  let n := (elemKind e).2
  let timeout := cause == 4
  match (elemKind e).1 with
  | 1 => let (x, s1) := s.take 32
         (s1.fence e cause).raise 0x5001 false n (if timeout then 1 else x.toNat) s.frame.cycle
  | 2 | 3 => (s.fence e cause).raise 0x5003 false n (if timeout then 1 else 2) 0
  | 4 => (s.fence e cause).raise 0x5014 false n (if timeout then 1 else 2) 0
  | 5 => let (x, s1) := s.take 32
         ((s1.fence e cause).raise (if x.getLsbD 31 then 0x5011 else 0x5010) false n (x.setWidth 31).toNat 0).sourceCheck
  | 6 => s.fencePke (Fin.ofNat 16 n) (if timeout then 1 else if cause = 3 then 4 else 2) cause (s.opOn (Fin.ofNat 16 n))
  | 10 => let (x, s1) := s.take 8
          (s1.fence e cause).raise 0x1007 (s.lanes.toList.getD n {}).hollow n x.toNat 0
  | _ => s.fence e cause

/-! ## Its work goes elsewhere (R47, R127) -/

/-- Requests on a cipher core go back to the scheduler. -/
def State.freeCore (s : State) (n : Nat) : State :=
  { s with cipher := { s.cipher with reqs := s.cipher.reqs.map (fun (r : BlkReq) =>
      if r.core.any (fun c => c.val == n) then { r with core := none } else r) } }

/-- The chunk of a hash engine goes back to its context. -/
def State.freeHash (s : State) (n : Nat) : State :=
  if h : n < 16 then ({ s with engines := { s.engines with chunk := s.engines.chunk.set n none h } }).dispatchHash else s

/-- The squeeze of a DRBG instance starts again elsewhere; a failed known-answer test zeroes its state (R204). -/
def State.freeDrbg (s : State) (n : Nat) (wipe : Bool) : State :=
  (s.modDrbg (Fin.ofNat 8 n) (fun d => { d with busy := none, done := 0, work := if wipe then none else d.work })).dispatchDrbg

/-- Jobs bound to a DMA mover are bound to another (R47; log 33). -/
def State.freeJobsOf (s : State) (n : Nat) : State :=
  let m := s.freeMover
  { s with jobs := s.jobs.map (fun (j : Job) => if j.ports.mover = n then { j with ports := { j.ports with mover := m } } else j) }

/-- Every context on a lane goes back to its job's block; the job of its slice is RUNNABLE elsewhere (R47, R127). -/
def State.emptyLane (s : State) (n : Nat) : State :=
  if h : n < 64 then
    let x := s.lanes[n].park
    let run := s.lanes[n].run
    let s1 := { s with jobs := s.jobs.map (fun (j : Job) =>
      { j with
        block := (tget x.resident j.slot).getD j.block
        st := if run = some j.slot ∧ j.st = JobState.running then .runnable else j.st }) }
    { s1 with lanes := s1.lanes.set n { x with run := none, resident := [], grants := [], tlb := [] } h }
  else s

/-- The call of a fenced public-key engine: started again once from its inputs, on a second timeout FAULT_DETECTED (Table 01-6); what the engine's region held stays discarded (R238; log 84). An abort it was at is complete. -/
def State.restartCall (s : State) (e : Fin 16) : State :=
  match s.pke.running[e].bind s.job with
  | none => { s with pke := { s.pke with twinRepeats := s.pke.twinRepeats.map (fun (r : TwinRepeat) => if r.engine = some e then { r with engine := none } else r) } }
  | some j =>
    match j.pke with
    | none => s.occupy e none
    | some q =>
      let s1 := (s.dropMade j q).freeEngines j.slot
      if q.phase = .aborting then s.abortDone j q
      else if q.restarted then
        s1.modJob j.slot (fun (x : Job) =>
          { x with
            pke := some { q with phase := .written, status := St.faultDetected, results := [], secret := none, made := none }
            region := none })
      else
        (s1.setCall j.slot (some { q.again with restarted := true, movedFrom := some e })).startCalls

/-- Take the work of an element away and reissue it. -/
def State.reissue (s : State) (e : Nat) (test : Bool) : State :=
  let n := (elemKind e).2
  match (elemKind e).1 with
  | 1 => s.freeCore n
  | 2 | 3 => s.freeHash n
  | 4 => s.freeDrbg n test
  | 6 => s.restartCall (Fin.ofNat 16 n)
  | 9 => s.freeJobsOf n
  | 10 => s.emptyLane n
  | _ => s

/-- Kinds whose last element leaving service is a self-diagnosed failure: block, hash, DRBG, derivation, protector and DMA requests (Table 01-6). -/
def servesRequests (e : Nat) : Bool := [1, 2, 3, 4, 7, 8, 9].contains (elemKind e).1

/-- No sibling: the unit diagnoses itself faulty, with cause 4 when no entropy source is healthy (R47, R204, R386). -/
def State.noSibling (s : State) (e : Nat) : State :=
  s.diagnose (if (elemKind e).1 = 4 ∧ s.engines.noSource then 4 else 1) e

/-- An engine timeout: event 0x1003, the element fenced, its request reissued to a sibling, or the unit faulty with none; the derivation engine has no sibling (Table 01-6; log 34). -/
def State.engineTimeout (s : State) (e : Nat) : State :=
  let sib := s.hasSibling e && (elemKind e).1 != 7
  let s1 := s.raise 0x1003 false (elemMaster e) (elemKind e).2 (if (elemKind e).1 = 6 then 3 else if sib || !servesRequests e then 1 else 2)
  let s2 := (s1.fenceOut e 4).reissue e false
  if sib || !servesRequests e then s2 else s2.noSibling e

/-- A failed test: the element is fenced as its timeout would fence it (R469). -/
def State.testFailed (s : State) (e cause : Nat) : State :=
  let s1 := s.raise 0x9001 false (elemKind e).1 (elemKind e).2 cause
  let s2 := (s1.fenceOut e cause).reissue e true
  if s.hasSibling e || !servesRequests e then s2 else s2.noSibling e

/-! ## Return (R49, R199, R204, R238) -/

/-- Frames an element has been fenced, saturating. -/
def State.fencedFor (s : State) (e : Nat) : Nat := min (s.frame.num - (s.elem e).since) (2 ^ 32 - 1)

/-- A fenced element returns to service: 0x9003 and its owner's event; a DRBG instance is instantiated afresh (R49, R199, R204). -/
def State.restore (s : State) (e : Nat) : State :=
  let n := (elemKind e).2
  let f := s.fencedFor e
  let s1 := (s.modElem e (fun x => { x with fenced := false, held := false, passes := 0 })).raise 0x9003 false (elemKind e).1 n f
  match (elemKind e).1 with
  | 4 =>
    let s2 := s1.modDrbg (Fin.ofNat 8 n) (fun _ => {})
    (match s2.reseed (Fin.ofNat 8 n) with
     | some t => t.dispatchDrbg
     | none => s2.modDrbg (Fin.ofNat 8 n) (fun d => { d with stopped := true }))
  | 5 => { s1 with engines := { s1.engines with noSource := false } }.raise 0x5012 false n f 0
  | 6 => (s1.raise 0x4003 false n f 0).startCalls
  | 2 | 3 => s1.dispatchHash
  | _ => s1

/-- A passed test: ages, the end of forcing, and for a fenced element a pass towards its return when 1 s has gone by since the last (R49, R466, R467, R471). -/
def State.testPassed (s : State) (e : Nat) (full : Bool) : State :=
  let x := s.elem e
  let counts := full && x.fenced && (x.passes = 0 || decide (x.passedAt + 100000 ≤ s.frame.num) || decide (3 ≤ x.passes))
  let passes := if counts then min 3 (x.passes + 1) else x.passes
  let s1 := s.modElem e (fun (x : Elem) =>
    { x with
      katAge := 0
      fullAge := if full then 0 else x.fullAge
      forcing := if full || x.forcing = some false then none else x.forcing
      passes := passes
      passedAt := if counts then s.frame.num else x.passedAt })
  if counts && 3 ≤ passes && !x.held then s1.restore e else s1

end Sys2Proof.Machine
end

