-- ==== Sys2Proof/Machine/Gating.lean ====
section
/-! DEFINITION. Gating of the Plain: requests, commit at order 7, gating at a boundary, power-up and denial (R190, R197, R217, R363 to R367). -/

namespace Sys2Proof.Machine

/-! ## GATE_REQ and GATE_STATE (R363, R364) -/

/-- The domains of the kind of a domain (Table 09-16). -/
def gateKind (d : Nat) : List Nat :=
  if d < 8 then [0, 1, 2, 3, 4, 5, 6, 7] else if d < 13 then [8, 9, 10, 11, 12]
  else if d < 16 then [13, 14, 15] else if d < 18 then [16, 17] else [18, 19, 20, 21]

/-- A gate request stands for a domain, staged or pending. -/
def State.gatePending (s : State) (d : Nat) : Bool := s.prot.gates.any (fun g => g.domain == d && (g.action == 1 || g.action == 2))

/-- A domain is gated, or a request would gate it. -/
def State.willGate (s : State) (d : Nat) : Bool := s.prot.clockGated.getLsbD d || s.prot.powerGated.getLsbD d || s.gatePending d

/-- No other domain of its kind stays ungated. -/
def State.lastDomain (s : State) (d : Nat) : Bool := (gateKind d).all (fun x => x == d || s.willGate x)

/-- The request is one Table 09-16 allows (R364). -/
def State.gateAllowed (s : State) (domain action div : Nat) : Bool :=
  if div = 3 ∨ 22 < domain then false
  else if domain = 22 then action == 3
  else if action = 3 then false
  else action == 0 || !s.lastDomain domain

/-- GATE_REQ (R364). -/
def execGateReq (rq : Req) (domain action div : Nat) (s : State) : Host.Outcome State Fault Refusal :=
  ok (s.request rq 0xC8 false (fun t =>
    if !t.gateAllowed domain action div then t.answer rq 0xC8 St.descInvalid
    else { t with prot := { t.prot with gates := t.prot.gates ++
      [{ domain := domain, action := if action = 3 then 3 + div else action, tag := rq.tag, commit := t.frame.num + 1 }] } }))

/-- A mask of domains. -/
def maskOf (ds : List Nat) : Nat := ds.eraseDups.foldl (fun m d => m + 2 ^ d) 0

/-- GATE_STATE (R364). -/
def execGateState (rq : Req) (s : State) : Host.Outcome State Fault Refusal :=
  ok (s.request rq 0xC9 false (fun t =>
    t.reply (replyTo rq) 0xC9 St.ok rq.tag (leBytes 4 t.prot.clockGated.toNat ++ leBytes 4 t.prot.powerGated.toNat ++
      leBytes 4 (maskOf ((t.prot.gates ++ t.prot.ungates).map (·.domain))))))

/-! ## What runs in a domain, and the Hollow's use of it (R363, R365) -/

/-- Lanes, engines and cores of a domain hold work in this frame. -/
def State.domainRuns (s : State) (d : Nat) : Bool :=
  if d < 8 then (List.range 64).any (fun n => laneDomain n == d &&
    ((s.lanes.toList.getD n {}).run.isSome || (s.lanes.toList.getD n {}).grants != []))
  else if d < 13 then s.cipher.reqs.any (fun r => r.core.any (fun c => coreDomain c.val == d))
  else if d < 18 then (List.range 16).any (fun n => hashDomain n == d && ((s.engines.chunk.toList.getD n none).isSome))
  else (List.range 16).any (fun n => pkeDomain n == d && ((s.pke.running.toList.getD n none).isSome ||
    s.pke.twinRepeats.any (fun r => r.engine.any (fun e => e.val == n))))

/-- The job of a slot is of the Hollow's world. -/
def State.hollowSlot (s : State) (slot : Nat) : Bool := (s.job slot).any (fun j => j.hollow)

/-- The Hollow uses a domain in this frame (Table 09-16). -/
def State.hollowUses (s : State) (d : Nat) : Bool :=
  if d < 8 then (List.range 64).any (fun n => laneDomain n == d && (s.lanes.toList.getD n {}).hollow)
  else if d < 13 then s.lanes.toList.any (fun x => x.hollow && (x.run.isSome || x.grants != []))
  else if d < 18 then (List.range 16).any (fun n => hashDomain n == d && (s.engines.chunk.toList.getD n none).any (fun c => s.hollowSlot c.1))
  else (List.range 16).any (fun n => pkeDomain n == d && (s.pke.running.toList.getD n none).any (fun j => s.hollowSlot j))

/-- The tail of a frame: each pending gate request notes whether its domain was in use, and the first tail with Hollow use notifies the monitor and completes PENDING_SECURE as the interim reply (Table 09-17). -/
def State.tailGates (s : State) : State :=
  let gs := s.prot.gates.map (fun (g : Gate) =>
    if s.frame.num < g.commit ∨ 2 < g.action then g
    else { g with busy := s.domainRuns g.domain || s.hollowUses g.domain, interim := g.interim || s.hollowUses g.domain })
  let told := (s.prot.gates.zip gs).filter (fun (e : Gate × Gate) => !e.1.interim && e.2.interim)
  told.foldl (fun (t : State) (e : Gate × Gate) =>
    (t.emit (.gateNotice e.2.domain)).interim (.mailbox 0) 0xC8 St.pendingSecure e.2.tag)
    { s with prot := { s.prot with gates := gs } }

/-! ## The commit at order 7 (R365 to R367) -/

/-- The final reply of a gating request. -/
def State.gateReply (s : State) (g : Gate) (st : BitVec 7) (body : Bytes) : State := s.reply (.mailbox 0) 0xC8 st g.tag body

/-- A gate request ends: event 0x2007 (R369). -/
def State.gateEnded (s : State) (g : Gate) (how : Nat) : State := s.raise 0x2007 false g.domain how (s.frame.num - g.commit)

/-- A clock-ungated domain is back in the frame after its commit (R367). -/
def State.clockBack (s : State) : State :=
  let due := s.prot.ungates.filter (fun g => decide (g.commit < s.frame.num) && !s.prot.powerGated.getLsbD g.domain)
  due.foldl (fun (t : State) (g : Gate) =>
    (({ t with prot := { t.prot with
        clockGated := t.prot.clockGated &&& ~~~((1 : BitVec 32) <<< g.domain)
        ungates := t.prot.ungates.filter (fun x => x != g) } }).gateReply g St.ok []).gateEnded g 3) s

/-- One request that commits: a division takes effect, an ungate begins and ends a gate request still pending for its domain, a gate stays pending until its boundary. -/
def State.commitGate (s : State) (g : Gate) : State :=
  if 3 ≤ g.action then
    ({ s with prot := { s.prot with div := g.action - 3, gates := s.prot.gates.filter (fun x => x != g) } }).gateReply g St.ok []
  else if g.action = 0 then
    let old := s.prot.gates.filter (fun x => x.domain == g.domain && x != g && decide (x.commit ≤ s.frame.num))
    let s1 := old.foldl (fun (t : State) (x : Gate) => t.gateReply x St.ok []) { s with prot := { s.prot with
      gates := s.prot.gates.filter (fun x => x != g && !old.contains x)
      ungates := s.prot.ungates ++ [g] } }
    s1
  else s

/-- Denials and requests that commit in this frame, in staging order (R33, R366). -/
def State.commitGates (s : State) : State :=
  let s1 := s.clockBack
  let denied := s1.prot.gates.filter (fun g => g.denied)
  let s2 := denied.foldl (fun (t : State) (g : Gate) => (t.gateReply g St.accessFault (leBytes 1 1)).gateEnded g 2)
    { s1 with prot := { s1.prot with gates := s1.prot.gates.filter (fun g => !g.denied) } }
  (s2.prot.gates.filter (fun g => g.commit == s2.frame.num)).foldl State.commitGate s2

/-! ## The boundary at which a domain is gated (R365) -/

/-- Contexts of a cluster are written back and regions of a PKE domain spilled (R217, R365). -/
def State.emptyDomain (s : State) (d : Nat) : State :=
  let s1 := ((List.range 64).filter (fun n => laneDomain n == d)).foldl (fun (t : State) n => t.emptyLane n) s
  { s1 with jobs := s1.jobs.map (fun (j : Job) =>
      { j with region := j.region.map (fun (r : Region0) =>
          if r.engine.any (fun e => pkeDomain e.val == d) then { r with engine := none } else r) }) }

/-- The gate request of a domain whose boundary this is: committed before this frame, not denied, its domain idle in the frame before; it stays pending while the Hollow restarts (R365, R366). -/
def State.gateDue (s : State) (d : Nat) : Option Gate :=
  if decide (s.prot.hollow = .restarting) then none
  else s.prot.gates.find? (fun g => g.domain == d && (g.action == 1 || g.action == 2) && decide (g.commit < s.frame.num) && !g.denied && !g.busy)

/-- DOMAIN_GATED (R365). -/
def execDomainGated (domain : Nat) (s : State) : Host.Outcome State Fault Refusal :=
  ok (match (if s.works then s.gateDue domain else none) with
      | none => s
      | some g =>
        if s.domainRuns domain then s
        else
          let p := s.prot
          let s1 := { s with prot := { p with
            gates := p.gates.filter (fun x => x != g)
            clockGated := if g.action = 1 then p.clockGated ||| ((1 : BitVec 32) <<< domain) else p.clockGated &&& ~~~((1 : BitVec 32) <<< domain)
            powerGated := if g.action = 2 then p.powerGated ||| ((1 : BitVec 32) <<< domain) else p.powerGated &&& ~~~((1 : BitVec 32) <<< domain) } }
          ((s1.emptyDomain domain).gateReply g St.ok []).gateEnded g 1)

/-- The elements of a domain in service that have a known-answer test: a lane has none (Tables 09-16, 12-9). -/
def State.katElems (s : State) (d : Nat) : List Nat :=
  (List.range 158).filter (fun e => elemDomain e == some d && (elemKind e).1 != 10 && !s.fenced e)

/-- The known-answer tests of a domain that has power again: an element that fails is fenced (R367, R469). -/
def State.katDomain (s : State) (d : Nat) (failed : List Nat) : State :=
  (s.katElems d).foldl (fun (t : State) e => if failed.contains e then t.testFailed e 1 else t.testPassed e false) s

/-- POWER_UNGATE_DONE (R367). -/
def execPowerUngateDone (domain : Nat) (failed : List Nat) (s : State) : Host.Outcome State Fault Refusal :=
  ok (match (if s.works then s.prot.ungates.find? (fun g => g.domain == domain && decide (g.commit + 10 ≤ s.frame.num)) else none) with
      | none => s
      | some g =>
        if !s.prot.powerGated.getLsbD domain then s
        else
          let s1 := s.katDomain domain failed
          if (s.katElems domain).any failed.contains then s1
          else
            (({ s1 with prot := { s1.prot with
                powerGated := s1.prot.powerGated &&& ~~~((1 : BitVec 32) <<< domain)
                ungates := s1.prot.ungates.filter (fun x => x != g) } }).gateReply g St.ok []).gateEnded g 3)

/-- GATE_DENY (R366). -/
def execGateDeny (master : Ctxt) (domain : Nat) (s : State) : Host.Outcome State Fault Refusal :=
  ok (if !s.works || !s.hollowUp || decide (master ≠ .core true true) then s
      else { s with prot := { s.prot with gates := s.prot.gates.map (fun (g : Gate) =>
        if g.domain = domain ∧ (g.action = 1 ∨ g.action = 2) then { g with denied := true } else g) } })

end Sys2Proof.Machine
end

