-- ==== Sys2Proof/Machine/Rings.lean ====
section
/-! DEFINITION. Doorbells, cancels, mailbox indices and the descriptor fetch (R62 to R68, R82, R305, R306, R378, R396). -/

namespace Sys2Proof.Machine

/-- Change a function: the instance served here, or the dormant shadow whose writes are stored and never latched (R378). -/
def State.modFn (s : State) (i : Nat) (f : Inst → Inst) : State :=
  if (s.inst i).isSome then s.modInst i f else { s with twin := { s.twin with shadows := tmod s.twin.shadows i f } }

/-- Change a queue pair of a function. -/
def State.modFnQ (s : State) (i : Nat) (q : Fin 4) (f : QPair → QPair) : State :=
  s.modFn i (fun x => { x with qs := x.qs.set q.val (f x.qs[q]) q.isLt })

/-- A returned instance whose doorbells are forwarded: for 100,000 frames after its return (R396). -/
def State.forwards (s : State) (i : Nat) : Bool := s.twin.returned.any (fun r => r.1 == i && decide (s.frame.num < r.2 + 100000))

/-- The registers of functions are served: the unit has started (R441, R532). -/
def State.serves (s : State) : Bool := s.frame.ticking

/-- A dormant function: a shadow, or an instance returned to its home whose jobs drain here (R378, R396). -/
def State.dormantFn (s : State) (i : Nat) : Bool := (s.inst i).elim true (fun x => decide (x.state = .dormant))

/-- A doorbell value of a dormant function is stored, and forwarded while that is due: code is the pair, or 4 and the pair for a completion head (R396). -/
def State.storeDoorbell (s : State) (i code : Nat) (v : BitVec 16) : State :=
  let s1 := s.modFnQ i (Fin.ofNat 4 code) (fun x => if code < 4 then { x with sqTail := v } else { x with cqHead := v })
  if s.forwards i then { s1 with twin := { s1.twin with fwdDoorbells := s1.twin.fwdDoorbells ++ [(i, code, v)] } } else s1

/-- DB_SQ_TAIL (R63). -/
def execDbSqTail (inst : Nat) (q : Fin 4) (value : BitVec 16) (s : State) : Host.Outcome State Fault Refusal :=
  ok (if !s.serves then s
      else if s.dormantFn inst then s.storeDoorbell inst q.val value
      else if !(s.inst inst).any (fun (x : Inst) => x.qs[q].en) then s
      else
        let s1 := s.modQ inst q (fun y => { y with sqTail := value })
        if (s1.inst inst).any (fun (y : Inst) => y.qs[q].active && y.qs[q].broken) then s1.ringError inst q else s1.fetchMore inst q)

/-- DESCRIPTOR_FETCH_DONE (R63). -/
def execDescriptorFetchDone (inst : Nat) (q : Fin 4) (fetched : FetchRes) (s : State) : Host.Outcome State Fault Refusal :=
  ok (match s.inst inst with
      | none => s
      | some x =>
        if x.qs[q].fetching = 0 then s
        else match fetched with
          | .got ds =>
            s.modQ inst q (fun y => { y with fetched := y.fetched ++ ds.take y.fetching, fetching := y.fetching - ds.length })
          | .failed timeout => ((s.readFailed inst timeout).modQ inst q (fun y => { y with fetching := 0 })).ringError inst q)

/-- DB_CQ_HEAD (R62). -/
def execDbCqHead (inst : Nat) (q : Fin 4) (value : BitVec 16) (s : State) : Host.Outcome State Fault Refusal :=
  ok (if !s.serves then s
      else if s.dormantFn inst then s.storeDoorbell inst (4 + q.val) value
      else if !(s.inst inst).any (fun (x : Inst) => x.qs[q].en) then s
      else
        let s1 := s.modQ inst q (fun y =>
          if value = y.cqHead then y else { y with cqHead := value, fullSince := none, headMoved := some s.frame.num })
        if (s1.inst inst).any (fun (y : Inst) => y.qs[q].active && y.qs[q].broken) then s1.ringError inst q else s1)

/-- Append a value to a cancel queue of 16. -/
def QPair.cancel (x : QPair) (v : Reg32) : QPair := if x.cancels.length < 16 then { x with cancels := x.cancels ++ [v] } else x

/-- DB_CANCEL (R82). -/
def execDbCancel (inst : Nat) (q : Fin 4) (value : Reg32) (s : State) : Host.Outcome State Fault Refusal :=
  ok (if !s.serves then s
      else if s.dormantFn inst then
        let s1 := s.modFnQ inst q (fun x => x.cancel value)
        if s.forwards inst then { s1 with twin := { s1.twin with fwdCancels := s1.twin.fwdCancels ++ [(inst, q.val, value)] } } else s1
      else if !(s.inst inst).any (fun (x : Inst) => x.qs[q].en) then s
      else if (s.inst inst).any (fun (x : Inst) => decide (x.qs[q].cancels.length < 16)) then s.modQ inst q (fun y => y.cancel value)
      else s.countInst inst 13 1)

/-- MB_REQ_TAIL (R305). -/
def execMbReqTail (inst : Nat) (value : BitVec 8) (s : State) : Host.Outcome State Fault Refusal :=
  ok (if !s.serves && s.power.run ≠ .stopped then s
      else
        let s1 := s.modFn inst (fun x => { x with reqTail := value })
        s1.modInst inst (fun x => { x with
          mbErr := x.mbErr || decide (16 < (value - x.reqHead).toNat)
          reqLatched := if s1.ticks then x.reqLatched else value }))

/-- MB_RSP_HEAD (R306). -/
def execMbRspHead (inst : Nat) (value : BitVec 8) (s : State) : Host.Outcome State Fault Refusal :=
  ok (if !s.serves && s.power.run ≠ .stopped then s
      else
        let s1 := s.modFn inst (fun x => { x with rspHead := value })
        s1.modInst inst (fun x => { x with mbErr := x.mbErr || decide (16 < (x.rspTail - value).toNat) }))

end Sys2Proof.Machine
end

