-- ==== Sys2Proof/Machine/Registers.lean ====
section
/-! DEFINITION. Register reads and writes of the host: FRM_, TWN_, PASS_, FN_, EVR_, PMC_ and the functions' own registers (R7, R15, R50, R66, R69, R304, R402, R408, R456, R465, R476, R481, R487). -/

namespace Sys2Proof.Machine

/-- Answer a register read. -/
def State.regRead (s : State) (v : Nat) : State := s.emit (.regData (BitVec.ofNat 64 v))

/-! ## Reads that latch (R15, R408) -/

/-- FRM_NUM_LO (R15). -/
def execFrmNumLo (s : State) : Host.Outcome State Fault Refusal :=
  ok (State.regRead { s with frame := { s.frame with numHi := BitVec.ofNat 32 (s.frame.num / 2 ^ 32) } } (s.frame.num % 2 ^ 32))

/-- TWN_CONF_LO (R408). -/
def execTwnConfLo (s : State) : Host.Outcome State Fault Refusal :=
  ok (State.regRead { s with twin := { s.twin with confHi := BitVec.ofNat 32 (s.twin.confLatch / 2 ^ 32) } } (s.twin.confLatch % 2 ^ 32))

/-! ## Staged registers (R50, R402, R408, R481, R487) -/

/-- A value brought into a range. -/
def clamp (lo hi v : Nat) : Nat := max lo (min hi v)

/-- FRM_CTRL (R50). -/
def execFrmCtrl (value : Reg32) (s : State) : Host.Outcome State Fault Refusal :=
  ok (if !s.serves then s
      else { s with frame := { s.frame with
        stagedCtrl := some (value.getLsbD 0, value.getLsbD 1, clamp 85 100 (value.extractLsb' 2 7).toNat) } })

/-- FRM_LEND (R50). -/
def execFrmLend (value : Reg32) (s : State) : Host.Outcome State Fault Refusal :=
  ok (if !s.serves then s else { s with frame := { s.frame with stagedLend := some (value.toNat % 65536) } })

/-- TWN_CTRL (R408). -/
def execTwnCtrl (value : Reg32) (s : State) : Host.Outcome State Fault Refusal :=
  ok (if !s.serves then s else { s with twin := { s.twin with stagedCtrl := some (value.getLsbD 0, value.getLsbD 1) } })

/-- SWAP_NOW (R402). -/
def execSwapNow (s : State) : Host.Outcome State Fault Refusal :=
  ok (if !s.serves then s else { s with passes := { s.passes with swapNow := true } })

/-- PASS_SWAP_PERIOD (R402). -/
def execPassSwapPeriod (value : Reg32) (s : State) : Host.Outcome State Fault Refusal :=
  ok (if !s.serves then s
      else { s with passes := { s.passes with periodStaged := some (if value = 0 then 0 else clamp 3600 2592000 value.toNat) } })

/-- PASS_MAC (R487). -/
def execPassMac (value : BitVec 48) (s : State) : Host.Outcome State Fault Refusal :=
  ok (if !s.serves then s else { s with net := { s.net with regStaged := (some value, s.net.regStaged.2) } })

/-- FN_CTRL (R481). -/
def execFnCtrl (value : Reg32) (s : State) : Host.Outcome State Fault Refusal :=
  ok (if !s.serves then s else { s with host := { s.host with pfStaged := some (value.getLsbD 0) } })

/-! ## Freezing Strata (R456, R457) -/

/-- FREEZE (R456). -/
def execFreeze (s : State) : Host.Outcome State Fault Refusal :=
  ok (if !s.serves || s.strata.frozen.isSome then s else { s with strata := { s.strata with frozen := some (s.frame.num, 0) } })

/-- THAW (R457). -/
def execThaw (s : State) : Host.Outcome State Fault Refusal :=
  ok (if s.serves && s.strata.frozen.isSome then { s with strata := { s.strata with thaw := true } } else s)

/-- FREEZE_EXPIRY (R457). -/
def execFreezeExpiry (s : State) : Host.Outcome State Fault Refusal :=
  ok (if decide (s.frame.cycle < 11800) || s.strata.thaw then s
      else match s.freezeEnd with
        | some c => s.endFreezeOf c
        | none => s)

/-! ## Performance counters (R460, R464, R465) -/

/-- Change a counter. -/
def State.modCtr (s : State) (c : CounterId) (f : Ctr → Ctr) : State :=
  match c with
  | .lane n k => { s with pmc := { s.pmc with lane := tset s.pmc.lane (8 * n.val + k.val) (f ((tget s.pmc.lane (8 * n.val + k.val)).getD {})) } }
  | .glob g => { s with pmc := { s.pmc with glob := tset s.pmc.glob g.val (f ((tget s.pmc.glob g.val).getD {})) } }
  | .inst i k => if i < 1024 then
      { s with pmc := { s.pmc with inst := tset s.pmc.inst (16 * i + k.val) (f ((tget s.pmc.inst (16 * i + k.val)).getD {})) } } else s

/-- A counter. -/
def State.ctr (s : State) (c : CounterId) : Ctr :=
  match c with
  | .lane n k => (tget s.pmc.lane (8 * n.val + k.val)).getD {}
  | .glob g => (tget s.pmc.glob g.val).getD {}
  | .inst i k => (tget s.pmc.inst (16 * i + k.val)).getD {}

/-- The HI word: bits [47:32], SAT in bit 31. -/
def hiWord (v : BitVec 48 × Bool) : Reg32 := (v.1 >>> 32).setWidth 32 ||| (if v.2 then 0x80000000 else 0)

/-- A write of HI: both halves where a LO write is held, else bits [47:32] alone; SAT is cleared. -/
def Ctr.writeHi (c : Ctr) (v : Reg32) : Ctr :=
  let lo : BitVec 48 := (c.loHeld.getD (c.live.setWidth 32)).setWidth 48
  { c with live := ((v.setWidth 16).setWidth 48 <<< 32) ||| lo, sat := false, loHeld := none }

/-- PMC_COUNTER_LO_WRITE (R465). -/
def execPmcCounterLoWrite (c : CounterId) (value : Reg32) (s : State) : Host.Outcome State Fault Refusal :=
  ok (if !s.serves then s else s.modCtr c (fun x => { x with loHeld := some value }))

/-- PMC_COUNTER_HI_WRITE (R465). -/
def execPmcCounterHiWrite (c : CounterId) (value : Reg32) (s : State) : Host.Outcome State Fault Refusal :=
  ok (if !s.serves then s else s.modCtr c (fun x => x.writeHi value))

/-- PMC_COUNTER_LO_READ (R465). -/
def execPmcCounterLoRead (c : CounterId) (s : State) : Host.Outcome State Fault Refusal :=
  ok (if !s.serves then s.regRead 0
      else (s.modCtr c (fun x => { x with hiLatch := hiWord x.snap })).regRead ((s.ctr c).snap.1.toNat % 2 ^ 32))

/-- CLR_LANE (R465). -/
def execClrLane (s : State) : Host.Outcome State Fault Refusal :=
  ok (if !s.serves then s else { s with pmc := { s.pmc with clrLane := true } })

/-- CLR_GLOBAL (R465). -/
def execClrGlobal (s : State) : Host.Outcome State Fault Refusal :=
  ok (if !s.serves then s else { s with pmc := { s.pmc with clrGlobal := true } })

/-- PMC_SMP_HEAD (R464). -/
def execPmcSmpHead (value : BitVec 16) (s : State) : Host.Outcome State Fault Refusal :=
  ok (if !s.serves then s else { s with pmc := { s.pmc with smpHead := value } })

/-! ## Registers with no behaviour of their own (R69, R76, R304, R465, R476) -/

/-- Replace the half of a 64-bit value that a 32-bit register holds. -/
def putHalf (hi : Bool) (old : Word) (v : Reg32) : Word :=
  if hi then (old &&& 0xFFFFFFFF) ||| (v.setWidth 64 <<< 32) else (old &&& 0xFFFFFFFF00000000) ||| v.setWidth 64

/-- A ring size as it reads back (Table 02-6). -/
def ringLog (n : Nat) : Nat := if 6 ≤ n ∧ n ≤ 15 then n else 6

/-- Q_CTRL: a pair enabled again before EN was sampled forgets what was written for it (R66). -/
def QPair.writeCtrl (q : QPair) (v : Reg32) : QPair :=
  let p := { q with
    en := v.getLsbD 0, irqEn := v.getLsbD 1
    coalCount := (v.extractLsb' 8 8).toNat, coalFrames := (v.extractLsb' 16 8).toNat }
  if p.en && !q.en && !q.active then { p with sqTail := 0, cqHead := 0, taken := 0, cancels := [], fetched := [], fetching := 0, ready := 0 } else p

/-- A write to the ring configuration of a pair: bases and sizes only while EN is 0 and QUIESCED is 1 (R66, R69). -/
def QPair.writeReg (q : QPair) (off : Nat) (v : Reg32) : QPair :=
  let free := !q.en && q.quiesced
  match off with
  | 0x00 => if free then { q with sqBase := putHalf false q.sqBase (v &&& 0xFFFFF000) } else q
  | 0x04 => if free then { q with sqBase := putHalf true q.sqBase v } else q
  | 0x08 => if free then { q with cqBase := putHalf false q.cqBase (v &&& 0xFFFFF000) } else q
  | 0x0C => if free then { q with cqBase := putHalf true q.cqBase v } else q
  | 0x10 => if free then { q with sqLog := ringLog (v.extractLsb' 0 4).toNat, cqLog := ringLog (v.extractLsb' 8 4).toNat } else q
  | 0x14 => q.writeCtrl v
  | 0x20 => if v.getLsbD 2 then { q with ringErr := false } else q
  | _ => q

/-- Bytes written within a request slot (R476). -/
def writeSlot (slot : Bytes) (off : Nat) (b : Bytes) : Bytes :=
  let old := padTo 64 slot
  old.take off ++ b ++ old.drop (off + b.length)

/-- Mask or unmask a vector of an instance; unmasking sends a pending message (R76). -/
def State.maskVf (s : State) (i : Nat) (v : Fin 2) (mask : Bool) : State :=
  match s.inst i with
  | none => s
  | some x =>
    let s1 := s.modInst i (fun y => { y with vecMask := y.vecMask.set v.val mask v.isLt })
    if mask || !x.vecPend[v] then s1
    else (s1.modInst i (fun y => { y with vecPend := y.vecPend.set v.val false v.isLt })).msix i v

/-- Mask or unmask a vector of a physical function. -/
def State.maskPf (s : State) (p : Fin 2) (v : Nat) (mask : Bool) : State :=
  let bit : BitVec 64 := (1 : BitVec 64) <<< v
  if mask then s.modPort p (fun x => { x with mask := x.mask ||| bit })
  else
    let pending := s.host.ports[p].pend.getLsbD v
    let s1 := s.modPort p (fun x => { x with mask := x.mask &&& ~~~bit })
    if pending && p == s.inUse then (s1.modPort p (fun x => { x with pend := x.pend &&& ~~~bit })).pfVector v else s1

/-- A 32-bit write to a register of an instance's function (Table 13-3). -/
def State.writeFn (s : State) (i off : Nat) (v : Reg32) : State :=
  if 0x1000 ≤ off ∧ off < 0x1100 then
    (if s.serves && !s.dormantFn i then s.modQ i (Fin.ofNat 4 ((off - 0x1000) / 0x40)) (fun q => q.writeReg (off % 0x40) v) else s)
  else if off = 0x2810 then s.modInst i (fun x => { x with mbIrq := v.getLsbD 0 })
  else if off = 0x2814 then (if v.getLsbD 0 then s.modInst i (fun x => { x with mbErr := false }) else s)
  else if (off = 0x800C ∨ off = 0x801C) ∧ s.serves then s.maskVf i (Fin.ofNat 2 ((off - 0x8000) / 16)) (v.getLsbD 0)
  else s

/-- A 32-bit write to PMC_SMP_ and PMC_LSEL registers (Table 12-8). -/
def State.writePmc (s : State) (off : Nat) (v : Reg32) : State :=
  let p := s.pmc
  if 0x2000 ≤ off ∧ off < 0x2200 then
    let n := (off - 0x2000) / 8
    let old : Word := (tget p.lsel n).getD 0x0807060504030201
    { s with pmc := { p with lsel := tset p.lsel n (putHalf (decide (off % 8 = 4)) old v) } }
  else match off with
    | 0x4000 => { s with pmc := { p with smpEn := v.getLsbD 0, smpCounter := v.extractLsb' 1 3, smpVector := v.extractLsb' 8 6, watermark := v.extractLsb' 16 16 } }
    | 0x4004 => { s with pmc := { p with period := max 4096 v.toNat } }
    | 0x4008 => if p.smpEn then s else { s with pmc := { p with smpBase := putHalf false p.smpBase (v &&& 0xFFFFF000) } }
    | 0x400C => if p.smpEn then s else { s with pmc := { p with smpBase := putHalf true p.smpBase v } }
    | 0x4010 =>
      let n := (v.extractLsb' 0 4).toNat
      if p.smpEn then s
      else if 6 ≤ n then { s with pmc := { p with smpLog := n } }
      else
        let (x, s1) := s.take 4
        { s1 with pmc := { s1.pmc with smpLog := x.toNat } }
    | _ => s

/-- W1C bits of FRM_STAT. -/
def State.clearFrm (s : State) (v : Reg32) : State :=
  let f := s.frame
  { s with frame := { f with
      shedSeen := f.shedSeen && !v.getLsbD 0, alignWarn := f.alignWarn && !v.getLsbD 1, admitFull := f.admitFull && !v.getLsbD 2
      inflightFull := f.inflightFull && !v.getLsbD 3, fenceSeen := f.fenceSeen && !v.getLsbD 4 } }

/-- A 32-bit write to a register of the physical function's BAR0 (Table 13-2). -/
def State.writePf (s : State) (p : Fin 2) (off : Nat) (v : Reg32) : State :=
  if off = 0x000018 then s.clearFrm v
  else if off = 0x200000 then (if v.getLsbD 7 then { s with strata := { s.strata with checkErr := false } } else s)
  else if off = 0x200018 then { s with strata := { s.strata with winBase := v } }
  else if off = 0x20001C then { s with strata := { s.strata with winSel := v.getLsbD 0 } }
  else if 0x300000 ≤ off ∧ off < 0x310000 then s.writePmc (off - 0x300000) v
  else if off = 0x400104 then
    { s with passes := { s.passes with revertStaged := some (v.getLsbD 0), swapNow := s.passes.swapNow || v.getLsbD 1 } }
  else if off = 0x400128 then { s with net := { s.net with regStaged := (s.net.regStaged.1, some (v.toNat % 65536), s.net.regStaged.2.2) } }
  else if off = 0x40012C then { s with net := { s.net with regStaged := (s.net.regStaged.1, s.net.regStaged.2.1, some (v.toNat % 65536)) } }
  else if 0x900000 ≤ off ∧ off < 0x900400 ∧ off % 16 = 12 then s.maskPf p ((off - 0x900000) / 16) (v.getLsbD 0)
  else s

/-- One 32-bit write: to an instance's function, to instance 0's block in the physical function, or to the rest of its BAR0. -/
def State.write32 (s : State) (fn : Option Nat) (off : Nat) (v : Reg32) : State :=
  match fn with
  | some i => s.writeFn i off v
  | none =>
    if 0x800000 ≤ off ∧ off < 0x810000 then s.writeFn 0 (off - 0x800000) v
    else if s.serves then s.writePf s.inUse off v else s

/-- The request slot a write lies in: instance, slot, offset. -/
def slotOf (fn : Option Nat) (off n : Nat) : Option (Nat × Nat × Nat) :=
  let o := match fn with | some _ => off | none => off - 0x800000
  if (fn.isNone ∧ off < 0x800000) ∨ o < 0x2000 ∨ 0x2400 ≤ o ∨ 64 < o % 64 + n then none
  else some (fn.getD 0, (o - 0x2000) / 64, o % 64)

/-- REGISTER_WRITE (R7). -/
def execRegisterWrite (fn : Option Nat) (offset width : Nat) (value : Word) (s : State) : Host.Outcome State Fault Refusal :=
  ok (match slotOf fn offset (width / 8) with
      | some (i, k, o) =>
        if width % 8 ≠ 0 ∨ width = 0 ∨ 64 < width then s.emit .discarded
        else if h : k < 16 then s.modFn i (fun x => { x with req := x.req.set k (writeSlot x.req[k] o (leBytes (width / 8) value.toNat)) h }) else s
      | none =>
        if width = 32 ∧ offset % 4 = 0 then s.write32 fn offset (value.setWidth 32)
        else if width = 64 ∧ offset % 8 = 0 then
          (s.write32 fn offset (value.setWidth 32)).write32 fn (offset + 4) ((value >>> 32).setWidth 32)
        else s.emit .discarded)

end Sys2Proof.Machine
end

