-- ==== Sys2Proof/Machine/HostLink.lean ====
section
/-! DEFINITION. The host ports: PERSTn_N, link state, Bus Master Enable, VF Enable, function-level resets, the port of instance 0, unmasking (R76, R472 to R478, R521). -/

namespace Sys2Proof.Machine

/-- The ports follow their pins and links: not in cold reset, not at quiescence, not in a power-fail sequence (Table 14-8). -/
def State.portsLive (s : State) : Bool :=
  match s.power.run with
  | .running | .stopped | .halted => true
  | .coldReset | .failing | .quiescent => false

/-! ## Requests stop and resume (R477) -/

/-- A job whose first reads have brought nothing yet reads again. -/
def Job.unread (j : Job) : Bool := !j.finished && j.ports.src == [] && j.ports.arg.isNone

/-- Functions that may issue requests now and could not before: what waited is released, descriptors and the reads of jobs are fetched (R477). -/
def State.resumeHost (s before : State) : State :=
  let back (i : Nat) : Bool := s.functionUp i && !before.functionUp i
  let s1 := s.releaseWrites.fetchAll
  s1.jobs.foldl (fun (t : State) (j : Job) => if !back j.inst then t else if j.unread then t.firstReads j else t.refill j.slot) s1

/-- PERST_RELEASE (R521). -/
def execPerstRelease (p : Fin 2) (s : State) : Host.Outcome State Fault Refusal :=
  ok (s.modPort p (fun x => { x with perst := false }))

/-- PCIE_LINK_DOWN (R477). -/
def execPcieLinkDown (p : Fin 2) (s : State) : Host.Outcome State Fault Refusal :=
  ok (if s.portsLive then s.modPort p (fun x => { x with up := false, rate := 0, width := 0 }) else s)

/-- PCIE_LINK_UP (R477). -/
def execPcieLinkUp (p : Fin 2) (rate width : Nat) (s : State) : Host.Outcome State Fault Refusal :=
  ok (if !s.portsLive || s.host.ports[p].perst || decide (5 < rate) || !([1, 4, 8, 16].contains width) then s
      else (s.modPort p (fun x => { x with up := true, rate := rate, width := width })).resumeHost s)

/-- BUS_MASTER_ENABLE_CHANGE (R477). -/
def execBusMasterEnableChange (fn : Option Nat) (p : Fin 2) (on : Bool) (s : State) : Host.Outcome State Fault Refusal :=
  ok (if !s.portsLive || !s.host.ports[p].up then s
      else match fn with
        | none => (s.modPort p (fun x => { x with bme := on })).resumeHost s
        | some i => if i = 0 then s else (s.modFn i (fun x => { x with bme := on })).resumeHost s)

/-- VF_ENABLE_CHANGE (R477). -/
def execVfEnableChange (p : Fin 2) (on : Bool) (numVfs : Nat) (s : State) : Host.Outcome State Fault Refusal :=
  ok (if !s.portsLive || !s.host.ports[p].up then s else (s.modPort p (fun x => { x with vfEnable := on, numVfs := numVfs })).resumeHost s)

/-! ## Function-level resets (R313, R474, R478) -/

/-- A function-level reset of a virtual function resets its instance; a dormant shadow's holds nothing to reset. -/
def State.flrInst (s : State) (i : Nat) : State := if s.works then s.startReset i false true [] else s

/-- VF_FLR (R478). -/
def execVfFlr (inst : Nat) (s : State) : Host.Outcome State Fault Refusal :=
  ok (if inst = 0 ∨ !s.portsLive then s else s.flrInst inst)

/-- Instances bound to a port. -/
def State.boundTo (s : State) (p : Fin 2) : List Nat :=
  (s.insts.filter (fun (e : Nat × Inst) => e.1 ≠ 0 && e.2.port == p.val)).map (fun (e : Nat × Inst) => e.1)

/-- Instance 0 can use a port (R474). -/
def State.usable (s : State) (p : Fin 2) : Bool :=
  let x := s.host.ports[p]
  x.up && x.bme && !x.flr && !x.perst

/-- A function-level reset of a physical function (R478). -/
def State.flrPort (s : State) (p : Fin 2) : State :=
  let s1 := s.modPort p (fun x =>
    { x with
      bme := false, vfEnable := false, numVfs := 0, mask := BitVec.allOnes 64, pend := 0
      flr := true })
  let s2 := (s1.boundTo p).foldl State.flrInst s1
  if s2.usable (1 - p) then s2 else s2.flrInst 0

/-- PF_FLR (R478). -/
def execPfFlr (p : Fin 2) (s : State) : Host.Outcome State Fault Refusal :=
  ok (if s.portsLive then s.flrPort p else s)

/-- PERST_ASSERT (R521). -/
def execPerstAssert (p : Fin 2) (s : State) : Host.Outcome State Fault Refusal :=
  ok (let s1 := s.modPort p (fun x => { x with perst := true })
      if s.portsLive && s.power.fail.isNone then (s1.modPort p (fun x => { x with up := false, rate := 0, width := 0 })).flrPort p else s1)

/-- The function-level reset of a physical function completes with those of the instances bound to it. -/
def State.endFlr (s : State) (p : Fin 2) : State :=
  if s.host.ports[p].flr && !(s.boundTo p).any (fun i => (s.inst i).any (fun x => x.reset.any (·.flr))) then
    s.modPort p (fun x => { x with flr := false })
  else s

/-! ## The port of instance 0 (R474) -/

/-- The port PF_PORT names while it is usable, else the other while that is usable, else no change. -/
def State.portWanted (s : State) : Bool :=
  let named : Fin 2 := if s.host.pfPort then 1 else 0
  if s.usable named then s.host.pfPort else if s.usable (1 - named) then !s.host.pfPort else s.host.inUse1

/-- Instance 0 uses the port it should. -/
def State.movePort (s : State) : State :=
  let w := s.portWanted
  if w = s.host.inUse1 then s else ({ s with host := { s.host with inUse1 := w } }).resumeHost s

/-- INSTANCE0_PORT_MOVE (R474). -/
def execInstance0PortMove (s : State) : Host.Outcome State Fault Refusal :=
  ok (if s.ticks && decide (11200 ≤ s.frame.cycle) then s.movePort else s)

/-! ## MSI-X (R76) -/

/-- MSIX_UNMASK (R76). -/
def execMsixUnmask (fn : Option Nat) (p : Fin 2) (vector : Nat) (s : State) : Host.Outcome State Fault Refusal :=
  ok (if !s.serves then s
      else match fn with
        | some i => if h : vector < 2 then s.maskVf i ⟨vector, h⟩ false else s
        | none => if vector < 64 then s.maskPf p vector false else s)

end Sys2Proof.Machine
end

