-- ==== Sys2Proof/Machine/Migration.lean ====
section
/-! DEFINITION. Dirty-page logging and live migration (R316 to R323). -/

namespace Sys2Proof.Machine

/-! ## Dirty logging (R316 to R318) -/

/-- A DIRTY_SET body that breaks Table 08-9. -/
def dirtyBad (a b : Word) (base len : Nat) : Bool :=
  a.toNat % 8 != 0 || b.toNat % 8 != 0 || base % 2097152 != 0 || len % 2097152 != 0 || decide (2 ^ 40 < len) || decide (2 ^ 64 ≤ base)

/-- DIRTY_SET (R316). -/
def execDirtySet (rq : Req) (inst : Nat) (en : Bool) (a b : Word) (base len : Nat) (s : State) : Host.Outcome State Fault Refusal :=
  ok (s.request rq 0x88 false (fun t =>
    if !t.takesCommands inst || dirtyBad a b base len then t.answer rq 0x88 St.descInvalid
    else t.stage (.dirtySet inst { en := en, a := a, b := b, base := base, len := len } (replyTo rq) rq.tag)))

/-- DIRTY_SWAP (R318). -/
def execDirtySwap (rq : Req) (inst : Nat) (s : State) : Host.Outcome State Fault Refusal :=
  ok (s.request rq 0x89 false (fun t =>
    match t.inst inst with
    | none => t.answer rq 0x89 St.descInvalid
    | some x =>
      if !t.takesCommands inst || !x.dirty.en || x.dirty.swap.isSome then t.answer rq 0x89 St.descInvalid
      else t.stage (.dirtySwap inst (replyTo rq) rq.tag)))

/-- The 64-bit words of a bitmap with a mark in them: word number and value (R316). -/
def bitmapWords : List Nat → List (Nat × Nat)
  | [] => []
  | p :: ps =>
    match bitmapWords ps with
    | (w, v) :: rest => if w = p / 64 then (w, v + 2 ^ (p % 64)) :: rest else (p / 64, 2 ^ (p % 64)) :: (w, v) :: rest
    | [] => [(p / 64, 2 ^ (p % 64))]

/-- Write the marks of the inactive buffer back through instance 0's function (R317, Table 08-10). -/
def State.writeBack (s : State) (d : Dirty) : State :=
  let buf := if d.onB then d.a else d.b
  (bitmapWords d.other).foldl (fun (t : State) w => t.hostWrite 0 (buf + BitVec.ofNat 64 (8 * w.1)) (leBytes 8 w.2)) s

/-- BITMAP_SWAP_COMPLETE (R318). -/
def execBitmapSwapComplete (inst : Nat) (s : State) : Host.Outcome State Fault Refusal :=
  ok (match s.inst inst with
      | none => s
      | some x =>
        match x.dirty.swap with
        | none => s
        | some (d, tag) =>
          let s1 := ((s.writeBack x.dirty).emit (.flush 0)).modInst inst (fun y => { y with dirty := { y.dirty with swap := none, other := [] } })
          s1.reply d 0x89 St.ok tag (leBytes 4 (min x.dirty.outsideOld (2 ^ 32 - 1))))

/-! ## Freezing (R319) -/

/-- MIG_FREEZE (R319). -/
def execMigFreeze (rq : Req) (inst : Nat) (s : State) : Host.Outcome State Fault Refusal :=
  ok (s.request rq 0x8A false (fun t =>
    match t.inst inst with
    | none => t.answer rq 0x8A St.descInvalid
    | some x =>
      if inst = 0 ∨ !(decide (x.state = .active) || decide (x.state = .stalled)) then t.answer rq 0x8A St.descInvalid
      else t.stage (.migFreeze inst (replyTo rq) rq.tag)))

/-- FREEZE_COMPLETE (R319). -/
def execFreezeComplete (inst : Nat) (s : State) : Host.Outcome State Fault Refusal :=
  ok (match s.inst inst with
      | none => s
      | some x =>
        match x.freeze with
        | none => s
        | some (d, tag) =>
          if s.inflightOf inst ≠ 0 ∨ x.outstanding ≠ 0 then s
          else (s.modInst inst (fun y => { y with freeze := none })).reply d 0x8A St.ok tag [])

/-- MIG_THAW (R319). -/
def execMigThaw (rq : Req) (inst : Nat) (s : State) : Host.Outcome State Fault Refusal :=
  ok (s.request rq 0x8D false (fun t =>
    match t.inst inst with
    | none => t.answer rq 0x8D St.descInvalid
    | some x =>
      if x.state ≠ .frozen then t.answer rq 0x8D St.descInvalid
      else t.stage (.migThaw inst (replyTo rq) rq.tag)))

/-! ## Exporting and importing (R320 to R323) -/

/-- Bytes of a target statement (R320). -/
def targetLen : Nat := 1568 + 8 + 8 + 2692

/-- TARGET_KEY (R320). -/
def execTargetKey (rq : Req) (outAddr : Word) (outLen : Nat) (s : State) : Host.Outcome State Fault Refusal :=
  ok (s.request rq 0x8E true (fun t =>
    if outLen < targetLen then t.answer rq 0x8E St.lengthInvalid
    else
      let r := t.takeRandom 64
      let k := Config.kemKeygen r.1
      let m := targetBytes { encapKey := k.1, epoch := t.epoch, frame := t.frame.num, sig := [], rsv := false }
      match r.2.attSign m with
      | none => t.answer rq 0x8E St.keyUseExhausted
      | some (sig, _, u) =>
        let v := { u with mail := { u.mail with targets := u.mail.targets.drop (u.mail.targets.length - 3) ++ [({ encap := k.1, decap := k.2 } : TargetKey)] } }
        (v.hostWrite (srcInst rq.src) outAddr (m ++ sig)).answer rq 0x8E St.ok))

/-- What refuses an export before its package is made (R274, R321). -/
def State.exportRefused (s : State) (x : Inst) (target : TargetStatement) (cert : OwnerCert) : Option (BitVec 7) :=
  if x.state ≠ .frozen ∨ x.freeze.isSome ∨ x.export_.isSome then some St.descInvalid
  else if !s.quarry.ownerKeys then some St.keyUnknown
  else if target.rsv ∨ target.epoch ≠ s.epoch ∨ !s.certGood cert (targetBytes target) target.sig then some St.authFail
  else none

/-- MIG_EXPORT (R321). -/
def execMigExport (rq : Req) (inst : Nat) (outAddr : Word) (outLen : Nat) (target : TargetStatement) (cert : OwnerCert) (s : State) : Host.Outcome State Fault Refusal :=
  ok (s.request rq 0x8B true (fun t =>
    match t.inst inst with
    | none => t.answer rq 0x8B St.descInvalid
    | some x =>
      match t.exportRefused x target cert with
      | some st => t.answer rq 0x8B st
      | none =>
        match t.makePackage inst x target.encapKey with
        | none => t.answer rq 0x8B St.keyUseExhausted
        | some (parts, u) =>
          if outLen < (parts.map (·.length)).sum then t.answer rq 0x8B St.lengthInvalid
          else u.modInst inst (fun y => { y with export_ := some { dest := replyTo rq, tag := rq.tag, addr := outAddr, parts := parts } })))

/-- Write parts of a package one after the other from an address. -/
def State.writeParts (s : State) (i : Nat) : Word → List Bytes → Word × State
  | a, [] => (a, s)
  | a, p :: ps => State.writeParts (s.hostWrite i a p) i (a + BitVec.ofNat 64 p.length) ps

/-- MIG_EXPORT_CHUNK (R321). -/
def execMigExportChunk (inst : Nat) (s : State) : Host.Outcome State Fault Refusal :=
  ok (match s.inst inst with
      | none => s
      | some x =>
        match x.export_ with
        | none => s
        | some e =>
          let w := s.writeParts (destInst e.dest) e.addr (e.parts.take 64)
          let rest := e.parts.drop 64
          if rest = [] then
            ((w.2.modInst inst (fun y => { y with export_ := none })).setInstState inst .exported x.shadow).reply e.dest 0x8B St.ok e.tag []
          else w.2.modInst inst (fun y => { y with export_ := some { e with addr := w.1, parts := rest } }))

/-- MIG_IMPORT (R323). -/
def execMigImport (rq : Req) (inst : Nat) (share : Share) (package : Bytes) (s : State) : Host.Outcome State Fault Refusal :=
  ok (s.request rq 0x8C true (fun t =>
    if !t.isOwned || !shareGood share || !t.idFree inst then t.answer rq 0x8C St.descInvalid
    else if !t.sharesFit (tset t.shares inst share) then t.answer rq 0x8C St.quota
    else match t.openPackage package with
      | none => t.answer rq 0x8C St.authFail
      | some (x, k) =>
        if share.ksSlots < x.slotsUsed then t.answer rq 0x8C St.quota
        else
          let p := t.take 1
          let u := { p.2 with mail := { p.2.mail with targets := p.2.mail.targets.erase k } }
          u.stage (.migImport inst { x with share := share, port := p.1.toNat, state := .frozen } (replyTo rq) rq.tag)))

end Sys2Proof.Machine
end

