-- ==== Sys2Proof/Machine/Slice.lean ====
section
/-! DEFINITION. Arbitration, slices, the tail's first cycles, step budgets and deadlines (R18 to R21, R28, R36, R37, R73, R80, R84, R133 to R136, R183, R184, R188, R189, R196, R203, R216, R398, R399). -/

namespace Sys2Proof.Machine

/-! ## Placing jobs on lanes (R21, R28, R134) -/

/-- The rank of jobs: class, then deadline frame, those without one last, then admission order (R28). -/
def rankBefore (a b : Job) : Bool :=
  let d (j : Job) : Nat × Nat := match j.deadlineFrame with | some f => (0, f) | none => (1, 0)
  if a.desc.priority != b.desc.priority then decide (a.desc.priority.toNat < b.desc.priority.toNat)
  else if d a != d b then decide ((d a).1 < (d b).1) || (decide ((d a).1 = (d b).1) && decide ((d a).2 < (d b).2))
  else decide (a.order ≤ b.order)

/-- Placement as it proceeds: the next free slot of each lane, the grants made, the lane grant each instance has left. -/
structure Placing where
  next : List Nat
  grants : List (Nat × Grant)
  left : Table Nat
deriving DecidableEq, Repr

/-- Free slots of a lane. -/
def Placing.free (p : Placing) (cap l : Nat) : Nat := cap - p.next.getD l cap

/-- The lane on which a job's context is resident. -/
def State.residentLane (s : State) (slot : Nat) : Option Nat := s.lanes.toList.findIdx? (fun x => x.resident.any (fun e => e.1 == slot))

/-- A lane of the job's world that the planner may grant on. -/
def State.laneFits (s : State) (j : Job) (l : Nat) : Bool := s.laneUp l && (s.lanes.toList.getD l {}).hollow == j.hollow

/-- The lane with the most free slots, ties in the order of R26. -/
def State.roomiest (s : State) (p : Placing) (j : Job) : Option Nat :=
  ((rotated 64 s.frame.num).filter (s.laneFits j)).foldl (fun (b : Option Nat) l =>
    match b with
    | none => if 0 < p.free s.slotCap l then some l else none
    | some x => if p.free s.slotCap x < p.free s.slotCap l then some l else some x) none

/-- The lane of a job that asks for n slots: where its context is resident if that lane still has n free, and only there with carried requests; else the roomiest of its world (R134, Table 05-1). -/
def State.laneFor (s : State) (p : Placing) (j : Job) (n : Nat) : Option Nat :=
  match s.residentLane j.slot with
  | some r =>
    if s.carriedOf j.slot then (if s.laneFits j r && decide (0 < p.free s.slotCap r) then some r else none)
    else if s.laneFits j r && decide (n ≤ p.free s.slotCap r) then some r
    else s.roomiest p j
  | none => s.roomiest p j

/-- Grant one job its slots, within its instance's grant and the lane's room. -/
def State.place (s : State) (p : Placing) (j : Job) : Placing :=
  let n := min (j.asks s.frame.num) (tnat p.left j.inst)
  if n = 0 then p
  else match s.laneFor p j (j.asks s.frame.num) with
    | none => p
    | some l =>
      let k := min n (p.free s.slotCap l)
      let f := p.next.getD l 0
      { next := p.next.set l (f + k), grants := p.grants ++ [(l, { job := j.slot, first := f, last := f + k - 1 })],
        left := tset p.left j.inst (tnat p.left j.inst - k) }

/-- Placement of every job that asks, in rank order over all instances. -/
def State.placing (s : State) : Placing :=
  let js := sortBy rankBefore (s.jobs.filter (fun j => decide (0 < j.asks s.frame.num)))
  js.foldl s.place
    { next := (List.range 64).map (fun l => if s.laneUp l then (s.lanes.toList.getD l {}).firstSlot else s.slotCap),
      grants := [], left := s.insts.map (fun e => (e.1, s.granted e.1 0)) }

/-- Slots granted to an instance. -/
def Placing.of (p : Placing) (s : State) (i : Nat) : Nat :=
  (p.grants.map (fun g => if (s.job g.2.job).elim false (fun j => j.inst == i) then g.2.last + 1 - g.2.first else 0)).sum

/-- Count an instance's slots: granted, asked, granted above its minimum (Table 12-5). -/
def State.countSlots (s : State) (p : Placing) (i : Nat) : State :=
  let n := p.of s i
  let a := ((s.jobs.filter (fun j => j.inst == i)).map (fun j => j.asks s.frame.num)).sum
  ((s.countInst i 4 n).countInst i 5 a).countInst i 15 (n - s.floorOf i 0)

/-! ## Weights (R189, R196, R203) -/

/-- Credits of the frame: cipher afresh, hash and DRBG less an overdraft. -/
def State.loadCredits (s : State) : State :=
  let old (t : Table Int) (i : Nat) : Int := min ((tget t i).getD 0) 0
  { s with
    cipher := { s.cipher with credit := s.insts.map (fun e => (e.1, ((s.granted e.1 1 * s.cipherUnit : Nat) : Int))) }
    engines := { s.engines with
      keccakCredit := s.insts.map (fun e => (e.1, ((s.granted e.1 3 * s.hashCycles false / 1000 : Nat) : Int) + old s.engines.keccakCredit e.1))
      shaCredit := s.insts.map (fun e => (e.1, ((s.granted e.1 3 * s.hashCycles true / 1000 : Nat) : Int) + old s.engines.shaCredit e.1))
      drbgCredit := s.insts.map (fun e => (e.1, ((s.granted e.1 4 * s.drbgUnit : Nat) : Int) + old s.engines.drbgCredit e.1)) } }

/-! ## Key-schedule loads (R183, R184) -/

/-- Pin an entry for a frame, loading it where it is not there; the least recently used unpinned entry leaves a full store. -/
def pinEntry (kss : List KssEntry) (e : KssEntry) : List KssEntry :=
  let is (x : KssEntry) : Bool := x.hollow == e.hollow && x.inst == e.inst && x.node == e.node && x.version == e.version && x.tweak == e.tweak
  match kss.find? is with
  | some x => (kss.filter (fun y => !is y)) ++ [{ x with pinned := true }]
  | none =>
    let room := if 12288 ≤ kss.length then (match kss.findIdx? (fun x => !x.pinned) with | some i => kss.eraseIdx i | none => kss) else kss
    room ++ [e]

/-- Entries of one key of a job: an XTS key takes two (R183). -/
def State.keyEntries (s : State) (j : Job) (h : Handle) : List KssEntry :=
  if !isCipher (hType h) then []
  else
    let e : KssEntry := { hollow := j.hollow, inst := hInst h, node := hNode h, version := s.verOf (hInst h) j.bound (hNode h), tweak := false, since := s.frame.num }
    if isXts (hType h) then [e, { e with tweak := true }] else [e]

/-- Start the loads of a job that was granted a slice. -/
def State.loadKeys (s : State) (j : Job) : State :=
  let es := ([j.keyAt false, j.keyAt true].filterMap id).flatMap (s.keyEntries j)
  { s with cipher := { s.cipher with kss := es.foldl pinEntry s.cipher.kss } }

/-! ## Public-key engines (R216, R217, R239) -/

/-- Engines an instance holds. -/
def heldBy (a : List (Nat × Nat)) (i : Nat) : Nat := (a.filter (fun x => x.2 == i)).length

/-- Instances of the repeats that confirmed checkpoints ask of this unit and that run on no engine yet (R239). -/
def State.shadowRepeats (s : State) : List Nat :=
  s.twin.got.flatMap (fun b =>
    if b.confirmed then
      (b.calls.filter (fun c => !(s.pke.twinRepeats.any (fun r => r.call.slot == c.slot && r.ckpt == b.frame && (r.engine.isSome || r.digest.isSome))))).map (·.inst)
    else [])

/-- Give engines left over to shadows with a repeat due, one each. -/
def giveShadows : List Nat → List Nat → List (Nat × Nat)
  | e :: es, i :: is => (e, i) :: giveShadows es is
  | _, _ => []

/-- Assignments as engine and instance: running engines first, within the grant; then the rest in R26 order, each to the first instance whose grant exceeds what it holds; those left over to shadows with a repeat due (R216, R239). -/
def State.assign (s : State) : List (Nat × Nat) :=
  let running := s.pkeOrder.foldl (fun (a : List (Nat × Nat)) e => match s.engineInst e with
    | some i => if heldBy a i < s.granted i 2 then a ++ [(e.val, i)] else a
    | none => a) []
  let free := s.pkeOrder.filter (fun e => s.pkeIdle e && decide (e.val < s.pkeCap))
  let given := free.foldl (fun (a : List (Nat × Nat)) e =>
    match s.instOrder.find? (fun i => decide (max (heldBy a i) (s.enginesRunning i) < s.granted i 2)) with
    | some i => a ++ [(e.val, i)]
    | none => a) running
  let left := (free.map (·.val)).filter (fun e => !(given.any (fun x => x.1 == e)))
  given ++ (if s.crossChecks then giveShadows left s.shadowRepeats else [])

/-- Put the assignment in force. -/
def State.assignEngines (s : State) : State :=
  let a := s.assign
  { s with frame := { s.frame with assigned := Vector.ofFn (fun (e : Fin 16) => (a.find? (fun x => x.1 == e.val)).map (·.2)) } }

/-! ## SLICE_ARBITRATION -/

/-- Give every lane its grants. -/
def State.grantLanes (s : State) (p : Placing) : State :=
  { s with
    lanes := s.lanes.zipIdx.map (fun (x, i) => { x with grants := (p.grants.filter (fun g => g.1 == i)).map (·.2) })
    jobs := s.jobs.map (fun (j : Job) => { j with used := 0 }) }

/-- Cross-checked calls whose digests met in an earlier frame write their outputs (R239; log 12). -/
def State.writeMatched (s : State) : State :=
  s.jobs.foldl (fun (t : State) (j : Job) =>
    match j.pke with
    | some q => if q.phase == .computed && q.matched.any (fun f => decide (f < s.frame.num)) then t.finishCall j q else t
    | none => t) s

/-- The arbitration of a frame: lane slots placed, weights loaded, key loads begun, public-key engines assigned and started; hash and DRBG work that waited for credit goes on (R16, R134, R183, R189, R196, R203, R216). -/
def State.arbitrate (s : State) : State :=
  let s0 := s.writeMatched
  let p := s0.placing
  let s1 := s0.insts.foldl (fun (t : State) e => t.countSlots p e.1) s0
  let s2 := (s1.grantLanes p).loadCredits
  let s3 := (p.grants.filterMap (fun g => s0.job g.2.job)).foldl State.loadKeys s2
  s3.assignEngines.startCalls.dispatchHash.dispatchDrbg

/-- SLICE_ARBITRATION (R134). -/
def execSliceArbitration (s : State) : Host.Outcome State Fault Refusal :=
  ok (s.workPhase 64 192 State.arbitrate)

/-! ## SLICE_START (R133 to R135) -/

/-- The next grant of a lane: its job is RUNNABLE and has had no slice in this frame. -/
def State.nextGrant (s : State) (l : LaneId) : Option (Grant × Job) :=
  ((s.lane l).grants.filterMap (fun g => (s.job g.job).map (fun j => (g, j)))).find?
    (fun e => e.2.st == .runnable && e.2.lastRun != some s.frame.num && !e.2.yielded)

/-- The resident context a full lane evicts: the least recently run job without a grant on the lane in this frame, and where every one has a grant, the least recently run (R135). -/
def Lane.victim (x : Lane) : Option (Nat × Ctx) :=
  match x.resident.find? (fun e => !(x.grants.any (fun g => g.job == e.1))) with
  | some e => some e
  | none => x.resident.head?

/-- Free a resident slot of a lane for a job: the evicted context goes to its block (R135). -/
def State.evictFor (s : State) (l : LaneId) (slot : Nat) : State :=
  let x := s.lane l
  if x.resident.any (fun e => e.1 == slot) || x.resident.length < 12 then s
  else match x.victim with
    | none => s
    | some (v, c) =>
      (s.modLane l (fun y => { y with resident := y.resident.filter (fun e => e.1 != v) })).modJob v (fun j => { j with block := c })

/-- TTB2 of a job: EN and table base of the root committed for its VMID, with that VMID; its other bits read 0 (R93, R351, Table 03-2). -/
def State.rootOf (s : State) (j : Job) : Word :=
  let vmid := (if j.hollow then 1024 else 0) + j.inst
  ((tget s.prot.s2roots vmid).getD 0 &&& 0xFFFFFFF001#64) ||| BitVec.ofNat 64 (vmid * 2 ^ 40)

/-- The context the mover fills the idle bank with while a slice runs: that of the next job granted on the lane (R133). -/
def State.nextCtx (s : State) (l : LaneId) (g : Grant) : Option Ctx :=
  (((s.lane l).grants.find? (fun x => decide (g.last < x.first))).bind (fun x => s.job x.job)).map s.ctxOf

/-- The job of a grant takes the lane: its context is in the bank, KSTAT.BANK shows which bank it is, and the idle bank is filled for the next grant (R133, R134, R351). -/
def State.takeLane (s : State) (l : LaneId) (g : Grant) (j : Job) : State :=
  let c := { s.ctxOf j with bankBit := (s.lane l).second }
  let s1 := s.evictFor l j.slot
  let s2 := { s1 with lanes := s1.lanes.map (fun (x : Lane) => { x with resident := x.resident.filter (fun e => e.1 != j.slot) }) }
  (s2.modLane l (fun x =>
    { x with
      run := some j.slot, slotNow := g.first, slotLast := g.last, bank := c, idle := (s.nextCtx l g).getD x.idle, ttb2 := s.rootOf j
      now := 256 + 342 * g.first
      resident := x.resident ++ [(j.slot, c)] })).modJob j.slot (fun x => { x with st := .running, lastRun := some s.frame.num })

/-- A held trap is the first act of the slice (R126). -/
def State.enterHeld (s : State) (l : LaneId) : State :=
  let c := (s.lane l).bank
  match c.held with
  | some t => s.enterTrap l { c with held := none } t c.pc
  | none => s

/-- A job's first slice: its first reads, then its start (R131, R176). -/
def State.firstSlice (s : State) (l : LaneId) (j : Job) : State :=
  match s.startFault j with
  | some (st, d) => s.endJob j.slot st d
  | none => (s.firstReads j).startJob l j.slot

/-- SLICE_START (R133). -/
def execSliceStart (l : LaneId) (s : State) : Host.Outcome State Fault Refusal :=
  ok (if !s.works || (s.lane l).run.isSome || !s.laneUp l.val || s.frame.cycle < 192 || 11200 ≤ s.frame.cycle then s
      else match s.nextGrant l with
        | none => s
        | some (g, j) =>
          let t := s.takeLane l g j
          let t := { t with frame := { t.frame with cycle := max t.frame.cycle (256 + 342 * g.first) } }
          if j.started then t.enterHeld l
          else if j.lastRun.isNone then t.firstSlice l j
          else t.startJob l j.slot)

/-- SLICE_END (R20). -/
def execSliceEnd (l : LaneId) (s : State) : Host.Outcome State Fault Refusal :=
  ok (if s.works then s.preempt l else s)

/-! ## TAIL_START: health of the passes (R398, R399) -/

/-- The condition of Table 10-6 a pass meets, lowest cause first; 0 for none. -/
def Pass.condition (p : Pass) (frame : Nat) : Nat :=
  if p.lockLost then 1
  else if 2 ≤ p.faultSets then 2
  else if 8 < p.fecBad then 3
  else if p.fecHigh then 4
  else if 64 < (p.macFail.filter (fun f => decide (frame < f + 100))).length then 5
  else if p.mkaPeer && decide (600000 < frame - p.mkaSeen) then 6
  else if p.exhausted then 7
  else if 0 < p.testErrs then 8
  else 0

/-- A MACsec slice of a pass is fenced: the pass gives up as for cause 8 (R469). -/
def State.sliceFenced (s : State) (b : Bool) : Bool :=
  s.fenced (elemOf .macsec (if b then 2 else 0)) || s.fenced (elemOf .macsec (if b then 3 else 1))

/-- The condition a pass meets in this frame. -/
def State.passCondition (s : State) (b : Bool) : Nat :=
  let c := (s.pass b).condition s.frame.num
  if c = 0 ∧ s.sliceFenced b then 8 else c

/-- The monitor of one pass at cycle 11,200, with the condition it meets (R398). -/
def Pass.evaluate (p : Pass) (frame c : Nat) : Pass :=
  let good := p.up && c == 0
  { p with
    lockLost := false, macFail := p.macFail.filter (fun f => decide (frame < f + 100))
    mkaPeer := p.mkaPeer && c != 6
    cause := if c = 0 then p.cause else c
    test := p.test && decide (frame < p.testAt + 100)
    healthy := good
    clean := if good then min (p.clean + 1) (2 ^ 32 - 1) else 0 }

/-- The first healthy pass becomes active, Pass A when both are (R397). -/
def State.choosePass (s : State) : State :=
  if s.passes.chosen || !(s.passes.a.healthy || s.passes.b.healthy) then s
  else { s with passes := { s.passes with chosen := true, activeB := !s.passes.a.healthy } }

/-- The active pass gives up control to a healthy standby: event 0x7010, and the switch is staged (R399). -/
def State.giveUp (s : State) (cause : Nat) : State :=
  let a := s.passes.activeB
  if !s.passes.chosen || cause = 0 || s.passes.switchDue.isSome || !(s.pass (!a)).healthy then s
  else
    let s1 := (s.raise 0x7010 false (if a then 1 else 0) cause 0).modPass a (fun p => { p with lostControl := true })
    let s2 := s1.modPass (!a) (fun p => { p with test := false })
    { s2 with passes := { s2.passes with switchDue := some 1 } }

/-- Both passes unhealthy: after 2 frames BOTH_DOWN is set and event 0x7013 is recorded (R399). -/
def State.countDown (s : State) : State :=
  if s.passes.a.healthy || s.passes.b.healthy then { s with passes := { s.passes with downFrames := 0, bothDown := false } }
  else
    let n := s.passes.downFrames + 1
    let s1 := { s with passes := { s.passes with downFrames := n, bothDown := decide (2 ≤ n) } }
    if n = 2 then s1.raise 0x7013 false n 0 0 else s1

/-- The health of both passes in this frame. -/
def State.passHealth (s : State) : State :=
  let c := s.passCondition s.passes.activeB
  let s1 := { s with passes := { s.passes with
    a := s.passes.a.evaluate s.frame.num (s.passCondition false), b := s.passes.b.evaluate s.frame.num (s.passCondition true) } }
  (s1.choosePass.giveUp c).countDown

/-! ## TAIL_START: completions latched (R161, R218, R226) -/

/-- A call whose outputs are written is latched, and its job is signalled (R161, R218). -/
def Job.latch (j : Job) : Job :=
  match j.pke with
  | some c =>
    if c.phase == .written then
      { j with
        pke := some { c with phase := .latched }
        st := if j.st == .waiting .pke then .runnable else j.st }
    else j
  | none => j

/-- A node a call created commits at the next frame boundary (R226). -/
def State.stageMade (s : State) (j : Job) : State :=
  match j.pke with
  | some c => (match c.made with
    | some n => if c.phase == .written then { s with staged := s.staged ++ [.keyCreate j.inst n none] } else s
    | none => s)
  | none => s

/-- Engines that run a call at cycle 11,200 are counted to their instances (Table 12-5). -/
def State.countEngines (s : State) : State :=
  (List.finRange 16).foldl (fun (t : State) e => match s.engineInst e with | some i => t.countInst i 7 1 | none => t) s

/-- Hollow-world jobs, and requests held for the Hollow, end with HOLLOW_UNAVAILABLE once it has halted (R362). -/
def State.endHollowJobs (s : State) : State :=
  if s.prot.hollow = .halted then
    let s1 := s.squashAll (fun j => j.hollow && !j.finished) St.hollowUnavailable (fun _ => 0) true
    s1.mail.hollowWait.foldl (fun (t : State) w => t.replyNow (srcDest w.1) w.2.2.1 St.hollowUnavailable w.2.1 [])
      { s1 with mail := { s1.mail with hollowWait := [] } }
  else s

/-- Cycle 11,200: every slice still running is preempted, results are latched, the passes are judged; the last accesses of the old epoch have retired (R16, R136, R161, R354, R398). -/
def State.startTail (s : State) : State :=
  let s1 := (List.finRange 64).foldl (fun (t : State) l => t.preempt l) s
  let s2 := s1.jobs.foldl State.stageMade s1
  let s3 := { s2 with jobs := s2.jobs.map Job.latch }
  let s4 := s3.countEngines.endHollowJobs.passHealth
  { s4 with prot := { s4.prot with fence := [] } }

/-- TAIL_START (R17). -/
def execTailStart (s : State) : Host.Outcome State Fault Refusal :=
  ok (s.phase 192 11200 State.startTail)

/-! ## Deadlines and step budgets (R36, R37, R73, R80, R84) -/

/-- A job waits for the Hollow. -/
def State.waitsHollow (s : State) (j : Job) : Bool := j.hollow && !s.hollowUp

/-- The job's deadline frame has come and it has not finished. -/
def Job.late (j : Job) (frame : Nat) : Bool := !j.finished && j.deadlineFrame.elim false (fun d => decide (d ≤ frame))

/-- At the tail of the deadline frame: the flag; HOLLOW_UNAVAILABLE for a job that waits for the Hollow; a squash under END_AT_DEADLINE (R37, R73, R80). -/
def State.deadlines (s : State) : State :=
  let due (j : Job) : Bool := j.late s.frame.num
  let s1 := { s with jobs := s.jobs.map (fun (j : Job) => if due j then { j with missed := true } else j) }
  let s2 := s1.squashAll (fun j => due j && s.waitsHollow j) St.hollowUnavailable (fun _ => 0) true
  s2.squashAll (fun j => due j && !s.waitsHollow j && j.desc.flags.getLsbD 2) St.deadlineMissed (fun _ => 0) true

/-- DEADLINE_REACHED (R37). -/
def execDeadlineReached (s : State) : Host.Outcome State Fault Refusal :=
  ok (if s.ticks && decide (11200 ≤ s.frame.cycle) then s.deadlines else s)

/-- Squash one job whose step budget ends with this frame, event 0x1004 (R80). -/
def State.stepOut (s : State) (j : Job) : State :=
  match s.job j.slot with
  | some x =>
    if !x.finished && decide (x.admittedAt + x.budget ≤ s.frame.num + 1) then
      (s.squash j.slot St.stepLimit 0 true).raise 0x1004 j.hollow j.inst j.slot j.budget
    else s
  | none => s

/-- STEP_LIMIT (R80). -/
def execStepLimit (s : State) : Host.Outcome State Fault Refusal :=
  ok (if s.ticks && decide (11200 ≤ s.frame.cycle) then s.deadlines.jobs.foldl State.stepOut s.deadlines else s)

/-! ## Carried requests and the context save (R136, R184, R188) -/

/-- Requests still undispatched at cycle 11,372 are carried to the next frame, those carried before among them: event 0x5002 tells how many and of how many lanes (R188). -/
def State.carryRequests (s : State) : State :=
  let left := s.cipher.reqs.filter (fun r => r.core.isNone)
  let s1 := { s with
    cipher := { s.cipher with reqs := s.cipher.reqs.map (fun (r : BlkReq) => if r.core.isNone then { r with carried := true } else r) } }
  if left = [] then s1 else (s1.countGlob 60 left.length).raise 0x5002 false left.length (left.map (·.lane)).eraseDups.length 0

/-- CARRY_BLOCK_REQUESTS (R188). -/
def execCarryBlockRequests (s : State) : Host.Outcome State Fault Refusal :=
  ok (s.phase 11200 11372 State.carryRequests)

/-- An entry serves a carried request (R184). -/
def State.carriesFor (s : State) (e : KssEntry) : Bool :=
  s.cipher.reqs.any (fun r => r.carried && r.inst == e.inst && hNode r.key == e.node && s.reqVersion r == e.version)

/-- The context save: the bank of every job that ran in the frame stands in its resident record, and a copy is latched for the frame's checkpoint; schedules stay pinned for carried requests alone (R136, R184). -/
def State.saveContexts (s : State) : State :=
  { s with
    jobs := s.jobs.map (fun (j : Job) => if j.lastRun = some s.frame.num then { j with saved := some (s.ctxOf j) } else j)
    cipher := { s.cipher with kss := s.cipher.kss.map (fun (e : KssEntry) => { e with pinned := s.carriesFor e }) } }

/-- CONTEXT_SAVE (R136). -/
def execContextSave (s : State) : Host.Outcome State Fault Refusal :=
  ok (s.phase 11200 11380 State.saveContexts)

end Sys2Proof.Machine
end

