-- ==== Sys2Proof/Machine/PassCtl.lean ====
section
/-! DEFINITION. Control of the passes: links, test windows, swaps and returns (R397 to R403). -/

namespace Sys2Proof.Machine

/-- The standby pass. -/
def State.standby (s : State) : Bool := !s.passes.activeB

/-- The standby qualifies for a lossless switch: healthy, and clean for 10,000 consecutive frames (R402, R403). -/
def State.standbyClean (s : State) : Bool := s.passes.chosen && (s.pass s.standby).healthy && decide (10000 ≤ (s.pass s.standby).clean)

/-- Stage a switch with the cause of event 0x7011 (R399, R402, R403). -/
def State.stageSwitch (s : State) (cause : Nat) : State :=
  if s.passes.switchDue.isSome then s else { s with passes := { s.passes with switchDue := some cause } }

/-- PASS_SWITCH_END (R399). -/
def execPassSwitchEnd (s : State) : Host.Outcome State Fault Refusal :=
  ok (if s.works && s.passes.oldUntil.any (fun f => decide (f ≤ s.frame.num)) then { s with passes := { s.passes with oldUntil := none } } else s)

/-- A test window of the standby: its errors are counted, any of them records 0x7012 (R398, R401). -/
def State.testWindow (s : State) (errors : Nat) : State :=
  let b := s.standby
  let s1 := s.modPass b (fun p => { p with test := true, testAt := s.frame.num, testErrs := errors, clean := if errors = 0 then p.clean else 0 })
  if errors = 0 then s1 else s1.raise 0x7012 false (if b then 1 else 0) errors 0

/-- STANDBY_TEST_WINDOW (R401). -/
def execStandbyTestWindow (errors : Nat) (s : State) : Host.Outcome State Fault Refusal :=
  ok (if s.works && s.passes.chosen && (s.pass s.standby).up && !(s.pass s.standby).test && s.passes.switchDue.isNone then s.testWindow errors else s)

/-- PASS_SWAP_DUE (R402). -/
def execPassSwapDue (s : State) : Host.Outcome State Fault Refusal :=
  ok (if s.works && s.standbyClean && s.passes.period != 0 && decide (s.passes.switchedAt + 100000 * s.passes.period ≤ s.frame.num) then s.stageSwitch 2 else s)

/-- PASS_REVERT (R403). -/
def execPassRevert (s : State) : Host.Outcome State Fault Refusal :=
  ok (if s.works && s.standbyClean && s.passes.revert && (s.pass s.standby).lostControl then s.stageSwitch 3 else s)

/-- PASS_LINK_UP (R397). -/
def execPassLinkUp (passB : Bool) (s : State) : Host.Outcome State Fault Refusal :=
  ok (if s.frame.ticking && !s.twin.silent && (s.pass passB).mac != 0 then
        (s.modPass passB (fun p => { p with up := true, healthy := !p.lockLost, mkaSeen := s.frame.num })).choosePass
      else s)

/-- PCS_LOCK_LOSS (R398). -/
def execPcsLockLoss (passB : Bool) (s : State) : Host.Outcome State Fault Refusal :=
  ok (s.modPass passB (fun p => { p with lockLost := p.lockLost || p.up, up := false }))

end Sys2Proof.Machine
end

