-- ==== Sys2Proof/Machine/Mailbox.lean ====
section
/-! DEFINITION. The mailbox's own messages: PING, INST_INFO, MGR_MSG and its answers, NOTIFY, unassigned types (R307 to R311). -/

namespace Sys2Proof.Machine

/-- PING (R311). -/
def execPing (rq : Req) (body : Bytes) (s : State) : Host.Outcome State Fault Refusal :=
  ok (s.request rq 0x01 false (fun t => t.reply (replyTo rq) 0x01 St.ok rq.tag (padTo 48 body)))

/-- INST_INFO (R311). -/
def execInstInfo (rq : Req) (inst : Nat) (s : State) : Host.Outcome State Fault Refusal :=
  ok (s.request rq 0x02 false (fun t =>
    let i := if srcInst rq.src = 0 then inst else srcInst rq.src
    match t.inst i with
    | none => t.answer rq 0x02 St.descInvalid
    | some x => t.reply (replyTo rq) 0x02 St.ok rq.tag (shareBytes x.share)))

/-- Forward a request to the manager: its number, and the FORWARDED notice (R309). -/
def State.forward (s : State) (rq : Req) (slot : Nat) : State :=
  let n := s.mail.nextForward
  let i := srcInst rq.src
  let m := { s.mail with
    nextForward := (n + 1) % 2 ^ 32
    forwards := s.mail.forwards ++ [{ num := n, inst := i, slot := slot, tag := rq.tag, latched := s.frame.num }] }
  State.notice { s with mail := m } (.mailbox 0) 0xF0 (leBytes 6 (n + i * 2 ^ 32 + slot * 2 ^ 42))

/-- The slot at the head of a function's ring holds this body (R304, R309). -/
def State.slotHolds (s : State) (rq : Req) (slot : Nat) (body : Bytes) : Bool :=
  match s.inst (srcInst rq.src) with
  | none => false
  | some x => x.reqHead.toNat % 16 == slot && (x.req.toList.getD slot []).drop 16 == padTo 48 body

/-- MGR_MSG (R309). -/
def execMgrMsg (rq : Req) (slot : Fin 16) (body : Bytes) (s : State) : Host.Outcome State Fault Refusal :=
  ok (if !s.slotHolds rq slot.val body then s else s.request rq 0x03 false (fun t =>
    if srcInst rq.src = 0 then t.answer rq 0x03 St.descInvalid
    else t.forward rq slot.val))

/-- A forwarded request by its number. -/
def State.forwarded (s : State) (n : Nat) : Option Forward := s.mail.forwards.find? (fun f => f.num == n)

/-- A forwarded request leaves the list. -/
def State.dropForward (s : State) (n : Nat) : State :=
  { s with mail := { s.mail with forwards := s.mail.forwards.filter (fun f => f.num != n) } }

/-- Deliver the manager's answer to the tenant: status and 40 bytes at 0x18 (Table 08-7). -/
def State.deliver (s : State) (f : Forward) (status : BitVec 8) (body : Bytes) : State :=
  { s with mail := { s.mail with replies := s.mail.replies ++
    [{ dest := .mailbox f.inst, mtype := 0x03, status := status, tag := f.tag, body := zeros 8 ++ padTo 40 body, due := s.frame.num + 1 }] } }

/-- FWD_REPLY (R309). -/
def execFwdReply (rq : Req) (forward : Nat) (status : BitVec 8) (body : Bytes) (s : State) : Host.Outcome State Fault Refusal :=
  ok (s.request rq 0x84 false (fun t =>
    match t.forwarded forward with
    | none => t.answer rq 0x84 St.descInvalid
    | some f =>
      if f.latched + 999 < t.frame.num then t.answer rq 0x84 St.descInvalid
      else ((t.dropForward forward).deliver f status body).answer rq 0x84 St.ok))

/-- NOTIFY (R311). -/
def execNotify (rq : Req) (inst : Nat) (body : Bytes) (s : State) : Host.Outcome State Fault Refusal :=
  ok (s.request rq 0x85 false (fun t =>
    if !t.takesCommands inst then t.answer rq 0x85 St.descInvalid
    else (t.notice (.mailbox inst) 0xF4 (zeros 8 ++ padTo 40 body)).answer rq 0x85 St.ok))

/-- The request types of Table 08-7 and of the chapters that own the others (R311). -/
def assignedTypes : List Nat :=
  [0x01, 0x02, 0x03, 0x10, 0x11, 0x12, 0x13, 0x14, 0x15, 0x16, 0x20, 0x21, 0x22, 0x23, 0x24, 0x28, 0x29, 0x30] ++
  [0x80, 0x81, 0x82, 0x83, 0x84, 0x85, 0x88, 0x89, 0x8A, 0x8B, 0x8C, 0x8D, 0x8E] ++
  [0xA0, 0xA1, 0xA2, 0xA3, 0xA4, 0xA8, 0xA9, 0xB0, 0xB1, 0xB2, 0xB8, 0xB9, 0xC0, 0xC1, 0xC2, 0xC8, 0xC9] ++
  [0xD0, 0xD1, 0xD2, 0xD3, 0xD4, 0xD5, 0xD6, 0xD7, 0xD8, 0xD9, 0xDA, 0xDB, 0xDC]

/-- MAILBOX_TYPE_UNASSIGNED (R311). -/
def execMailboxTypeUnassigned (rq : Req) (mtype : BitVec 8) (s : State) : Host.Outcome State Fault Refusal :=
  ok (if assignedTypes.contains mtype.toNat then s
      else s.request rq mtype.toNat false (fun t => t.answer rq mtype.toNat St.descInvalid))

end Sys2Proof.Machine
end

