-- ==== Sys2Proof/Machine/Timeout.lean ====
section
/-! DEFINITION. The timeout ladder, the watchdog and the restart of the Hollow (R47, R48, R309, R310, R354, R360 to R362). -/

namespace Sys2Proof.Machine

/-! ## STALLED (R47, R48) -/

/-- The completions of a pair are held: its ring was full at the last tail, or its function may not issue requests while one waits (R47, R477). -/
def State.pairHeld (s : State) (i : Nat) (q : Fin 4) : Bool :=
  (s.inst i).elim false (fun x => x.qs[q].cqFull) ||
    (!s.functionUp i && s.jobs.any (fun (j : Job) => j.inst == i && j.q == some q && j.finished))

/-- STALL_START (R47). -/
def execStallStart (inst : Nat) (q : Fin 4) (s : State) : Host.Outcome State Fault Refusal :=
  ok (match s.inst inst with
      | none => s
      | some x =>
        if x.state ≠ .active ∨ !s.pairHeld inst q ∨ !(x.qs[q].fullSince.any (fun f => decide (f + 100000 ≤ s.frame.num))) then s
        else
          let s1 := (s.setInstState inst .stalled x.shadow).modInst inst (fun y => { y with stall := some (q.val, s.frame.num) })
          s1.raise 0x1005 false inst q.val 0)

/-- A stall ends in the frame after the host advanced the completion ring's head; one whose function could issue no requests ends once it may again (R48, R477). -/
def State.stallOver (s : State) (i : Nat) (x : Inst) (q : Fin 4) (since : Nat) : Bool :=
  x.qs[q].headMoved.any (fun f => decide (since ≤ f) && decide (f < s.frame.num)) || (s.functionUp i && !x.qs[q].cqFull)

/-- STALL_END (R48). -/
def execStallEnd (inst : Nat) (q : Fin 4) (s : State) : Host.Outcome State Fault Refusal :=
  ok (match s.inst inst with
      | none => s
      | some x =>
        match x.stall with
        | none => s
        | some (p, f) =>
          if x.state ≠ .stalled ∨ p ≠ q.val ∨ !s.stallOver inst x q f then s
          else
            let s1 := (s.setInstState inst .active x.shadow).modInst inst (fun y => { y with stall := none })
            s1.raise 0x1006 false inst (min (s.frame.num - f) (2 ^ 32 - 1)) 0)

/-! ## The mailbox (R309, R310) -/

/-- MBX_TIMEOUT (R309). -/
def execMbxTimeout (forward : Nat) (s : State) : Host.Outcome State Fault Refusal :=
  ok (match s.forwarded forward with
      | none => s
      | some f =>
        if s.frame.num < f.latched + 1000 then s
        else ((s.dropForward forward).reply (.mailbox f.inst) 0x03 St.mbxTimeout f.tag []).raise 0x6001 false f.inst f.tag.toNat f.num)

/-- MAILBOX_HOLLOW_TIMEOUT (R310). -/
def execMailboxHollowTimeout (rq : Req) (mtype : BitVec 8) (s : State) : Host.Outcome State Fault Refusal :=
  ok (if s.hollowUp then s
      else match s.mail.hollowWait.find? (fun w => w.1 == rq.src && w.2.1 == rq.tag && w.2.2.1 == mtype.toNat) with
        | none => s
        | some w =>
          if s.frame.num < w.2.2.2 + 1000 then s
          else (s.dropHeld rq mtype.toNat).answer rq mtype.toNat St.hollowUnavailable)

/-! ## Engines (R47, R354) -/

/-- A request has been with an element for 2 frames: with a core, a hash engine or a DRBG instance since it took it, with the derivation engine since the load began. The requests of protectors and movers carry no start in this model (R47; log 34). -/
def State.overdue (s : State) (e : Nat) : Bool :=
  let old (f : Nat) : Bool := decide (f + 2 ≤ s.frame.num)
  let n := (elemKind e).2
  match (elemKind e).1 with
  | 1 => s.cipher.reqs.any (fun r => r.core.any (fun c => c.val == n) && old r.takenAt)
  | 2 | 3 => if h : n < 16 then s.engines.chunk[n].isSome && old s.engines.chunkAt[n] else false
  | 4 => if h : n < 8 then s.engines.drbg[n].busy.isSome && old s.engines.drbg[n].since else false
  | 7 => s.cipher.kss.any (fun x => !x.loaded && old x.since) || s.jobs.any (fun (j : Job) => j.hash.toList.any (fun h => h.any (fun x => !x.loaded && old x.openedAt)))
  | _ => true

/-- ENGINE_TIMEOUT (R47). -/
def execEngineTimeout (elem : Fin 158) (s : State) : Host.Outcome State Fault Refusal :=
  ok (if s.ticks && servesRequests elem.val && !s.fenced elem.val && s.overdue elem.val then s.engineTimeout elem.val else s)

/-- PKE_MICROSTEP_WATCHDOG (R47). -/
def execPkeMicrostepWatchdog (e : Fin 16) (s : State) : Host.Outcome State Fault Refusal :=
  ok (if s.ticks && (s.pke.running[e].isSome || s.pke.twinRepeats.any (fun (r : TwinRepeat) => r.engine == some e)) then
        s.engineTimeout (elemOf .pke e.val)
      else s)

/-- The element behind a master (R332, Table 12-9); which pipeline, channel or slice of a master with several it was is free (log 9). None for the control cores and the twin link, which are no elements of the in-service test. -/
def State.masterElem (s : State) (master : Nat) : Option Nat × State :=
  let (n, t) := s.take 3
  if master < 64 then (some (elemOf .lane master), s)
  else if master < 80 then (some (elemOf .pke (master - 64)), s)
  else if master < 96 then (some (elemOf .mover (master - 80)), s)
  else if master = 104 then (some (elemOf .deriv n.toNat), t)
  else if master = 105 then (some (elemOf .protector (n.toNat % 4)), t)
  else if master = 106 ∨ master = 107 then (some (elemOf .macsec (2 * (master - 106) + n.toNat % 2)), t)
  else (none, s)

/-- FENCE_LATE (R354). -/
def execFenceLate (master : Nat) (s : State) : Host.Outcome State Fault Refusal :=
  ok (if !s.ticks || !s.prot.fence.contains master then s
      else
        let (e, s1) := s.masterElem master
        let s2 := match e with
          | some e => s1.engineTimeout e
          | none => s1
        { s2 with prot := { s2.prot with fence := s2.prot.fence.filter (fun m => m != master) } }.raise 0x2003 false master s.prot.epoch.toNat 11199)

/-! ## The Hollow (R360 to R362) -/

/-- HOLLOW_WATCHDOG_EXPIRY (R360). -/
def execHollowWatchdogExpiry (s : State) : Host.Outcome State Fault Refusal :=
  ok (if s.ticks && s.hollowUp && decide (500 ≤ s.prot.watchdog) && s.prot.restartDue.isNone then
        { s with prot := { s.prot with restartDue := some 1 } }
      else s)

/-- HOLLOW_WATCHDOG_SERVE (R360). -/
def execHollowWatchdogServe (s : State) : Host.Outcome State Fault Refusal :=
  ok (if s.ticks && s.hollowUp then { s with prot := { s.prot with watchdog := 0 } } else s)

/-- HOLLOW_CORE_FAULT (R360). -/
def execHollowCoreFault (core : Fin 2) (s : State) : Host.Outcome State Fault Refusal :=
  ok (if s.ticks && s.hollowUp && s.prot.restartDue.isNone then { s with prot := { s.prot with restartDue := some 2 } } else s)

/-- The restart ends: the cores are released, and the frames it took are recorded (Table 09-15). -/
def State.hollowBack (s : State) (frames : Nat) : State :=
  ({ s with prot := { s.prot with hollow := .running, restartAt := none, restartFrames := frames, watchdog := 0 } }).raise 0x2005 true frames 0 0

/-- HOLLOW_RESTART_COMPLETE (R360). -/
def execHollowRestartComplete (image : FwImage) (s : State) : Host.Outcome State Fault Refusal :=
  ok (match s.prot.restartAt with
      | none => s
      | some w =>
        if !s.ticks || s.prot.hollow ≠ .restarting || decide (s.frame.num ≤ w) || decide (w + 5000 < s.frame.num) then s
        else if (s.imageFault image 1).isSome then s.haltHollow 2 image.hash
        else if s.prot.bootHash ≠ some image.hash then s.haltHollow 1 image.hash
        else s.hollowBack (s.frame.num - w))

end Sys2Proof.Machine
end

