-- ==== Sys2Proof/Machine/Replica.lean ====
section
/-! DEFINITION. What a unit of a pair holds of its partner: bodies, replicas, shadows; and what it does when the pair breaks or it adopts (R239, R266, R376 to R395). -/

namespace Sys2Proof.Config

/-- A progress record read: the spec lists what it carries and gives no layout (Table 10-3; free value, log 9). -/
opaque progress (b : Bytes) : Option Sys2Proof.Machine.Progress

/-- What a commit record does to the shadow it names (Table 10-3; free value, log 9). -/
opaque commitEffect (b : Bytes) (x : Sys2Proof.Machine.Inst) : Option Sys2Proof.Machine.Inst

/-- The share of an instance a commit record creates (Table 10-3; free value, log 9). -/
opaque commitShare (b : Bytes) : Option Share

/-- The endpoint a commit record gives an instance (Table 10-3; free value, log 9). -/
opaque commitEndpoint (b : Bytes) : Option Sys2Proof.Machine.Endpoint

/-- A session record read (Table 10-3; free value, log 9). -/
opaque sessionOf (b : Bytes) : Option Sys2Proof.Machine.Session

end Sys2Proof.Config

namespace Sys2Proof.Machine

/-- The number a partner's instance goes by here: its instance 0 is 1024 (R376; log 35). -/
def shadowKey (i : Nat) : Nat := if i = 0 then 1024 else i

/-! ## Bodies (R380, R383) -/

/-- The digest the partner sent for a frame. -/
def Twin.digestOf (t : Twin) (frame : Nat) : Option Dig := (t.gotDigests.find? (fun e => e.1 == frame)).map (·.2)

/-- A whole body is valid: its digest is the one sent, its header chains to the body before it (R383). -/
def Twin.valid (t : Twin) (frame : Nat) (digest prev : Dig) : Bool :=
  t.digestOf frame == some digest &&
    (match t.got.getLast? with
     | some b => decide (b.frame + 1 = frame) && b.digest == prev
     | none => true)

/-- The seeds a body's call records name are kept with their jobs (R219, R220). -/
def Replica.seed (r : Replica) (seeds : List (Nat × Bytes)) : Replica :=
  { r with seeds := (seeds.filter (fun e => e.1 == r.job.slot)).foldl (fun (l : List Bytes) e => if l.contains e.2 then l else l ++ [e.2]) r.seeds }

/-- The jobs in flight after the records of a body. -/
def applyRecords (jobs : List Replica) (records : List CkptJob) (seeds : List (Nat × Bytes)) (progress : Option (Nat × Bytes)) (held : List Nat) : List Replica :=
  let j1 := records.foldl (fun (l : List Replica) (c : CkptJob) =>
    match c.finished with
    | some _ => l.filter (fun r => r.job.slot != c.slot)
    | none => l.filter (fun r => r.job.slot != c.slot) ++ [{ job := c }]) jobs
  (j1.map (fun r => { r.seed seeds with held := held.contains r.job.slot })).map (fun (r : Replica) =>
    match progress with
    | some (slot, b) => if slot = r.job.slot then { r with progress := some b } else r
    | none => r)

/-- Set the recorded submission or completion index of a shadow's pair (R379, R390). -/
def recordIndex (t : Table Inst) (c : CkptJob) : Table Inst :=
  if h : c.q < 4 then
    tmod t (shadowKey c.inst) (fun (x : Inst) =>
      let q := x.qs[c.q]
      let i := BitVec.ofNat 16 (c.ringIndex + 1)
      let q1 := match c.finished with
        | none => { q with sqHead := i, taken := i }
        | some _ => { q with cqTail := i, phase := !i.getLsbD q.cqLog }
      { x with qs := x.qs.set c.q q1 h })
  else t

/-- A body received whole and valid: its records are taken into the replica of the partner's jobs. -/
def State.takeBody (s : State) (b : Received) (seeds : List (Nat × Bytes)) (progress : Option (Nat × Bytes)) (held : List Nat) : State :=
  { s with twin := { s.twin with
      got := s.twin.got ++ [b]
      jobs := applyRecords s.twin.jobs b.jobs seeds progress held
      shadows := b.jobs.foldl recordIndex s.twin.shadows } }

/-! ## Commits applied to the replica (R383, R390) -/

/-- Apply one commit record to the shadows: a new instance, or the effect on one that exists. -/
def commitShadow (t : Table Inst) (c : Nat × Bytes) : Table Inst :=
  let k := shadowKey c.1
  match tget t k with
  | some x => tset t k ((Config.commitEffect c.2 x).getD x)
  | none => (match Config.commitShare c.2 with
      | some share => tset t k { newInst 0 share [] with state := .dormant }
      | none => t)

/-- The candidate an admission record tells of, under the partner's instance numbers. -/
def ckptCandidate (c : CkptJob) : Candidate :=
  { inst := c.inst, q := if c.q < 4 then some (Fin.ofNat 4 c.q) else none, net := none, desc := c.desc }

/-- The jobs a body tells the admission of bind to the versions their keys stand at once the commits of that body are applied (R263). -/
def State.bindReplicas (s : State) (b : Received) : State :=
  let v := s.shadowView
  { s with twin := { s.twin with jobs := s.twin.jobs.map (fun (r : Replica) =>
      if b.jobs.any (fun c => c.slot == r.job.slot && c.finished.isNone) then { r with bound := v.boundOf (ckptCandidate r.job) } else r) } }

/-- Apply the commits of a body: its replication entries to the shadows' directories, its commit records, the sessions and endpoints it tells of (R371, R383). -/
def State.applyCommits (s : State) (b : Received) : State :=
  let t := s.twin
  let shadows := (t.replica.take b.entries).foldl (fun (m : Table Inst) e =>
    tmod m (shadowKey e.inst) (fun (x : Inst) => { x with dir := applyEntry x.dir e })) t.shadows
  let sessions := (b.sessions.filterMap Config.sessionOf).foldl (fun (l : List Session) x =>
    l.filter (fun y => !(y.inst == x.inst && y.id == x.id)) ++ [x]) t.sessions
  let endpoints := (b.commits.filterMap (fun c => Config.commitEndpoint c.2)).foldl (fun (l : List Endpoint) e =>
    l.filter (fun y => y.inst != e.inst) ++ [e]) t.endpoints
  State.bindReplicas { s with twin := { t with
      replica := t.replica.drop b.entries
      shadows := b.commits.foldl commitShadow shadows
      sessions := sessions
      endpoints := endpoints } } b

/-- Bodies still of use once a checkpoint is confirmed: it and later ones, and those with a repeat not begun (R239, R390). -/
def Twin.trim (t : Twin) (frame : Nat) : Twin :=
  { t with got := t.got.filter (fun b => decide (frame ≤ b.frame) || b.calls.any (fun c => t.jobs.any (fun r => r.job.slot == c.slot))) }

/-- Confirm a body: its commits are applied (R383). -/
def State.confirmBody (s : State) (b : Received) : State :=
  let s1 := s.applyCommits b
  { s1 with twin := ({ s1.twin with got := s1.twin.got.map (fun (x : Received) => if x.frame = b.frame then { x with confirmed := true } else x) }).trim b.frame }

/-- The bodies of entries of the partner's journal, under its JID and role; those whose tag fails are left out (R279, R383). -/
def State.openReplicas (s : State) (es : List JEntry) : List JEntry :=
  es.filterMap (openEntry (s.journalKey (s.twin.record.elim 0 (·.2.2))) (!s.twin.role0))

/-- Replication entries: kept for the body of their frame in PAIRED; while copies are under way they go straight into them (R371, R395). -/
def State.takeReplication (s : State) (es : List JEntry) : State :=
  let os := s.openReplicas es
  if s.isPaired then { s with twin := { s.twin with replica := s.twin.replica ++ os } }
  else
    let put (t : Table Inst) : Table Inst := os.foldl (fun (m : Table Inst) e =>
      tmod m (shadowKey e.inst) (fun (x : Inst) => { x with dir := applyEntry x.dir e })) t
    { s with twin := { s.twin with copying := put s.twin.copying, shadows := put s.twin.shadows } }

/-! ## The pair breaks (R239) -/

/-- A cross-checked call whose digests have not met is repeated locally: event 0x4007 (R239). -/
def State.repeatHere (s : State) : State :=
  let waiting (j : Job) : Bool := match j.pke with
    | some q => repeats q.op && !q.localRepeat && q.matched.isNone && (q.phase == .running || q.phase == .computed)
    | none => false
  let js := s.jobs.filter waiting
  let s1 := js.foldl (fun (t : State) (j : Job) =>
    match j.pke with
    | some q => t.raise 0x4007 j.hollow (q.engine.elim 0 (·.val)) q.op.toNat j.slot
    | none => t) s
  let s2 := js.foldl (fun (t : State) (j : Job) => t.freeEngines j.slot) s1
  State.startCalls { s2 with jobs := s2.jobs.map (fun (j : Job) =>
      if waiting j then { j with pke := j.pke.map (fun q => { q.again with localRepeat := true }) } else j) }

/-- The unit leaves PAIRED: repeats become local, repeats run for the partner end (R239, R389). -/
def State.breakPair (s : State) (st : PairState) : State :=
  let s1 := s.setPair st
  ({ s1 with
    pke := { s1.pke with twinRepeats := [], repeated := [] }
    twin := { s1.twin with sent := [], answer := none, resOut := [], beats := 0, mismatches := [] } }).repeatHere

/-! ## Adoption (R390 to R394) -/

/-- Checkpoint C: the latest whose body is held whole and valid. -/
def State.heldCkpt (s : State) : Nat := s.twin.got.getLast?.elim 0 (·.frame)

/-- The job a replica becomes in adoption frame A from checkpoint C: its deadline and budget move by A - C - 1 frames (R390). -/
def State.replicaJob (s : State) (r : Replica) (c slot : Nat) : Job :=
  { s.jobOf { ckptCandidate r.job with inst := shadowKey r.job.inst } slot with
    ring := BitVec.ofNat 16 r.job.ringIndex, admittedAt := r.job.admitted + (s.frame.num - c - 1), rerun := true
    invs := r.job.invs, bound := r.bound, seeds := r.seeds, st := .runnable }

/-- Adopt one job: resumed from its progress record; restarted from its first instruction where it has none, held a region or an operation, or draws random bytes, for which invocations and uses are taken afresh; ended with TWIN_MISMATCH where it runs in place and held a region or an operation, or wrote after its resume point, which the records do not tell (R220, R390; log 9, log 142). The counts are of jobs resumed, restarted and ended. -/
def State.adoptJob (c : Nat) (a : State × Nat × Nat × Nat) (r : Replica) : State × Nat × Nat × Nat :=
  let (s, n) := a
  let slot := lowestSlot (s.jobs.map (·.slot)) 16384 0
  let j := s.replicaJob r c slot
  let s1 := { s with jobs := s.jobs ++ [j], nextJob := s.nextJob + 1 }
  let inPlace := j.desc.src == j.desc.dst && !j.srcSgl && !j.dstSgl && j.desc.length != 0
  let (wrote, s2) := if inPlace then s1.take 1 else ((0 : BitVec 1), s1)
  let drbg := j.header.resources.getLsbD (resourceBit 4)
  if inPlace ∧ (wrote = 1 ∨ r.held) then (s2.endJob slot St.twinMismatch 0, n.1, n.2.1, n.2.2 + 1)
  else match (if drbg || r.held then none else r.progress.bind Config.progress) with
    | some p =>
      (s2.modJob slot (fun (x : Job) =>
        { x with
          block := p.ctx, started := true, hash := p.hash
          ports := { x.ports with si := p.si, pushed := p.pushed, written := p.written } }), n.1 + 1, n.2)
    | none =>
      let cand : Candidate := { inst := j.inst, q := j.q, net := none, desc := j.desc }
      let s3 := if drbg then (s2.modJob slot (fun (x : Job) => { x with invs := [] })).reserve slot cand j.header else s2
      (s3.firstReads j, n.1, n.2.1 + 1, n.2.2)

/-- A shadow becomes a home: its stored doorbells are latched, the blocks its keys had in use are skipped (R266, R391). -/
def shadowHome (log : List ResEntry) (e : Nat × Inst) : Nat × Inst :=
  let x := e.2
  (e.1, { x with
    state := .active, shadow := true
    qs := x.qs.map (fun (q : QPair) => { q with en := true, active := true, sqLatched := q.sqTail, fetched := [], ready := 0, fetching := 0 })
    reqLatched := x.reqTail
    dir := x.dir.map (fun (d : Nat × DirEntry) =>
      (d.1, { d.2 with node := d.2.node.map (fun n =>
        withPub (skipBlock ((log.filter (fun r => shadowKey r.inst == e.1 && r.node == d.1)).foldl pastBlock n))) })) })

/-- Put the instances of a table among the unit's own. -/
def addInsts (t : Table Inst) (more : Table Inst) : Table Inst := more.foldl (fun (m : Table Inst) e => tset m e.1 e.2) t

/-- Completion entries of the finish records held, from the last checkpoint confirmed on. -/
def Twin.heldFinishes (t : Twin) : List (Nat × Nat × BitVec 16 × Bytes) :=
  t.got.flatMap (fun b => b.jobs.filterMap (fun (c : CkptJob) => c.finished.map (fun e => (shadowKey c.inst, c.q, BitVec.ofNat 16 c.ringIndex, e))))

/-- Post a reply the partner had completed: its 64 bytes stand in the record (Table 10-3, R391). -/
def State.postReply (s : State) (r : Nat × Bytes) : State :=
  let b := r.2
  let flags := leNat ((b.drop 4).take 1)
  { s with mail := { s.mail with replies := s.mail.replies ++
      [{ dest := .mailbox (shadowKey r.1), mtype := leNat (b.take 1), status := BitVec.ofNat 8 (leNat ((b.drop 1).take 1)),
         tag := BitVec.ofNat 16 (leNat ((b.drop 2).take 2)), notice := flags / 2 % 2 == 1, interim := flags / 4 % 2 == 1,
         body := b.drop 16, due := s.frame.num }] } }

/-- The survivor adopts (R390 to R394). -/
def State.adopt (s : State) : State :=
  let c := s.heldCkpt
  let s1 := (s.twin.got.filter (fun b => !b.confirmed)).foldl State.applyCommits s
  let shadows := s1.twin.shadows.map (shadowHome s1.twin.resIn)
  let ids := shadows.map (fun (e : Nat × Inst) => e.1)
  let s2 := { s1 with
    insts := addInsts s1.insts shadows
    net := { s1.net with sessions := s1.net.sessions ++ s1.twin.sessions, endpoints := s1.net.endpoints ++ s1.twin.endpoints }
    frame := { s1.frame with leader := true }
    twin := { s1.twin with
      shadows := [], adopted := s1.twin.adopted ++ ids, adoptDue := none, marker := false
      sessions := [], endpoints := [], jobs := [], got := [], gotDigests := [], parts := [], replica := [], resIn := []
      rewrites := s1.twin.heldFinishes
      failovers := min (s1.twin.failovers + 1) 0xFFFF, gap := s1.frame.num - s1.twin.lastBeat, partnerBack := false } }
  let (s3, n) := s1.twin.jobs.foldl (State.adoptJob c) (s2.breakPair .solo, 0, 0, 0)
  let s4 := (s1.twin.got.flatMap (·.replies)).foldl State.postReply s3
  let s5 := ids.foldl (fun (t : State) i =>
    t.noticeNow (.mailbox i) 0xF3 (leBytes 2 (stateCode .active + 16 * i + 2 ^ 14))) s4
  let s6 := if s5.quarry.snap.isNone && s5.quarry.ownerKeys then s5.startSnap (s5.snapWork.filter (fun w => ids.contains w.1)) else s5
  (s1.twin.endpoints.foldl State.advertise s6).raise 0x7004 false n.1 n.2.1 n.2.2

end Sys2Proof.Machine
end

