-- ==== Sys2Proof/Machine/Twins.lean ====
section
/-! DEFINITION. Pairing, the twin link, checkpoints received, fail-over and return (R45, R370 to R395, R497 to R500). -/

namespace Sys2Proof.Config

/-- The payload bytes of a part of a checkpoint body (Table 10-3; log 9). -/
opaque linkBody (p : BodyPart) : Bytes

/-- The payload bytes of a part of an instance's copy (R371; log 9). -/
opaque linkBulk (inst : Nat) (data : Bytes) (done : Nat) : Bytes

/-- The payload bytes of replication entries (R374, Table 07-13; log 9). -/
opaque linkEntries (es : List JEntry) : Bytes

end Sys2Proof.Config

namespace Sys2Proof.Machine

/-! ## Link frames (R498 to R500) -/

/-- The link goes down: keys, buffers and partial bodies go with it (R497, R500). -/
def State.dropLink (s : State) : State :=
  { s with twin := { s.twin with up := false, keyed := false, refusals := 0, kept := [], parts := [], nonces := (none, none) } }

/-- A frame is refused: a retry request names the first SEQ missing; the third refusal of one SEQ brings the link down (R500). -/
def State.refuseFrame (s : State) (channel : Nat) : State :=
  let n := s.twin.refusals + 1
  let s1 := { s with twin := { s.twin with refusals := n } }
  if 3 ≤ n then s1.dropLink else s1.sendTwin 7 (.retry channel s.twin.rxSeq)

/-- The unit receives on its twin link. -/
def State.hearsTwin (s : State) : Bool := s.twin.up && !s.twin.silent && s.frame.ticking

/-- The TAG of a frame is that of the payload it opens to, under the partner's IV (R499). -/
def State.linkTagOk (s : State) (channel : Nat) (l : LinkFrame) (payload : Bytes) : Bool :=
  l.tag == (s.linkSeal (!s.twin.offered) channel l payload).2

/-- Take a link frame: in sequence, its tag good; before keying only channel 6 is accepted (R499, R500). -/
def State.linkFrame (s : State) (channel : Nat) (l : LinkFrame) (payload : Bytes) (f : State → State) : State :=
  if !s.hearsTwin then s
  else if l.seq ≠ s.twin.rxSeq ∨ !s.linkTagOk channel l payload ∨ (channel ≠ 6 ∧ !s.twin.keyed) then s.refuseFrame channel
  else f { s with twin := { s.twin with rxSeq := l.seq + 1, refusals := 0 } }

/-- TWIN_FRAME_MARKER (R45). -/
def execTwinFrameMarker (l : LinkFrame) (offset : Int) (s : State) : Host.Outcome State Fault Refusal :=
  ok (s.linkFrame 1 l (TwinMsg.marker l.frame).payload (fun t =>
    if !t.inPair || t.frame.leader || t.twin.partnerSync || t.frame.syncSeen then t else t.measureOffset offset true))

/-- The last part of a body has come: a whole, valid body is taken into the replica, a repeated one in place of its refused copy (R380, R383, R384). -/
def State.endBody (s : State) (p : BodyPart) (all : List BodyPart) : State :=
  let t := { s.twin with parts := [], got := s.twin.got.filter (fun b => decide (b.frame < p.frame)) }
  let s1 := { s with twin := t }
  if !t.valid p.frame p.digest p.prevDigest then
    { s1 with twin := { t with badBody := some (p.frame, if t.digestOf p.frame == some p.digest then 3 else 2) } }
  else s1.takeBody
    { frame := p.frame, digest := p.digest, jobs := all.flatMap (·.jobs), calls := all.flatMap (·.calls), commits := all.flatMap (·.commits),
      replies := all.flatMap (·.replies), sessions := all.flatMap (·.sessions), entries := (all.map (·.entries)).sum }
    (all.flatMap (·.seeds)) (all.findSome? (·.progress)) (all.flatMap (·.held))

/-- TWIN_FRAME_BODY (R380). -/
def execTwinFrameBody (l : LinkFrame) (part : BodyPart) (s : State) : Host.Outcome State Fault Refusal :=
  ok (s.linkFrame 2 l (Config.linkBody part) (fun t =>
    let before := t.twin.parts.filter (fun q => q.frame == part.frame)
    if l.last then t.endBody part (before ++ [part])
    else { t with twin := { t.twin with parts := before ++ [part] } }))

/-! ## The exchange (R374, R379, R383, R384, R388, R396) -/

/-- The ring heads a confirmed checkpoint moves: one past the last descriptor whose admission record it holds (R379). -/
def State.moveHeads (s : State) (c : Checkpoint) : State :=
  c.admitted.foldl (fun (t : State) slot =>
    match t.job slot with
    | some j => (match j.q with | some q => t.modQ j.inst q (fun x => { x with sqHead := j.ring + 1 }) | none => t)
    | none => t) s

/-- The partner confirmed a checkpoint of this unit (R379, R383). -/
def State.confirmed (s : State) (f : Nat) : State :=
  let now := s.twin.sent.filter (fun c => decide (c.frame ≤ f))
  let t := { s.twin with
    conf := if now = [] then s.twin.conf else max s.twin.conf f
    sent := s.twin.sent.filter (fun c => decide (f < c.frame))
    kept := s.twin.kept.filter (fun k => decide (f < k.1.frame)) }
  now.foldl State.moveHeads { s with twin := t }

/-- The partner refused one: the first time its body is sent again, the second time its finished jobs are squashed with TWIN_MISMATCH and the path is tested (R384). -/
def State.refusedBy (s : State) (f : Nat) : State :=
  match s.twin.sent.find? (fun c => c.frame == f) with
  | none => s
  | some c =>
    let t := { s.twin with
      refused := min (s.twin.refused + 1) (2 ^ 32 - 1)
      sent := s.twin.sent.map (fun (x : Checkpoint) => if x.frame = f then { x with refusals := x.refusals + 1 } else x) }
    if c.refusals = 0 then { s with twin := t } else { s with twin := { t with pathTest := true } }

/-- A digest of the partner's repeat arrives: on a match the outputs are due in the next frame, on a mismatch the check has failed (R239). -/
def State.meetDigest (s : State) (x : Nat × Dig) : State :=
  match s.job x.1 with
  | none => s
  | some j =>
    match j.pke with
    | none => s
    | some q =>
      if q.phase ≠ .computed ∨ q.localRepeat ∨ !repeats q.op then s
      else if callDigest q = x.2 then s.setCall j.slot (some { q with twinDigest := some x.2, matched := some s.frame.num })
      else (State.checkFailed { s with twin := { s.twin with mismatches := s.twin.mismatches ++ [x.1] } } j q (q.engine.toList) 3 false).startCalls

/-- The partner's digest did not match: the engine of this unit that ran the repeat is fenced and tested (R239). -/
def State.fenceRepeat (s : State) (slot : Nat) : State :=
  match s.pke.repeated.find? (fun r => r.1 == slot) with
  | none => s
  | some (_, _, e) =>
    let s1 := { s with pke := { s.pke with repeated := s.pke.repeated.filter (fun r => r.1 != slot) } }
    if s.fenced (elemOf .pke e.val) then s1 else (s1.fencePke e 3 5 (s.opOn e)).restartCall e

/-- The partner's silent marker: fail-over begins at the next cycle 0 (R388). -/
def State.heardSilent (s : State) : State :=
  if s.twin.state ≠ .paired ∨ s.twin.adoptDue.isSome then s
  else { s with twin := { s.twin with marker := true, adoptDue := some 2 } }.raise 0x7003 false 2 (s.heldCkpt % 2 ^ 32) s.twin.shadows.length

/-- A forwarded doorbell or cancel is latched by the home (R396). -/
def State.forwardedIn (s : State) (x : Exchange) : State :=
  let s1 := x.doorbells.foldl (fun (t : State) d => t.modQ d.1 (Fin.ofNat 4 d.2.1) (fun q => if d.2.1 < 4 then { q with sqTail := d.2.2 } else { q with cqHead := d.2.2 })) s
  x.cancels.foldl (fun (t : State) d => t.modQ d.1 (Fin.ofNat 4 d.2.1) (fun q =>
    { q with cancels := if q.cancels.length < 16 then q.cancels ++ [d.2.2] else q.cancels })) s1

/-- A reservation entry of the partner, kept for the case of its failure (R265, R266). -/
def reserveEntry (r : Reserve) : ResEntry := { inst := r.inst, node := r.node, gen := r.gen, uses := r.uses, block := r.block, seq := 0 }

/-- The offset beyond which a follower counts the heartbeat as missing (R46). -/
def State.farOff (s : State) : Bool := !s.frame.leader && (decide (1000 < s.frame.offset) || decide (s.frame.offset < -1000))

/-- Take an exchange frame. -/
def State.takeExchange (s : State) (x : Exchange) : State :=
  let beat := x.heartbeat && !s.farOff
  let s1 := { s with twin := { s.twin with
    gotDigests := (s.twin.gotDigests.filter (fun e => decide (x.frame < e.1 + 4) && e.1 != x.frame)) ++ [(x.frame, x.digest)]
    heartbeat := s.twin.heartbeat || beat
    lastBeat := if beat then s.frame.num else s.twin.lastBeat
    resIn := s.twin.resIn ++ x.reservations.map reserveEntry } }
  let s2 := match x.confirm with | some f => s1.confirmed f | none => s1
  let s3 := match x.refuse with | some f => s2.refusedBy f | none => s2
  let s4 := x.xDigests.foldl State.meetDigest s3
  let s5 := { s4 with
    pke := { s4.pke with twinRepeats := s4.pke.twinRepeats.filter (fun r => !x.xAborts.contains r.call.slot) }
    twin := { s4.twin with got := s4.twin.got.map (fun (b : Received) => { b with calls := b.calls.filter (fun c => !x.xAborts.contains c.slot) }) } }
  let s6 := (x.xMismatch.foldl State.fenceRepeat s5).forwardedIn x
  if x.silent then s6.heardSilent else s6

/-- TWIN_FRAME_EXCHANGE (R374). -/
def execTwinFrameExchange (l : LinkFrame) (x : Exchange) (s : State) : Host.Outcome State Fault Refusal :=
  ok (s.linkFrame 3 l (TwinMsg.exchange x).payload (fun t => t.takeExchange x))

/-- TWIN_FRAME_REPLICATION (R374). -/
def execTwinFrameReplication (l : LinkFrame) (entries : List JEntry) (s : State) : Host.Outcome State Fault Refusal :=
  ok (s.linkFrame 4 l (Config.linkEntries entries) (fun t => t.takeReplication entries))

/-! ## Bulk copy (R371, R395) -/

/-- Bytes of an instance's copy; with the last of them the copy is whole (Table 10-1 step 7; the layout is that of Config.migOpen, log 9). -/
def State.takeBulk (s : State) (inst : Nat) (data : Bytes) (last : Bool) (done : Nat) : State :=
  let k := shadowKey inst
  let b := (tget s.twin.bulkIn k).getD [] ++ data
  let t := { s.twin with resync := min done 1000 }
  if !last then { s with twin := { t with bulkIn := tset t.bulkIn k b } }
  else
    { s with twin := { t with
        bulkIn := tdel t.bulkIn k
        copying := match Config.migOpen b with
          | some x => tset t.copying k { x with state := .dormant, shadow := false }
          | none => t.copying } }

/-- TWIN_FRAME_BULK (R371). -/
def execTwinFrameBulk (l : LinkFrame) (inst : Nat) (data : Bytes) (done : Nat) (s : State) : Host.Outcome State Fault Refusal :=
  ok (s.linkFrame 5 l (Config.linkBulk inst data done) (fun t => t.takeBulk inst data l.last done))

/-- The ceremony is over once every instance has its shadow: PAIRED, and its reply (Table 10-1). -/
def State.endCeremony (s : State) : State :=
  match s.twin.ceremony with
  | some (offering, tag, 7) =>
    let whole := if offering then s.insts.all (fun (e : Nat × Inst) => s.twin.copied.contains e.1) else s.twin.resync == 1000 && s.twin.copying == []
    if !whole then s
    else
      let s1 := if offering then { s with twin := { s.twin with shadows := tset s.twin.shadows 1024 { newInst 0 managerShare [] with state := .dormant } } } else s
      ({ s1 with twin := { s1.twin with ceremony := none, got := [], gotDigests := [], sent := [], replica := [] } }.setPair .paired).refreshManager.reply (.mailbox 0)
        (if offering then 0xB0 else 0xB1) St.ok tag []
  | _ => s

/-- SHADOW_COPY_DONE (R371). -/
def execShadowCopyDone (inst : Nat) (s : State) : Host.Outcome State Fault Refusal :=
  ok (if s.twin.state = .unpaired then s
      else
        let k := shadowKey inst
        match tget s.twin.copying k with
        | some x => State.endCeremony { s with twin := { s.twin with copying := tdel s.twin.copying k, shadows := tset s.twin.shadows k x } }
        | none =>
          if (s.inst inst).isNone || s.twin.copied.contains inst then s
          else State.endCeremony { s with twin := { s.twin with copied := s.twin.copied ++ [inst] } })

/-! ## Pairing (R370 to R373, R499) -/

/-- The conditions of R370 this unit can tell of itself; those of the partner, compared over the link, are one free bit (log 9). -/
def State.canPair (s : State) (joining : Bool) : Bool × State :=
  let (other, s1) := s.take 1
  (s.isOwned && s.twin.record.isNone && decide (s.twin.state = .unpaired) && s.twin.up && !s.prot.dbg.getLsbD 0 && !s.prot.dbg.getLsbD 4 &&
    (!joining || s.insts.all (fun (e : Nat × Inst) => e.1 == 0)) && other == 1, s1)

/-- A pairing request: its conditions, the partner's statement and certificate, the token (R370, R371). -/
def State.pairRequest (s : State) (rq : Req) (mtype : Nat) (target : TargetStatement) (cert : OwnerCert) (token : Token) : State :=
  s.request rq mtype true (fun t =>
    let (can, t1) := t.canPair (mtype == 0xB1)
    if !can then t1.answer rq mtype St.descInvalid
    else if target.rsv ∨ target.epoch ≠ t1.epoch ∨ !t1.certGood cert (targetBytes target) target.sig then t1.answer rq mtype St.authFail
    else t1.withToken rq mtype 3 (t1.threshold 3) token [] (targetBytes target ++ target.sig ++ ownerCertBytes cert ++ cert.sig) (fun u =>
      let u1 := { u with
        twin := { u.twin with ceremony := some (mtype == 0xB0, rq.tag, 3), record := none, resync := 0, copied := [], copying := [], bulkIn := [], peer := some { encap := target.encapKey, att := cert.pub } }
        frame := { u.frame with leader := mtype == 0xB0 } }
      let u2 := u1.setPair .pairing
      if mtype = 0xB1 then u2.sendTwin 6 (.pairing 3 []) else u2))

/-- PAIR_OFFER (R371). -/
def execPairOffer (rq : Req) (target : TargetStatement) (cert : OwnerCert) (token : Token) (s : State) : Host.Outcome State Fault Refusal :=
  ok (s.pairRequest rq 0xB0 target cert token)

/-- PAIR_ACCEPT (R371). -/
def execPairAccept (rq : Req) (target : TargetStatement) (cert : OwnerCert) (token : Token) (s : State) : Host.Outcome State Fault Refusal :=
  ok (s.pairRequest rq 0xB1 target cert token)

/-- UNPAIR (R372). -/
def execUnpair (rq : Req) (token : Token) (s : State) : Host.Outcome State Fault Refusal :=
  ok (s.request rq 0xB2 true (fun t =>
    if t.twin.record.isNone then t.answer rq 0xB2 St.descInvalid
    else t.withToken rq 0xB2 3 (t.threshold 3) token [] [] (fun u => u.stage (.unpair (replyTo rq) rq.tag))))

/-- Both units hold the pairing record; the frame number jumps at the next boundary to the larger of the two plus 1,000, the partner's being that of the link frame's header (Table 10-1 step 6, R498). -/
def State.recordPair (s : State) (p : Peer) (jid : BitVec 128) (frame : Nat) : State :=
  let c := s.twin.ceremony.map (fun (c : Bool × BitVec 16 × Nat) => (c.1, c.2.1, 7))
  { s with twin := { s.twin with
      record := some (p.pair, Config.sha3 p.att, jid), offered := s.twin.ceremony.any (·.1), jump := some (max s.frame.num frame + 1000), ceremony := c, peer := none, keyed := true } }

/-- The content of the pairing package: L2, pair ID, role of the sender, its frame number, its JID (Table 10-1 step 4; log 152). -/
def packagePlain (l2 : Dig) (pair : Bytes) (frame : Nat) (jid : BitVec 128) : Bytes :=
  leBytes 32 l2.toNat ++ pair ++ leBytes 1 0 ++ leBytes 8 frame ++ leBytes 16 jid.toNat

/-- The offering unit sends the package: encapsulated to the joining unit's key, enciphered under the shared secret, signed (Table 10-1 step 4; log 152). -/
def State.sendPackage (s : State) (tag : BitVec 16) (p : Peer) : State :=
  let (r, s1) := s.takeRandom 32
  let (id, s2) := s1.takeRandom 16
  let e := Config.kemEncap p.encap r
  let g := Config.gcm e.2 (zeros 12) e.1 (packagePlain (s2.quarry.l2.getD 0) id s2.frame.num s2.quarry.jid)
  let b := e.1 ++ g.1 ++ leBytes 16 g.2.toNat
  match s2.attSign b with
  | none => (({ s2 with twin := { s2.twin with ceremony := none, peer := none } }).setPair .unpaired).reply (.mailbox 0) 0xB0 St.keyUseExhausted tag []
  | some (sig, _, s3) =>
    ({ s3 with twin := { s3.twin with
        ceremony := some (true, tag, 4), peer := some { p with pair := BitVec.ofNat 128 (leNat id) } } }).sendTwin 6 (.pairing 4 (b ++ sig))

/-- What a package opens to under one of the kept target keys, once its signature verifies. -/
def State.openPair (s : State) (p : Peer) (b : Bytes) : Option (Bytes × TargetKey) :=
  if !Config.verify algXmss p.att (b.take 1657) (b.drop 1657) then none
  else s.mail.targets.findSome? (fun (t : TargetKey) =>
    (Config.gcmInv (Config.kemDecap t.decap (b.take 1568)) (zeros 12) (b.take 1568) ((b.drop 1568).take 73)
      (BitVec.ofNat 128 (leNat ((b.drop 1641).take 16)))).map (fun x => (x, t)))

/-- The joining unit takes the package: L2 is wrapped as CURRENT, its former L2 and FORWARD go, instance 0 loses its nodes, a JID is drawn (Table 10-1 step 5, R279). -/
def State.takePackage (s : State) (p : Peer) (b : Bytes) (frame : Nat) : State :=
  match s.openPair p b with
  | none => s
  | some (x, k) =>
    let s1 := { s with mail := { s.mail with targets := s.mail.targets.erase k } }
    let s2 := (s1.adoptL2 (BitVec.ofNat 256 (leNat (x.take 32)))).newJournal
    let s3 := s2.modInst 0 (fun (x : Inst) => { x with dir := x.dir.filter (fun (e : Nat × DirEntry) => e.1 == 0) })
    (State.sendTwin { s3 with twin := { s3.twin with role0 := false }, quarry := { s3.quarry with ownerKeys := true, cut := [] } } 6
        (.pairing 5 (leBytes 16 s3.quarry.jid.toNat))).recordPair
      { p with pair := BitVec.ofNat 128 (leNat ((x.drop 32).take 16)) } (BitVec.ofNat 128 (leNat ((x.drop 57).take 16))) frame

/-- The bulk copy of every instance begins (Table 10-1 step 7, R395). -/
def State.sendBulk (s : State) : State := s.insts.foldl (fun (t : State) (e : Nat × Inst) => t.sendTwin 5 (.bulk e.1 (Config.migBody e.2))) s

/-- The digest of the unit's attestation key: that of the tree it signs with. -/
def State.attDigest (s : State) : Dig := Config.sha3 (s.signTree.elim [] (fun t => t.2.pub))

/-- What a unit sends at a link-up: its nonce, and where it holds a pairing record the pair ID and the digest of its attestation key (R372, R499; log 152). -/
def State.linkHello (s : State) (n : BitVec 128) : Bytes :=
  leBytes 16 n.toNat ++ (match s.twin.record with
    | some r => leBytes 16 r.1.toNat ++ leBytes 32 s.attDigest.toNat
    | none => [])

/-- The partner's greeting is that of the unit the pairing record names (R372). -/
def State.knowsPartner (s : State) (b : Bytes) : Bool :=
  s.twin.record.any (fun r => b == b.take 16 ++ leBytes 16 r.1.toNat ++ leBytes 32 r.2.1.toNat)

/-- Both nonces are known and both units hold the same L2: the link is keyed, and a unit that holds the pairing record rejoins its partner (R372, R499). -/
def State.keyLink (s : State) (b : Bytes) : State :=
  match s.twin.nonces with
  | (some _, some _) =>
    if !s.knowsPartner b then s
    else
      let s1 := { s with twin := { s.twin with keyed := true } }
      if s.twin.state = .solo ∨ s.twin.state = .unpaired then
        ({ s1 with twin := { s1.twin with resyncAt := s.frame.num, resync := 0 } }.setPair .resync).sendBulk
      else s1
  | _ => s

/-- A frame of channel 6: a greeting at link-up (step 0), or a step of the ceremony. -/
def State.takePairing (s : State) (frame step : Nat) (b : Bytes) : State :=
  match step, s.twin.ceremony, s.twin.peer with
  | 0, _, _ => State.keyLink { s with twin := { s.twin with nonces := (s.twin.nonces.1, some (BitVec.ofNat 128 (leNat (b.take 16)))) } } b
  | 3, some (true, tag, 3), some p => s.sendPackage tag p
  | 4, some (false, _, 3), some p => s.takePackage p b frame
  | 5, some (true, _, 4), some p => (s.recordPair p (BitVec.ofNat 128 (leNat (b.take 16))) frame).sendBulk
  | _, _, _ => s

/-- TWIN_FRAME_PAIRING (R499). -/
def execTwinFramePairing (l : LinkFrame) (step : Nat) (body : Bytes) (s : State) : Host.Outcome State Fault Refusal :=
  ok (s.linkFrame 6 l (TwinMsg.pairing step body).payload (fun t => t.takePairing l.frame step body))

/-! ## Retries, link up and down (R497, R499, R500) -/

/-- TWIN_FRAME_RETRY (R500). -/
def execTwinFrameRetry (l : LinkFrame) (channel firstMissing : Nat) (s : State) : Host.Outcome State Fault Refusal :=
  ok (s.linkFrame 7 l (TwinMsg.retry channel firstMissing).payload (fun t =>
    let again := t.twin.kept.filter (fun k => decide (firstMissing ≤ k.1.seq))
    { t with
      twin := { t.twin with kept := again }
      net := { t.net with retries := min (t.net.retries + 1) 0xFFFF }
      out := t.out ++ again.map (fun k => Output.twin k.1 k.2.1 k.2.2) }))

/-- TWIN_LINK_UP (R497). -/
def execTwinLinkUp (latency : Nat) (s : State) : Host.Outcome State Fault Refusal :=
  ok (if s.twin.silent || !s.frame.ticking then s
      else
        let (n, s1) := s.take 128
        ({ s1 with
          net := { s1.net with latency := latency }
          twin := { s1.twin with up := true, keyed := false, txSeq := 0, rxSeq := 0, refusals := 0, kept := [], nonces := (some n, none) } }).sendTwin 6 (.pairing 0 (s1.linkHello n)))

/-- TWIN_LINK_DOWN (R497). -/
def execTwinLinkDown (s : State) : Host.Outcome State Fault Refusal :=
  ok s.dropLink

/-- TWIN_CODEWORD_ERROR (R500). -/
def execTwinCodewordError (channel : Nat) (s : State) : Host.Outcome State Fault Refusal :=
  ok (if s.hearsTwin then State.refuseFrame { s with twin := { s.twin with errs := (s.twin.errs.1, s.twin.errs.2 + 1) } } channel else s)

/-! ## The partner fails, the link fails, a unit returns (R384, R387 to R395) -/

/-- The heartbeat is missing in this frame and was in the one before (R388). -/
def State.beatLost (s : State) : Bool := !s.twin.heartbeat && decide (1 ≤ s.twin.missed)

/-- The partner's FRAME_SYNC is missing in this frame and was in the one before. -/
def State.syncLost (s : State) : Bool := !s.twin.partnerSync && decide (1 ≤ s.twin.syncMissed)

/-- HEARTBEAT_LOSS (R388). -/
def execHeartbeatLoss (s : State) : Host.Outcome State Fault Refusal :=
  ok (if !s.ticks || s.twin.state ≠ .paired || s.twin.adoptDue.isSome || !s.beatLost then s
      else if s.syncLost then
        { s with twin := { s.twin with adoptDue := some 1 } }.raise 0x7003 false 1 (s.heldCkpt % 2 ^ 32) s.twin.shadows.length
      else s.breakPair .split)

/-- ADOPTION (R390). -/
def execAdoption (s : State) : Host.Outcome State Fault Refusal :=
  ok (if s.ticks && s.twin.adoptDue.isSome then s.adopt else s)

/-- SPLIT_RESYNC (R389). -/
def execSplitResync (s : State) : Host.Outcome State Fault Refusal :=
  ok (if s.ticks && decide (s.twin.state = .split) && decide (10000 ≤ s.twin.beats) then
        ({ s with twin := { s.twin with resyncAt := s.frame.num, resync := 0 } }.setPair .resync).sendBulk
      else s)

/-- The replica is whole: PAIRED, event 0x7007 with the GiB copied, which the model does not count, and the frames taken (R395; log 9). -/
def State.endResync (s : State) : State :=
  let (gib, s1) := s.take 32
  let t := { s1.twin with
    partnerBack := s1.twin.adopted != [], got := [], gotDigests := [], sent := [], replica := [], bulkIn := []
    shadows := addInsts s1.twin.shadows s1.twin.copying, copying := [], resync := 1000 }
  ({ s1 with
    twin := t
    frame := { s1.frame with leader := if s1.twin.homes = [] then s1.frame.leader else false } }.setPair .paired).raise 0x7007 false
      gib.toNat ((s1.frame.num - s1.twin.resyncAt) % 2 ^ 32) 0

/-- RESYNC_COMPLETE (R395). -/
def execResyncComplete (s : State) : Host.Outcome State Fault Refusal :=
  ok (if s.ticks && decide (s.twin.state = .resync) then s.endResync else s)

/-- TWIN_PATH_TEST_DONE (R384). -/
def execTwinPathTestDone (ownFault : Bool) (s : State) : Host.Outcome State Fault Refusal :=
  ok (if !s.ticks || !s.twin.pathTest then s
      else
        let s1 := { s with twin := { s.twin with pathTest := false } }
        if ownFault then s1.diagnose 6 0
        else if s1.twin.state = .paired then s1.breakPair .split else s1)

/-- A repaired unit starts to serve again: its keys are derived anew, its memory but for MRAM reads zero, the instances its partner adopted stay there; it follows (R275, R387, R395). -/
def State.rejoin (s : State) : State :=
  let s1 := { s with mem := s.mem.filter (fun (c : Host.Cell) => decide (0x8000000000 ≤ c.1) && decide (c.1 < 0x8004000000)), twin := { s.twin with silent := false }, power := { s.power with faultN := false } }
  let s2 := if s1.isOwned then s1.deriveUpper.openL2 else s1.deriveUpper.drawSession
  let s3 := if s.twin.unserved then { s2 with twin := { s2.twin with unserved := false } }
    else { s2 with
      insts := []
      twin := { s2.twin with
        homes := s2.insts.map (fun (e : Nat × Inst) => e.1)
        shadows := s2.insts.map (fun (e : Nat × Inst) => (e.1, { e.2 with state := .dormant, shadow := false })) }
      frame := { s2.frame with leader := false } }
  ({ s3 with frame := { s3.frame with cycle := 11920 }, twin := { s3.twin with resyncAt := s.frame.num, resync := 0 }, quarry := { s3.quarry with ownerKeys := s3.quarry.l2.isSome } }).setPair
    (if s.twin.unserved then .split else .resync)

/-- REPAIRED_UNIT_REJOIN (R387). -/
def execRepairedUnitRejoin (passed : Bool) (s : State) : Host.Outcome State Fault Refusal :=
  ok (if !s.twin.silent || s.twin.stuck || !passed then s else s.rejoin)

end Sys2Proof.Machine
end

