-- ==== Sys2Proof/Machine/Commit.lean ====
section
/-! DEFINITION. The staged commit of cycles 1 to 31, in the order of R33, and the commit of reservation blocks (R31 to R34, R79, R228, R264, R265, R280, R283, R384, R396, R399, R406). -/

namespace Sys2Proof.Config

/-- The 64 bytes of a commit record: the change with its staging number and outcome, whose layout the spec does not give (Table 10-3; free value, log 9). -/
opaque commitRecord (number : Nat) (change : Sys2Proof.Machine.Change ⊕ Sys2Proof.Machine.ProtChange) : Bytes

end Sys2Proof.Config

namespace Sys2Proof.Machine

/-! ## Replies at a commit (R310, R406) -/

/-- A reply that reports a change: released once every journal entry staged so far has been written (R406). -/
def State.replyDone (s : State) (d : Dest) (mtype : Nat) (st : BitVec 7) (tag : BitVec 16) (body : Bytes) : State :=
  { s with mail := { s.mail with replies := s.mail.replies ++
    [{ dest := d, mtype := mtype, status := st.setWidth 8, tag := tag, body := body, due := s.frame.num + 1, journal := s.quarry.seq - 1 }] } }

/-! ## Order and room (R33, R280, R283) -/

/-- The place of a change in the order of R33; pass, planner and protection changes stand in their own blocks. -/
def changeOrder : Change → Nat
  | .custodians .. | .unpair .. | .fwActivate .. | .transition => 1
  | .keyCreate .. | .keyMode .. | .keyReplace .. | .keyNarrow .. | .progSet .. | .progRemove .. | .bindAdd .. | .mapInstall ..
  | .mapRemove .. | .imageReady .. | .fwCancel .. | .netMka .. => 4
  | .instReset .. | .migFreeze .. | .migThaw .. | .migImport .. => 5
  | .instCreate .. | .shareSet .. | .dirtySet .. | .dirtySwap .. | .netEndpoint .. => 6
  | .jrnlSet .. | .fenceHold .. | .tamperCfg .. | .debugRights .. => 8

/-- Entries of a node with its directory block. -/
def State.nodeEntries (s : State) (inst idx : Nat) : Nat := (s.node inst idx).elim 2 (fun n => slotsOf n.material + 1)

/-- Journal entries a change makes. -/
def State.entriesOf (s : State) (c : Change) : Nat :=
  match c with
  | .keyCreate i n _ => s.nodeEntries i n
  | .keyMode i n 4 _ _ => s.nodeEntries i n
  | .keyMode _ _ _ _ _ => 1
  | .keyReplace _ _ n _ _ => slotsOf n.material + 1
  | .keyNarrow .. => 1
  | .migImport _ x _ _ => 1 + (x.dir.map (fun (e : Nat × DirEntry) => 1 + e.2.node.elim 0 (fun n => slotsOf n.material))).sum
  | .instCreate .. | .shareSet .. => 1
  | _ => 0

/-- Changes that may use the reserve of the staging area (R280). -/
def narrows : Change → Bool
  | .keyMode .. | .keyNarrow .. => true
  | _ => false

/-- A change may commit now: the staging area takes its entries, and no restore is awaited that they would precede (R280, R283). -/
def State.mayCommit (s : State) (c : Change) : Bool :=
  let n := if s.journals then s.entriesOf c else 0
  n == 0 || (s.quarry.ownerKeys && decide (s.quarry.staging.length + n ≤ (if narrows c then stagingSize else stagingSize - stagingReserve)))

/-! ## Order 1: roles (R289, R372, R396) -/

/-- CUSTODIAN_SET at its commit. -/
def State.commitCustodians (s : State) (q3 q4 : Nat) (keys : List (Nat × Nat × Bytes)) (d : Dest) (tag : BitVec 16) : State :=
  ({ s with quarry := { s.quarry with custodians := keys, quorum := (q3, q4) } }).replyDone d 0xC2 St.ok tag []

/-- UNPAIR at its commit: the shadows are erased, the pairing record is deleted, L2 stays (R372, R377). -/
def State.commitUnpair (s : State) (d : Dest) (tag : BitVec 16) : State :=
  let s1 := s.breakPair .unpaired
  let s2 := { s1 with twin := { s1.twin with
    record := none, shadows := [], homes := [], jobs := [], got := [], gotDigests := [], parts := [], replica := [], resIn := []
    sessions := [], endpoints := [], copying := [], copied := [], adoptDue := none, marker := false, partnerBack := false } }
  s2.refreshManager.replyDone d 0xB2 St.ok tag []

/-- The first 64 of a list of instances in ascending order. -/
def first64 (ids : List Nat) : List Nat := (sortBy (fun (a b : Nat) => decide (a < b)) ids).take 64

/-- A return is under way: k more instances have returned, and when none is left event 0x7006 tells how many and how long. -/
def State.countReturn (s : State) (k left : Nat) : State :=
  let (f, n) := s.twin.returning.getD (s.frame.num, 0)
  if left = 0 then
    ({ s with twin := { s.twin with returning := none } }).raise 0x7006 false (n + k) (s.frame.num - f) 0
  else { s with twin := { s.twin with returning := some (f, n + k) } }

/-- The survivor gives back: its function becomes DORMANT, its jobs drain. -/
def State.giveBack (s : State) : State :=
  let ids := first64 s.twin.adopted
  let left := s.twin.adopted.filter (fun i => !ids.contains i)
  let s1 := ids.foldl (fun (t : State) i => t.modInst i (fun x => { x with state := .dormant, shadow := false })) s
  State.countReturn { s1 with twin := { s1.twin with adopted := left, returned := s1.twin.returned ++ ids.map (fun i => (i, s.frame.num)) } }
    ids.length left.length

/-- One instance comes home: its stored doorbells are latched, and its STATE notice tells SHADOW 0. -/
def State.comeHome (s : State) (i : Nat) : State :=
  match tget s.twin.shadows i with
  | none => s
  | some x =>
    let y := { x with qs := x.qs.map (fun (q : QPair) => { q with en := true, active := true, sqLatched := q.sqTail, fetched := [], ready := 0, fetching := 0 }) }
    ({ s with insts := tset s.insts i y, twin := { s.twin with shadows := tdel s.twin.shadows i } }).setInstState i .active false

/-- The repaired unit takes its instances back. -/
def State.takeBack (s : State) : State :=
  let ids := first64 s.twin.homes
  let left := s.twin.homes.filter (fun i => !ids.contains i)
  let s1 := ids.foldl State.comeHome s
  State.countReturn { s1 with twin := { s1.twin with homes := left } } ids.length left.length

/-- Instances return home, 64 a frame, while RETURN_EN is 1 and the pair is PAIRED (R395, R396). -/
def State.returnHome (s : State) : State :=
  if !s.twin.returnEn || !s.isPaired then s
  else
    let s1 := if s.twin.partnerBack && s.twin.adopted != [] then s.giveBack else s
    if s1.twin.homes != [] then s1.takeBack else s1

/-! ## Order 1: the passes (R399, R402, R408, R487) -/

/-- A MAC address of zero keeps a link down (R487). -/
def Pass.addressed (p : Pass) (mac : BitVec 48) : Pass := if mac = 0 then { p with mac := mac, up := false, healthy := false } else { p with mac := mac }

/-- The pass registers staged. -/
def State.commitPassRegs (s : State) : State :=
  let p := s.passes
  let (mac, udp, replay) := s.net.regStaged
  let addr (x : Pass) : Pass := match mac with | some m => x.addressed m | none => x
  { s with
    passes := { p with
      a := addr p.a, b := addr p.b, revert := p.revertStaged.getD p.revert, revertStaged := none
      period := p.periodStaged.getD p.period, periodStaged := none }
    net := { s.net with udp := udp.getD s.net.udp, replay := replay.getD s.net.replay, regStaged := (none, none, none) } }

/-- SWAP_NOW stages a switch where the standby qualifies, and reads 0 after the commit. -/
def State.swapIfAsked (s : State) : State :=
  let s1 := if s.passes.swapNow && s.standbyClean then s.stageSwitch 4 else s
  { s1 with passes := { s1.passes with swapNow := false } }

/-- The active pass changes: event 0x7011, the old pass still receives for two frames, every endpoint is advertised from the new one (Table 10-7). -/
def State.switchPass (s : State) (cause : Nat) : State :=
  let p := s.passes
  let b := !p.activeB
  let s1 := ({ s with
    passes := { p with
      activeB := b, switchDue := none, switchedAt := s.frame.num, oldUntil := some (s.frame.num + 2)
      faults := if cause = 1 then min (p.faults + 1) 0xFFFF else p.faults
      planned := if cause = 1 then p.planned else min (p.planned + 1) 0xFFFF }
    host := { s.host with vec2 := true } }).modPass b (fun x => { x with lostControl := false })
  let s2 := s1.raise 0x7011 false (if p.activeB then 1 else 0) (if b then 1 else 0) cause
  s2.net.endpoints.foldl State.advertise s2

/-- The staged switch commits. -/
def State.commitSwitch (s : State) : State := match s.passes.switchDue with | some c => s.switchPass c | none => s

/-! ## Order 4: keys, programs, bindings, maps, security associations (R206, R252, R256, R268, R328, R486) -/

/-- Jobs whose call or key block import made a node wait with their completion for the node's journal entries (R406). -/
def State.owesJournal (s : State) (inst idx : Nat) : State :=
  { s with jobs := s.jobs.map (fun (j : Job) =>
      if j.inst = inst ∧ (j.made = some idx ∨ j.pke.any (fun q => q.made == some idx)) then { j with journal := s.quarry.seq - 1 } else j) }

/-- KEY_CREATE, KEY_IMPORT, COMP_IMPORT or a call's creation at its commit: the reply carries the handle, and after components the key's check value. -/
def State.commitCreate (s : State) (inst idx : Nat) (reply : Option (Dest × BitVec 16 × Nat)) : State :=
  let s1 := s.applyCreate inst idx
  match reply with
  | none => s1.owesJournal inst idx
  | some (d, tag, mtype) =>
    let h := s1.handleOf inst idx
    s1.replyDone d mtype St.ok tag (leBytes 8 h.toNat ++ (if mtype = 0xC1 then checkValue (hType h) (s1.keyValue [] h) else []))

/-- Install or replace a program, its slots charged in place of the old one's (R179). -/
def State.commitProg (s : State) (inst id : Nat) (p : Option Program) : State :=
  match s.inst inst with
  | none => s
  | some x =>
    let old := (tget x.progs id).elim 0 (fun o => o.slots)
    let s1 := s.modInst inst (fun y => { y with progs := match p with | some n => tset y.progs id n | none => tdel y.progs id })
    s1.chargeSlots inst ((p.elim 0 (fun n => n.slots) : Nat) - (old : Int))

/-- A program fits at its commit: key-store room for what it adds, 256 programs at most (R179). -/
def State.progFits (s : State) (inst id : Nat) (p : Program) : Bool :=
  match s.inst inst with
  | none => true
  | some x =>
    let old := tget x.progs id
    s.slotRoom inst (p.slots - old.elim 0 (·.slots)) && (old.isSome || decide (x.progs.length < 256))

/-- One SA change of a pass (R206): a transmit SA starts at PN 1 and becomes active; a receive SA accepts from PN 1, of 16 channels at most. -/
def Pass.changeSa (p : Pass) (c : SaChange) : Pass :=
  let others := p.rxSa.filter (fun a => !(a.sci == c.sci && a.an == c.an))
  if c.tx then
    { p with
      txSa := p.txSa.set c.an.val (c.key.map (fun k => { next := 1, key := k })) c.an.isLt
      txAn := if c.key.isSome then some c.an else if p.txAn = some c.an then none else p.txAn }
  else match c.key with
    | none => { p with rxSa := others }
    | some k =>
      if (others.map (·.sci)).contains c.sci || decide (((others.map (·.sci)).eraseDups).length < 16) then
        { p with rxSa := others ++ [{ sci := c.sci, an := c.an, low := 1, key := k }] }
      else p

/-- The staged SAs of a pass. -/
def Pass.commitSas (p : Pass) : Pass := { p.staged.foldl Pass.changeSa p with staged := [] }

/-- NET_MKA at its commit: MKA restarts on the passes named (R486). -/
def State.commitMka (s : State) (m : MkaSet) : State :=
  let key := s.keyValue [] m.cak
  let restart (p : Pass) : Pass := { p with cak := some (key, m.ckn), xpn := m.xpn, peers := [], mkaPeer := false, mkaMn := 0, mkaSeen := s.frame.num }
  let p := s.passes
  ({ s with
    passes := { p with a := if m.passA then restart p.a else p.a, b := if m.passB then restart p.b else p.b }
    net := { s.net with priority := m.priority } }).replyDone m.dest 0xB9 St.ok m.tag []

/-! ## Orders 5 and 6: instances and shares (R299 to R303, R313 to R323, R486) -/

/-- MIG_FREEZE at its commit. -/
def State.commitFreeze (s : State) (i : Nat) (d : Dest) (tag : BitVec 16) : State :=
  if (s.inst i).any (fun x => decide (x.state = .active) || decide (x.state = .stalled)) then
    (s.setInstState i .frozen false).modInst i (fun x => { x with freeze := some (d, tag) })
  else s.replyDone d 0x8A St.accessFault tag []

/-- MIG_THAW at its commit: an export under way is abandoned (R319, R321). -/
def State.commitThaw (s : State) (i : Nat) (d : Dest) (tag : BitVec 16) : State :=
  if (s.inst i).any (fun x => decide (x.state = .frozen)) then
    ((s.endFreeze i).setInstState i .active false).replyDone d 0x8D St.ok tag []
  else s.replyDone d 0x8D St.accessFault tag []

/-- A new instance: bound, its contexts' rules in place, its accounting at zero, its root in the journal (R299, R341, R462). -/
def State.bindInst (s : State) (i : Nat) (x : Inst) : State :=
  let s1 := { s with
    insts := tset s.insts i x
    pmc := { s.pmc with inst := s.pmc.inst.filter (fun (e : Nat × Ctr) => e.1 / 16 != i) } }
  ((s1.grantRules i).journalRoot i).refreshManager

/-- INST_CREATE at its commit. -/
def State.commitInst (s : State) (i : Nat) (x : Inst) (d : Dest) (tag : BitVec 16) : State :=
  (s.bindInst i x).replyDone d 0x80 St.ok tag []

/-- MIG_IMPORT at its commit: the instance stands FROZEN, its nodes and directory in the journal (R323). -/
def State.commitImport (s : State) (i : Nat) (x : Inst) (d : Dest) (tag : BitVec 16) : State :=
  let s1 := s.bindInst i x
  let s2 := x.dir.foldl (fun (t : State) (e : Nat × DirEntry) => t.journalNode i e.1) s1
  ({ s2 with quarry := { s2.quarry with slotsUsed := s2.quarry.slotsUsed + x.slotsUsed } }).replyDone d 0x8C St.ok tag []

/-- SHARE_SET at its commit: it supersedes a pending shrink, and is itself pending while occupancy exceeds a new quota (R301 to R303). -/
def State.commitShare (s : State) (i : Nat) (share : Share) (d : Dest) (tag : BitVec 16) : State :=
  match s.inst i with
  | none => s.replyDone d 0x83 St.descInvalid tag []
  | some x =>
    let s1 := match x.shrink with
      | some (d0, t0) => s.replyDone d0 0x83 St.ok t0 (leBytes 1 1)
      | none => s
    let y := { x with share := share, shrink := none }
    let fits := s.withinQuota i y
    let s2 := ((s1.modInst i (fun z => { z with share := share, shrink := if fits then none else some (d, tag) })).journalRoot i).refreshManager
    let s3 := if fits then s2.replyDone d 0x83 St.ok tag [] else s2.interim d 0x83 St.shrinkPending tag
    s3.shareNotice i

/-- DIRTY_SET at its commit (R316). -/
def State.commitDirty (s : State) (i : Nat) (n : Dirty) (d : Dest) (tag : BitVec 16) : State :=
  (s.modInst i (fun x => { x with dirty := { n with swap := x.dirty.swap } })).replyDone d 0x88 St.ok tag []

/-- DIRTY_SWAP at its commit: the buffers change places (Table 08-10); one that meets a swap in progress or logging turned off is refused as at its request. -/
def State.commitSwap (s : State) (i : Nat) (d : Dest) (tag : BitVec 16) : State :=
  if (s.inst i).any (fun x => !x.dirty.en || x.dirty.swap.isSome) then s.replyDone d 0x89 St.descInvalid tag []
  else s.modInst i (fun x =>
    let y := x.dirty
    { x with dirty := { y with
        other := y.marks, marks := [], onB := !y.onB
        outsideOld := y.outside, outside := 0, swap := some (d, tag) } })

/-- NET_ENDPOINT at its commit: sessions of the old endpoint close without notice (R486, R494). -/
def State.commitEndpoint (s : State) (e : EndpointSet) : State :=
  let old := s.net.endpoints.filter (fun (x : Endpoint) => x.inst == e.inst)
  let s1 := if old = e.ep.toList then s else s.endSessions e.inst
  ({ s1 with net := { s1.net with endpoints := s1.net.endpoints.filter (fun (x : Endpoint) => x.inst != e.inst) ++ e.ep.toList } }).replyDone e.dest 0xB8
    St.ok e.tag []

/-! ## Order 8: planner controls, debug enables and what is named with them (R33, R50, R285, R356 to R359, R408, R437, R471, R481) -/

/-- Registers that commit at order 8. -/
def State.commitControls (s : State) : State :=
  let f := s.frame
  let c := f.stagedCtrl.getD (f.lendEn, f.shedIrq, f.thresh)
  let t := s.twin.stagedCtrl.getD (s.twin.xcheck, s.twin.returnEn)
  State.movePort { s with
    frame := { f with lendEn := c.1, shedIrq := c.2.1, thresh := c.2.2, stagedCtrl := none, horizon := f.stagedLend.getD f.horizon, stagedLend := none }
    twin := { s.twin with xcheck := t.1, returnEn := t.2, stagedCtrl := none }
    host := { s.host with pfPort := s.host.pfStaged.getD s.host.pfPort, pfStaged := none } }

/-- A lane whose world has lost the invasive right resumes, and the job it held ends with ACCESS_FAULT (R359). -/
def State.freeLane (s : State) (l : LaneId) : State :=
  if !(s.lane l).stopped || s.invasive (s.lane l).hollow then s
  else
    let s1 := s.modLane l (fun x => { x with stopped := false, stepping := false })
    match (s.lane l).run with
    | some j => s1.endJob j St.accessFault 0
    | none => s1

/-- New debug rights take the place of the old ones: event 0x2008; a measured change discards the roots; what was held under a right that is gone goes free (R273, R356, R357, R359, R436). -/
def State.setRights (s : State) (rights : BitVec 7) (frames : Option Nat) : State :=
  let measured := debugByte rights != debugByte s.prot.dbg
  let s1 := ({ s with prot := { s.prot with dbg := rights, dbgLeft := frames, dbgEnding := false } }).raise 0x2008 false rights.toNat
    (min (frames.getD (2 ^ 32 - 1)) (2 ^ 32 - 1)) 0
  let s2 := { s1 with prot := { s1.prot with haltedCores := s1.prot.haltedCores.filter (fun c => s1.invasive (hollowCore c)) } }
  let s3 := (List.finRange 64).foldl State.freeLane s2
  if measured then s3.discardRoots else s3

/-- Rights whose validity has ended are cleared (R356). -/
def State.clearRights (s : State) : State :=
  if s.prot.dbgEnding || (s.prot.dbg != 0 && s.prot.dbgLeft == some 0) then s.setRights 0 (some 0) else s

/-- FENCE_HOLD at its commit; an element let go after three passes returns to service (R49, R471). -/
def State.commitHold (s : State) (e : Nat) (hold : Bool) (d : Dest) (tag : BitVec 16) : State :=
  let s1 := s.modElem e (fun x => { x with held := hold && x.fenced })
  let s2 := if !hold && s.fenced e && decide (3 ≤ (s.elem e).passes) then s1.restore e else s1
  s2.replyDone d 0xA9 St.ok tag []

/-! ## The commit -/

/-- One staged change. -/
def State.applyChange (s : State) (c : Change) : State :=
  match c with
  | .custodians _ q3 q4 keys d t => s.commitCustodians q3 q4 keys d t
  | .unpair d t => s.commitUnpair d t
  | .fwActivate d t => s.commitActivate d t
  | .transition => s.commitTransition
  | .keyCreate i n r => s.commitCreate i n r
  | .keyMode i n m d t => (s.applyMode i n m).replyDone d 0x11 St.ok t []
  | .keyReplace i n x d t => (s.applyReplace i n x).2.replyDone d 0x11 (s.applyReplace i n x).1 t []
  | .keyNarrow i n b d t => (s.applyNarrow i n b).replyDone d 0x13 St.ok t []
  | .progSet i n p d t m => if s.progFits i n p then (s.commitProg i n (some p)).replyDone d m St.ok t [] else s.replyDone d m St.quota t []
  | .progRemove i n d t => (s.commitProg i n none).replyDone d 0x22 St.ok t []
  | .bindAdd i k m d t => (s.modInst i (fun x => { x with binds := tset x.binds k m })).replyDone d 0x24 St.ok t (leBytes 1 k)
  | .mapInstall i m ts d t =>
    if !s.tablesFit i ts then s.replyDone d 0x28 St.quota t []
    else (s.modInst i (fun x => { x with maps := tset x.maps m.mapId m, tables := addTables x.tables ts })).replyDone d 0x28 St.ok t []
  | .mapRemove i n d t => (s.modInst i (fun x => { x with maps := tdel x.maps n })).replyDone d 0x29 St.ok t []
  | .imageReady _ d t => s.commitForward d t
  | .fwCancel k d t => s.commitCancel k d t
  | .netMka m => s.commitMka m
  | .instReset i => s.commitReset i
  | .migFreeze i d t => s.commitFreeze i d t
  | .migThaw i d t => s.commitThaw i d t
  | .migImport i x d t => s.commitImport i x d t
  | .instCreate i x d t => s.commitInst i x d t
  | .shareSet i x d t => s.commitShare i x d t
  | .dirtySet i n d t => s.commitDirty i n d t
  | .dirtySwap i d t => s.commitSwap i d t
  | .netEndpoint e => s.commitEndpoint e
  | .jrnlSet b j en d t =>
    if s.quarry.written ≠ [] ∧ (b ≠ s.quarry.ring.1 ∨ j ≠ s.quarry.ring.2.1) then s.replyDone d 0xA0 St.descInvalid t []
    else ({ s with quarry := { s.quarry with ring := (b, j, en) } }).replyDone d 0xA0 St.ok t []
  | .fenceHold e h d t => s.commitHold e h d t
  | .tamperCfg cfg d t => ({ s with life := { s.life with cfg := cfg } }).replyDone d 0xDC St.ok t []
  | .debugRights r f d t => (s.setRights r f).replyDone d 0xD9 St.ok t []

/-- One change of an order commits, or stays staged while it may not. -/
def State.commitOne (s : State) (c : Change) : State :=
  if s.mayCommit c then s.applyChange c else { s with staged := s.staged ++ [c] }

/-- The staged changes of one order, in the order of their staging numbers: the place in the list is the number, and the home unit gives no two changes one number (R33, R34; log 127). -/
def State.commitAt (s : State) (order : Nat) : State :=
  let now := s.staged.filter (fun c => changeOrder c == order)
  now.foldl State.commitOne { s with staged := s.staged.filter (fun c => changeOrder c != order) }

/-- The squash of an ERASE that may commit now; it comes before that of every REVOKE of the same commit (R34). -/
def State.squashErase (s : State) (c : Change) : State :=
  match c with
  | .keyMode i n 4 _ _ =>
    if s.mayCommit c && (s.node i n).any (fun x => decide (x.state.rank < NodeState.rank .erased)) then s.endHolders i n else s
  | _ => s

/-- Checkpoints refused twice: the jobs whose finish records they hold end with TWIN_MISMATCH at cycle 1 (R384). -/
def State.dropRefused (s : State) : State :=
  let bad := (s.twin.sent.filter (fun c => decide (2 ≤ c.refusals))).map (·.frame)
  let s1 := s.squashAll (fun (j : Job) => j.finishCkpt.any bad.contains) St.twinMismatch (fun _ => 0) false
  { s1 with twin := { s1.twin with sent := s1.twin.sent.filter (fun c => !bad.contains c.frame) } }

/-- Everything that commits in this frame, in the order of R33. -/
def State.commitAll (s : State) : State :=
  let s1 := ((s.sweepCut.dropRefused.returnHome.commitAt 1).commitPassRegs.swapIfAsked).commitSwitch
  let s2 := (s1.staged.foldl State.squashErase s1.commitProt).commitAt 4
  let s3 := { s2 with passes := { s2.passes with a := s2.passes.a.commitSas, b := s2.passes.b.commitSas } }
  let s4 := ((s3.commitAt 5).commitAt 6).commitGates
  (s4.commitControls.clearRights).commitAt 8

/-- The commit records of a frame: a change each, with its place in the order of staging as its number (Table 10-3). -/
def commitRecords (before after : State) : List Bytes :=
  (before.staged.zipIdx.filter (fun c => !after.staged.contains c.1)).map (fun c => Config.commitRecord c.2 (.inl c.1)) ++
  (before.prot.log.take (before.prot.log.length - after.prot.log.length)).zipIdx.map (fun c => Config.commitRecord c.2 (.inr c.1))

/-- The commit of a frame: what stood staged at cycle 0 commits, what was staged since waits for the next frame; the changes committed are recorded for the checkpoint (R31, R380). -/
def State.commitFrame (s : State) : State :=
  let t := s.withCut.commitAll
  ({ t with twin := { t.twin with commits := commitRecords s.withCut t } }).giveLate s

/-- STAGED_COMMIT (R31). -/
def execStagedCommit (s : State) : Host.Outcome State Fault Refusal :=
  ok (s.workPhase 0 1 State.commitFrame)

/-! ## Reservation blocks (Table 07-9, R79, R228, R264, R265) -/

/-- A node with its requested block: uses, 16 leaves, or invocations, which follow on those left where they join (R228, R264, R265). -/
def Node.takeBlock (n : Node) (use_ : Bool) (b : Nat) : Node :=
  let r := n.blockRange b
  if use_ then { n with askedUse := none, useBlk := n.useBlk + b }
  else if n.ktype = 0x81 then { n with asked := none, leaf := r }
  else { n with asked := none, invCur := some (match n.invCur with | some (a, e) => if e = r.1 then (a, r.2) else r | none => r) }

/-- A job takes the use it waits for, asks again, or finds the key exhausted (R264). -/
def State.serveUse (s : State) (inst idx slot : Nat) : State :=
  match s.job slot, s.node inst idx with
  | some j, some n =>
    if j.finished || !j.usesWanted.contains idx then s
    else if n.hasUse then (s.takeUse inst idx).modJob slot (fun (x : Job) => { x with usesWanted := x.usesWanted.erase idx })
    else if n.useCnt = 0 ∧ n.askedUse.isNone then s.endJob slot St.keyUseExhausted (if hNode j.keyZero = idx then 0 else 1)
    else s.askUses inst idx
  | _, _ => s

/-- A job takes the invocations it waits for, as far as the block goes (R79). -/
def State.serveInvs (s : State) (inst idx slot : Nat) : State :=
  match s.job slot, s.node inst idx with
  | some j, some n =>
    (match j.invsWanted.find? (fun w => hNode w.1 == idx) with
     | none => s
     | some (h, k) =>
       if j.finished then s
       else
         let r := n.takeInvs k
         let left := k - r.1.length
         let s1 := (s.modNode inst idx (fun _ => r.2)).modJob slot (fun (x : Job) =>
           { x with
             invs := x.invs ++ [(h, r.1)]
             invsWanted := (x.invsWanted.filter (fun w => hNode w.1 != idx)) ++ (if 0 < left then [(h, left)] else []) })
         if r.2.invLeft < 4096 then s1.askInvs inst idx else s1)
  | _, _ => s

/-- A job that waits for nothing more becomes RUNNABLE. -/
def Job.served (j : Job) : Job :=
  if j.st = .waiting .reservation ∧ j.usesWanted = [] ∧ j.invsWanted = [] then { j with st := .runnable } else j

/-- Waiting jobs of an instance take what they wait for, in admission order. -/
def State.serveWaiting (s : State) (inst idx : Nat) : State :=
  let js := s.jobs.filter (fun (j : Job) => j.inst == inst && j.st == JobState.waiting .reservation)
  let s1 := js.foldl (fun (t : State) (j : Job) => (t.serveUse inst idx j.slot).serveInvs inst idx j.slot) s
  { s1 with jobs := s1.jobs.map Job.served }

/-- The entry of a requested block stands in the log, and the partner has it (R265, R281, R375). -/
def State.blockSafe (s : State) (inst idx : Nat) (uses : Bool) : Bool :=
  let mine (r : ResEntry) : Bool := r.inst == inst && r.node == idx && r.uses == uses
  !s.twin.resOut.any mine && !(s.quarry.resLog.drop logSize).any mine

/-- Commit one block requested two frames ago or earlier: the record is journalled, the jobs in WAITING take from it (Table 07-9). -/
def State.commitBlock (s : State) (inst idx : Nat) (uses : Bool) (asked : Option (Nat × Nat)) : State :=
  match asked with
  | none => s
  | some (f, b) =>
    if s.frame.num < f + 2 ∨ s.blockSafe inst idx uses = false then s
    else ((s.modNode inst idx (fun n => n.takeBlock uses b)).journalRec inst idx).serveWaiting inst idx

/-- The blocks of a node that are due are committed, the use block first; after cycle 31 no block is (Table 07-9). -/
def State.commitBlocks (s : State) (inst idx : Nat) : State :=
  match s.node inst idx with
  | none => s
  | some n =>
    if !s.works || decide (32 ≤ s.frame.cycle) then s
    else (s.commitBlock inst idx true n.askedUse).commitBlock inst idx false n.asked

/-- RESERVATION_COMMIT (R265). -/
def execReservationCommit (inst node : Nat) (s : State) : Host.Outcome State Fault Refusal :=
  ok (s.commitBlocks inst node)

end Sys2Proof.Machine
end

