-- ==== Sys2Proof/Machine/Control.lean ====
section
/-! DEFINITION. Branches and jumps: majors 0x20 to 0x27 (R119). -/

namespace Sys2Proof.Machine

/-- A jump: a target that breaks R97 raises cause 0x04, one whose bits [1:0] are not zero cause 0x03 (R97, R119). -/
def jumpTo (c : Ctx) (target : Word) : LaneRes :=
  if !(ptrOk target) then .trap { cause := 0x04, kind := some 2, faddr := some target }
  else if target.toNat % 4 ≠ 0 then .trap { cause := 0x03, kind := some 2, faddr := some target } else .jump c target

/-- A conditional branch; a misprediction of the static rule is counted: backward predicted taken, forward not taken (R119, R461). -/
def branch (l : LaneId) (a b : GReg) (off : BitVec 16) (p : Word → Word → Bool) (s : State) : State :=
  laneStep l false [] (fun s _ c =>
    let taken := p (c.rg a) (c.rg b)
    let s1 := if taken == off.msb then s else s.countLane l 0x0B 1 c.pc
    (s1, if taken then jumpTo c (c.pc + branchOff off) else .ok c)) s

/-- JEQ (R119). -/
def execJeq (l : LaneId) (a b : GReg) (off : BitVec 16) (s : State) : Host.Outcome State Fault Refusal :=
  ok (branch l a b off (fun x y => x == y) s)

/-- JNE (R119). -/
def execJne (l : LaneId) (a b : GReg) (off : BitVec 16) (s : State) : Host.Outcome State Fault Refusal :=
  ok (branch l a b off (fun x y => x != y) s)

/-- JLT (R119). -/
def execJlt (l : LaneId) (a b : GReg) (off : BitVec 16) (s : State) : Host.Outcome State Fault Refusal :=
  ok (branch l a b off (fun x y => x.slt y) s)

/-- JGE (R119). -/
def execJge (l : LaneId) (a b : GReg) (off : BitVec 16) (s : State) : Host.Outcome State Fault Refusal :=
  ok (branch l a b off (fun x y => !(x.slt y)) s)

/-- JLO (R119). -/
def execJlo (l : LaneId) (a b : GReg) (off : BitVec 16) (s : State) : Host.Outcome State Fault Refusal :=
  ok (branch l a b off (fun x y => x.ult y) s)

/-- JHS (R119). -/
def execJhs (l : LaneId) (a b : GReg) (off : BitVec 16) (s : State) : Host.Outcome State Fault Refusal :=
  ok (branch l a b off (fun x y => !(x.ult y)) s)

/-- CALL (R119). -/
def execCall (l : LaneId) (d : GReg) (off : BitVec 21) (s : State) : Host.Outcome State Fault Refusal :=
  ok (bankStep l false [] (fun c => jumpTo (c.wg d (c.pc + 4)) (c.pc + branchOff off)) s)

/-- The target of CALLR: bits [59:56] cleared (R119). -/
def callTarget (p : Word) : Word := ptrWith p 0

/-- The target of CALLR must meet R97. -/
def callrTo (c : Ctx) (link : Ctx) (target : Word) : LaneRes :=
  if !(ptrOk target) then .trap { cause := 0x04, kind := some 2, faddr := some target }
  else if c.level = .u && ptrK target then .trap { cause := 0x06, kind := some 2, faddr := some target }
  else jumpTo link target

/-- CALLR (R119). -/
def execCallr (l : LaneId) (d a : GReg) (imm : BitVec 16) (s : State) : Host.Outcome State Fault Refusal :=
  ok (bankStep l false [] (fun c => callrTo c (c.wg d (c.pc + 4)) (callTarget (c.rg a + sx16 imm))) s)

end Sys2Proof.Machine
end

