-- ==== Sys2Proof/Machine/Instances.lean ====
section
/-! DEFINITION. Creating, removing, resetting and sharing instances (R299 to R303, R313 to R315). -/

namespace Sys2Proof.Machine

/-- INST_CREATE (R299). -/
def execInstCreate (rq : Req) (inst : Nat) (port : Nat) (share : Share) (s : State) : Host.Outcome State Fault Refusal :=
  ok (s.request rq 0x80 false (fun t =>
    if !t.isOwned || !shareGood share || !t.idFree inst || decide (1 < port) then t.answer rq 0x80 St.descInvalid
    else if !t.sharesFit (tset t.shares inst share) then t.answer rq 0x80 St.quota
    else
      let d := t.takeRandom 24
      d.2.stage (.instCreate inst (newInst port share (labelOf inst t.epoch d.1)) (replyTo rq) rq.tag)))

/-- INST_REMOVE (R300). -/
def execInstRemove (rq : Req) (inst : Nat) (s : State) : Host.Outcome State Fault Refusal :=
  ok (s.request rq 0x81 false (fun t =>
    if inst = 0 ∨ (t.inst inst).isNone then t.answer rq 0x81 St.descInvalid
    else t.startReset inst true false [(replyTo rq, 0x81, rq.tag)]))

/-- INST_RESET (R313). -/
def execInstReset (rq : Req) (inst : Nat) (s : State) : Host.Outcome State Fault Refusal :=
  ok (s.request rq 0x82 false (fun t =>
    match t.inst inst with
    | none => t.answer rq 0x82 St.descInvalid
    | some x =>
      if x.state = .exported then t.answer rq 0x82 St.descInvalid
      else t.startReset inst false false [(replyTo rq, 0x82, rq.tag)]))

/-- RESET_COMPLETE (R313). -/
def execResetComplete (inst : Nat) (s : State) : Host.Outcome State Fault Refusal :=
  ok (match s.inst inst with
      | none => s
      | some x =>
        match x.reset with
        | none => s
        | some r => if r.step < 2 ∨ s.frame.num < r.at_ + 3 then s else s.finishReset inst r)

/-- SHARE_SET (R301). -/
def execShareSet (rq : Req) (inst : Nat) (share : Share) (s : State) : Host.Outcome State Fault Refusal :=
  ok (s.request rq 0x83 false (fun t =>
    match t.inst inst with
    | none => t.answer rq 0x83 St.descInvalid
    | some x =>
      if inst = 0 ∨ 1023 < inst ∨ !shareGood share ∨ x.state = .exported ∨ share.personality ≠ x.share.personality ∨ share.vectors ≠ x.share.vectors ∨
          share.qpairs ≠ x.share.qpairs then t.answer rq 0x83 St.descInvalid
      else if !t.sharesFit (tset t.shares inst share) then t.answer rq 0x83 St.quota
      else t.stage (.shareSet inst share (replyTo rq) rq.tag)))

/-- SHRINK_COMPLETE (R302). -/
def execShrinkComplete (inst : Nat) (s : State) : Host.Outcome State Fault Refusal :=
  ok (match s.inst inst with
      | none => s
      | some x =>
        match x.shrink with
        | none => s
        | some (d, tag) =>
          if !s.withinQuota inst x then s
          else ((s.modInst inst (fun x => { x with shrink := none })).reply d 0x83 St.ok tag []).shareNotice inst)

end Sys2Proof.Machine
end

