-- ==== Sys2Proof/Machine/LaneMem.lean ====
section
/-! DEFINITION. Loads, stores, atomics and colour tags: majors 0x10 to 0x1F (R117, R118, R103 to R107). -/

namespace Sys2Proof.Machine

/-- Continue at a place, or give the trap or wait an access met. -/
def atLoc (r : State × AccRes) (f : State → Loc → State × LaneRes) : State × LaneRes :=
  match r.2 with
  | .trap t => (r.1, .trap t)
  | .wait => (r.1, .wait)
  | .at_ loc => f r.1 loc

/-- A window load is counted (Table 12-4). -/
def State.countLoad (s : State) (l : LaneId) (c : Ctx) (loc : Loc) : State :=
  match loc with
  | .window _ => s.countLane l 0x04 1 c.pc
  | .phys _ => s

/-- A load of n bytes at gA + imm into a register (R117). -/
def load (l : LaneId) (uses : List VReg) (a : GReg) (imm : BitVec 16) (n : Nat) (put : Ctx → Bytes → Ctx) (s : State) : State :=
  laneStep l false uses (fun s j c =>
    atLoc (s.laneAccess l j c .read false true (c.rg a + sx16 imm) n)
      (fun s loc => (s.countLoad l c loc, .ok (put c (s.readLoc c loc n))))) s

/-- A store of a register's bytes at gA + imm (R117). -/
def store (l : LaneId) (uses : List VReg) (a : GReg) (imm : BitVec 16) (n : Nat) (get : Ctx → Bytes) (s : State) : State :=
  laneStep l false uses (fun s j c =>
    atLoc (s.laneAccess l j c .write false true (c.rg a + sx16 imm) n)
      (fun s loc =>
        let r := s.writeLoc c loc (get c)
        (r.1, .ok r.2))) s

/-- Zero-extend loaded bytes. -/
def zext (bs : Bytes) : Word := BitVec.ofNat 64 (leNat bs)

/-- Sign-extend loaded bytes. -/
def sext (bs : Bytes) : Word := (BitVec.ofNat (8 * bs.length) (leNat bs)).signExtend 64

/-- LB (R117). -/
def execLb (l : LaneId) (d a : GReg) (imm : BitVec 16) (s : State) : Host.Outcome State Fault Refusal :=
  ok (load l [] a imm 1 (fun c bs => c.wg d (zext bs)) s)

/-- LH (R117). -/
def execLh (l : LaneId) (d a : GReg) (imm : BitVec 16) (s : State) : Host.Outcome State Fault Refusal :=
  ok (load l [] a imm 2 (fun c bs => c.wg d (zext bs)) s)

/-- LW (R117). -/
def execLw (l : LaneId) (d a : GReg) (imm : BitVec 16) (s : State) : Host.Outcome State Fault Refusal :=
  ok (load l [] a imm 4 (fun c bs => c.wg d (zext bs)) s)

/-- LD (R117). -/
def execLd (l : LaneId) (d a : GReg) (imm : BitVec 16) (s : State) : Host.Outcome State Fault Refusal :=
  ok (load l [] a imm 8 (fun c bs => c.wg d (zext bs)) s)

/-- LBS (R117). -/
def execLbs (l : LaneId) (d a : GReg) (imm : BitVec 16) (s : State) : Host.Outcome State Fault Refusal :=
  ok (load l [] a imm 1 (fun c bs => c.wg d (sext bs)) s)

/-- LHS (R117). -/
def execLhs (l : LaneId) (d a : GReg) (imm : BitVec 16) (s : State) : Host.Outcome State Fault Refusal :=
  ok (load l [] a imm 2 (fun c bs => c.wg d (sext bs)) s)

/-- LWS (R117). -/
def execLws (l : LaneId) (d a : GReg) (imm : BitVec 16) (s : State) : Host.Outcome State Fault Refusal :=
  ok (load l [] a imm 4 (fun c bs => c.wg d (sext bs)) s)

/-- SB (R117). -/
def execSb (l : LaneId) (d a : GReg) (imm : BitVec 16) (s : State) : Host.Outcome State Fault Refusal :=
  ok (store l [] a imm 1 (fun c => leBytes 1 (c.rg d).toNat) s)

/-- SH (R117). -/
def execSh (l : LaneId) (d a : GReg) (imm : BitVec 16) (s : State) : Host.Outcome State Fault Refusal :=
  ok (store l [] a imm 2 (fun c => leBytes 2 (c.rg d).toNat) s)

/-- SW (R117). -/
def execSw (l : LaneId) (d a : GReg) (imm : BitVec 16) (s : State) : Host.Outcome State Fault Refusal :=
  ok (store l [] a imm 4 (fun c => leBytes 4 (c.rg d).toNat) s)

/-- SD (R117). -/
def execSd (l : LaneId) (d a : GReg) (imm : BitVec 16) (s : State) : Host.Outcome State Fault Refusal :=
  ok (store l [] a imm 8 (fun c => leBytes 8 (c.rg d).toNat) s)

/-- LV (R117). -/
def execLv (l : LaneId) (d : VReg) (a : GReg) (imm : BitVec 16) (s : State) : Host.Outcome State Fault Refusal :=
  ok (load l [d] a imm 16 (fun c bs => c.wv d (blkOf bs)) s)

/-- SV (R117). -/
def execSv (l : LaneId) (d : VReg) (a : GReg) (imm : BitVec 16) (s : State) : Host.Outcome State Fault Refusal :=
  ok (store l [d] a imm 16 (fun c => blkBytes (c.rv d)) s)

/-- An atomic at (gA): gD receives the old value, memory what f gives of old, gB and gD (R118). -/
def atomic (l : LaneId) (d b a : GReg) (f : Word → Word → Word → Word) (s : State) : State :=
  laneStep l false [] (fun s j c =>
    atLoc (s.laneAccess l j c .atomic false true (c.rg a) 8)
      (fun s loc =>
        let t := zext (s.readLoc c loc 8)
        let r := s.writeLoc c loc (leBytes 8 (f t (c.rg b) (c.rg d)).toNat)
        (r.1, .ok (r.2.wg d t)))) s

/-- ATM_ADD (R118). -/
def execAtmAdd (l : LaneId) (d b a : GReg) (s : State) : Host.Outcome State Fault Refusal :=
  ok (atomic l d b a (fun t x _ => t + x) s)

/-- ATM_SWAP (R118). -/
def execAtmSwap (l : LaneId) (d b a : GReg) (s : State) : Host.Outcome State Fault Refusal :=
  ok (atomic l d b a (fun _ x _ => x) s)

/-- ATM_AND (R118). -/
def execAtmAnd (l : LaneId) (d b a : GReg) (s : State) : Host.Outcome State Fault Refusal :=
  ok (atomic l d b a (fun t x _ => t &&& x) s)

/-- ATM_OR (R118). -/
def execAtmOr (l : LaneId) (d b a : GReg) (s : State) : Host.Outcome State Fault Refusal :=
  ok (atomic l d b a (fun t x _ => t ||| x) s)

/-- ATM_XOR (R118). -/
def execAtmXor (l : LaneId) (d b a : GReg) (s : State) : Host.Outcome State Fault Refusal :=
  ok (atomic l d b a (fun t x _ => t ^^^ x) s)

/-- ATM_CMPX (R118). -/
def execAtmCmpx (l : LaneId) (d b a : GReg) (s : State) : Host.Outcome State Fault Refusal :=
  ok (atomic l d b a (fun t x y => if t = y then x else t) s)

/-- A pointer with address bits [5:0] ignored (R118); a refused TAGR or TAGW reports this pointer in FADDR, with those bits 0 (DESIGN CHOICE, log 131). -/
def granulePtr (p : Word) : Word := p &&& ~~~(0x3F : Word)

/-- The colour of the granule at a place. -/
def State.colourAt (s : State) (c : Ctx) (loc : Loc) : BitVec 4 :=
  match loc with
  | .window off => c.colourAt off
  | .phys a => s.granule a

/-- The tag block of a page with one granule recoloured. -/
def recoloured (block : List (BitVec 4)) (i : Nat) (x : BitVec 4) : List (BitVec 4) :=
  ((block ++ List.replicate 64 0).take 64).set i x

/-- Recolour the granule at a place; a page whose colours are not in the tag table keeps DEFCOLOUR (R118, R338; log 20). -/
def State.recolour (s : State) (c : Ctx) (loc : Loc) (x : BitVec 4) : State × Ctx :=
  match loc with
  | .window off => (s, if h : off / 64 < 256 then { c with colours := c.colours.set (off / 64) x h } else c)
  | .phys a =>
    match localOf a with
    | some (l, off) => (s.modLane l (fun y => y.retag off x), c)
    | none =>
    if (s.owner (a / 4096)).tagged then
      let block := (tget s.prot.tags (a / 4096)).getD []
      ({ s with prot := { s.prot with tags := tset s.prot.tags (a / 4096) (recoloured block (a % 4096 / 64) x) } }, c)
    else (s, c)

/-- TAGR (R118). -/
def execTagr (l : LaneId) (d a : GReg) (s : State) : Host.Outcome State Fault Refusal :=
  ok (laneStep l false [] (fun s j c =>
    atLoc (s.laneAccess l j c .read true false (granulePtr (c.rg a)) 64)
      (fun s loc => (s, .ok (c.wg d ((s.colourAt c loc).setWidth 64))))) s)

/-- TAGW (R118). -/
def execTagw (l : LaneId) (b a : GReg) (s : State) : Host.Outcome State Fault Refusal :=
  ok (laneStep l false [] (fun s j c =>
    atLoc (s.laneAccess l j c .write true true (granulePtr (c.rg a)) 64)
      (fun s loc =>
        let x : BitVec 4 := (c.rg b).setWidth 4
        if c.level = .u && !(c.cmask.getLsbD x.toNat) then
          let r := s.windowRefuse l j c .write true (granulePtr (c.rg a)) (ptrVa (granulePtr (c.rg a)) - winBase) 64
            (some (ptrColour (c.rg a), s.colourAt c loc))
          atLoc r (fun s _ => (s, .wait))
        else
          let r := s.recolour c loc x
          (r.1, .ok r.2))) s)

/-- PCSET (R118). -/
def execPcset (l : LaneId) (d a : GReg) (c : BitVec 4) (s : State) : Host.Outcome State Fault Refusal :=
  ok (gStep l d (fun x => ptrWith (x.rg a) c) s)

/-- PCGET (R118). -/
def execPcget (l : LaneId) (d a : GReg) (s : State) : Host.Outcome State Fault Refusal :=
  ok (gStep l d (fun x => (ptrColour (x.rg a)).setWidth 64) s)

end Sys2Proof.Machine
end

