-- ==== Sys2Proof/Machine/Nernaosh.lean ====
section
/-! DEFINITION. The Nernaosh transport: datagrams received, retransmission, idle sessions (R488 to R494). -/

namespace Sys2Proof.Machine

/-- The unit receives datagrams: its frames run, and it is not silent. -/
def State.hearsNet (s : State) : Bool := s.works && s.passes.chosen

/-- A datagram's fixed fields are as the spec has them; one whose reserved bits are set, or that is too long, is dropped (R8, R488). -/
def netFormed (d : Datagram) : Bool := d.version == 1 && !d.rsv && decide (d.payload.length ≤ 8192)

/-! ## OPEN (R489) -/

/-- The key check of an OPEN: the checks of ranks 4 to 7, its type and usage, then the quota and the MSS. -/
def State.openRefused (s : State) (inst : Nat) (key : Handle) (mss : Nat) : Option (BitVec 7) :=
  match s.checkHandle inst key with
  | some st => some st
  | none =>
    if !(s.keyNode [] key).any (fun n => n.ktype == 0x2B && n.may uMacGen && n.may uMacVer) then some St.keyAttrDenied
    else if (s.inst inst).elim true (fun x => decide (x.share.sessions ≤ x.sessions)) then some St.quota
    else if decide (mss < 1024) || decide (8192 < mss) || mss % 16 != 0 then some St.descInvalid
    else none

/-- The lowest session ID from a drawn number on that is not zero and not in use. -/
def pickSession (used : List Nat) : Nat → Nat → Nat
  | 0, n => n
  | k + 1, n => if n = 0 ∨ used.contains n then pickSession used k ((n + 1) % 2 ^ 32) else n

/-- REJECT with a status, tagged as an OPEN is. -/
def State.reject (s : State) (inst : Nat) (peer : NetAddr) (k : Bytes) (st : BitVec 7) : State :=
  let p := leBytes 1 st.toNat ++ zeros 7
  let h := netHeader 3 false false inst 0 0 0 0 0 8 netWindow
  s.transmit (fun _ => .nernaosh inst peer (h ++ p ++ netTag k h p "NERNAOSH O"))

/-- ACCEPT: the session is open. -/
def State.acceptOpen (s : State) (d : Datagram) (key : Handle) (k : Bytes) (np : BitVec 128) (mss : Nat) : State :=
  let (r, s1) := s.take 32
  let (nu, s2) := s1.take 128
  let used := (s.net.sessions.filter (fun x => x.inst == d.inst)).map (fun x => x.id.toNat)
  let id := BitVec.ofNat 32 (pickSession used (used.length + 1) r.toNat)
  let ks := kmac256 k (leBytes 16 np.toNat ++ leBytes 16 nu.toNat ++ beBytes 4 id.toNat) 32 (ascii "NERNAOSH S")
  let x : Session := { id := id, inst := d.inst, peer := d.peer, node := hNode key, ks := BitVec.ofNat 256 (leNat ks), mss := mss, limit := d.ack + d.window, lastSeen := s.frame.num }
  let s3 := ({ s2 with net := { s2.net with sessions := s2.net.sessions ++ [x] } }).modInst d.inst (fun (y : Inst) => { y with sessions := y.sessions + 1 })
  s3.sendPlain x 2 0 (leBytes 16 nu.toNat ++ leBytes 2 mss ++ zeros 6)

/-- The key handle an OPEN names (Table 13-9). -/
def openKey (d : Datagram) : Handle := BitVec.ofNat 64 (leNat (d.payload.take 8))

/-- The peer's nonce NP. -/
def openNonce (d : Datagram) : BitVec 128 := BitVec.ofNat 128 (leNat ((d.payload.drop 8).take 16))

/-- The MSS an OPEN offers. -/
def openMss (d : Datagram) : Nat := leNat ((d.payload.drop 24).take 2)

/-- The payload of an OPEN: 32 bytes, the last 6 zero. -/
def openFormed (d : Datagram) : Bool := d.payload.length == 32 && d.payload.drop 26 == zeros 6

/-- NERNAOSH_OPEN (R489). -/
def execNernaoshOpen (d : Datagram) (endpoint : BitVec 128) (s : State) : Host.Outcome State Fault Refusal :=
  ok (if !s.hearsNet then s
      else
        let here := s.net.endpoints.any (fun e => e.inst == d.inst && e.addr == endpoint)
        let key := openKey d
        let node := if hInst key = d.inst then s.keyNode [] key else none
        let k := s.keyValue [] key
        if !netFormed d || !openFormed d || d.session != 0 || !here || node.isNone || netTag k (headerOf 1 d) d.payload "NERNAOSH O" != tagBytes d.tag then s.dropFrame
        else
          let m := min (openMss d) 8192
          match s.openRefused d.inst key m with
          | some st => s.reject d.inst d.peer k st
          | none => s.acceptOpen d key k (openNonce d) m)

/-! ## Datagrams of a session (R490, R491) -/

/-- Drop a datagram that is badly formed, of no open session, or whose tag fails; otherwise it counts as valid and its ACK is taken. -/
def State.ofSession (s : State) (dtype : Nat) (d : Datagram) (f : State → Session → State) : State :=
  if !s.hearsNet then s
  else match s.session d.inst d.session with
    | none => s.dropFrame
    | some x =>
      if !netFormed d || netTag (leBytes 32 x.ks.toNat) (headerOf dtype d) d.payload "NERNAOSH D" != tagBytes d.tag then s.dropFrame
      else
        let t := s.takeAck d.inst d.session d.peer d.ack d.window
        match t.session d.inst d.session with
        | some y => f t y
        | none => t

/-- A request fragment would find no place: a ninth request, or the pool full (R491). -/
def State.noPlace (s : State) (x : Session) (d : Datagram) : Bool :=
  (!x.msgs.any (fun m => m.msg == d.msg) && decide (8 ≤ x.msgs.length)) || decide (2 ^ 30 < s.poolUsed + d.payload.length)

/-- Put fragments in place by OFFSET. -/
def assemble (parts : List (Nat × Bytes)) : Bytes :=
  let n := (parts.map (fun p => p.1 + p.2.length)).foldl max 0
  parts.foldl (fun (b : Bytes) p => b.take p.1 ++ p.2 ++ b.drop (p.1 + p.2.length)) (zeros n)

/-- A fragment enters its message; the last one makes it whole. -/
def NetMsg.add (m : NetMsg) (d : Datagram) (frame : Nat) : NetMsg :=
  let parts := m.parts ++ [(d.offset, d.payload)]
  if d.last then { m with parts := parts, whole := some (assemble parts), arrived := frame } else { m with parts := parts }

/-- Take one data datagram that is next in order: a fragment, or the CLOSE that squashes the session's unreleased jobs with SQUASHED (R491, R492). -/
def State.takeData (s : State) (close : Bool) (x : Session) (d : Datagram) : State :=
  let s1 := s.modSession x.inst x.id (fun (y : Session) =>
    { y with
      rxNext := y.rxNext + 1
      arrivals := (y.arrivals.filter (fun a => a.1 != s.frame.num)) ++ [(s.frame.num, y.rxNext)] })
  if close then
    (s1.squashAll (fun j => j.inst == x.inst && j.net.any (fun e => e.1 == x.id)) St.squashed (fun _ => 0) false).endSession x.inst x.id
  else
    s1.modSession x.inst x.id (fun (y : Session) =>
      { y with msgs := if y.msgs.any (fun m => m.msg == d.msg) then y.msgs.map (fun (m : NetMsg) => if m.msg = d.msg then m.add d s.frame.num else m)
                       else y.msgs ++ [({ msg := d.msg, parts := [], arrived := s.frame.num } : NetMsg).add d s.frame.num] })

/-- Take the data datagrams held out of order that are now next; those held are REQUEST fragments. -/
def State.takeHeld (s : State) (inst : Nat) (id : BitVec 32) : Nat → State
  | 0 => s
  | n + 1 =>
    match s.session inst id with
    | none => s
    | some x =>
      match x.held.find? (fun d => d.seq == x.rxNext) with
      | none => s
      | some d =>
        if s.noPlace x d then s.dropFrame
        else
          let s1 := s.modSession inst id (fun (y : Session) => { y with held := y.held.filter (fun e => e.seq != d.seq) })
          (s1.takeData false x d).takeHeld inst id n

/-- A data datagram: beyond the window it is dropped, acknowledged before it is answered by an ACK, out of order it is held (R490). -/
def State.data (s : State) (dtype : Nat) (d : Datagram) : State :=
  s.ofSession dtype d (fun t x =>
    if x.acked + netWindow ≤ d.seq then t.dropFrame
    else if d.seq ≤ x.acked then t.sendAck x.inst x.id
    else if d.seq < x.rxNext then t
    else if dtype = 4 ∧ t.noPlace x d then t.dropFrame
    else if d.seq = x.rxNext then (t.takeData (dtype == 7) x d).takeHeld x.inst x.id 64
    else if dtype = 7 ∨ x.held.any (fun e => e.seq == d.seq) then t
    else t.modSession x.inst x.id (fun (y : Session) => { y with held := y.held ++ [d] }))

/-- NERNAOSH_REQUEST (R491). -/
def execNernaoshRequest (d : Datagram) (s : State) : Host.Outcome State Fault Refusal :=
  ok (s.data 4 d)

/-- NERNAOSH_ACK (R490). -/
def execNernaoshAck (d : Datagram) (s : State) : Host.Outcome State Fault Refusal :=
  ok (s.ofSession 6 d (fun t _ => t))

/-- NERNAOSH_CLOSE (R494). -/
def execNernaoshClose (d : Datagram) (s : State) : Host.Outcome State Fault Refusal :=
  ok (s.data 7 d)

/-- NERNAOSH_PING (R488). -/
def execNernaoshPing (d : Datagram) (s : State) : Host.Outcome State Fault Refusal :=
  ok (s.ofSession 8 d (fun t x => t.sendAck x.inst x.id))

/-! ## Retransmission and idle sessions (R493, R494) -/

/-- A datagram whose next sending is due: 100 frames after the first, then at double the interval before. -/
def Sent.due (u : Sent) (frame : Nat) : Bool := decide (u.sentAt + 100 * 2 ^ u.tries ≤ frame)

/-- NERNAOSH_RETRANSMIT (R493). -/
def execNernaoshRetransmit (inst : Nat) (session : BitVec 32) (s : State) : Host.Outcome State Fault Refusal :=
  ok (if !s.hearsNet then s
      else match s.session inst session with
        | none => s
        | some x =>
          let go := x.unacked.filter (fun u => u.due s.frame.num)
          let s1 := go.foldl (fun (t : State) u => t.transmit (fun _ => .nernaosh inst x.peer u.bytes)) s
          if go.any (fun u => decide (7 ≤ u.tries)) then s1.endSession inst session
          else s1.modSession inst session (fun (y : Session) =>
            { y with unacked := y.unacked.map (fun (u : Sent) => if u.due s.frame.num then { u with sentAt := s.frame.num, tries := u.tries + 1 } else u) }))

/-- SESSION_IDLE_TIMEOUT (R494). -/
def execSessionIdleTimeout (inst : Nat) (session : BitVec 32) (s : State) : Host.Outcome State Fault Refusal :=
  ok (if !s.hearsNet then s
      else match s.session inst session with
        | none => s
        | some x =>
          if s.frame.num < x.lastSeen + 6000000 ∨ s.jobs.any (fun j => j.inst == inst && j.net.any (fun e => e.1 == session)) then s
          else (s.sendPlain x 7 x.txSeq (zeros 8)).endSession inst session)

end Sys2Proof.Machine
end

