-- ==== Sys2Proof/Machine/Network.lean ====
section
/-! DEFINITION. Ethernet on the passes: endpoints, MACsec, MKA, neighbour discovery (R205 to R207, R482 to R487). -/

namespace Sys2Proof.Machine

/-! ## Configuration (R486) -/

/-- A global unicast address, 2000::/3. -/
def globalUnicast (a : BitVec 128) : Bool := (a >>> 125).toNat == 1

/-- NET_ENDPOINT (R486). -/
def execNetEndpoint (rq : Req) (inst : Nat) (en vlanEn : Bool) (vlan : BitVec 12) (addr : BitVec 128) (s : State) : Host.Outcome State Fault Refusal :=
  ok (s.request rq 0xB8 false (fun t =>
    if !t.takesCommands inst || (en && (!globalUnicast addr || t.net.endpoints.any (fun e => e.inst != inst && e.addr == addr))) then t.answer rq 0xB8 St.descInvalid
    else t.stage (.netEndpoint
      { inst := inst, ep := if en then some { inst := inst, vlan := if vlanEn then some vlan.toNat else none, addr := addr } else none
        dest := replyTo rq, tag := rq.tag })))

/-- NET_MKA (R486). -/
def execNetMka (rq : Req) (cak : Handle) (ckn : Bytes) (priority : Nat) (passA passB xpn : Bool) (s : State) : Host.Outcome State Fault Refusal :=
  ok (s.request rq 0xB9 true (fun t =>
    if ckn.length = 0 ∨ 32 < ckn.length then t.answer rq 0xB9 St.descInvalid
    else match t.checkHandle 0 cak with
      | some st => t.answer rq 0xB9 st
      | none =>
        if !(t.keyNode [] cak).any (fun n => n.ktype == 0x12 && n.may uMacGen && n.may uMacVer && n.may uWrap) then t.answer rq 0xB9 St.keyAttrDenied
        else t.stage (.netMka { cak := cak, ckn := ckn, priority := priority, passA := passA, passB := passB, xpn := xpn, dest := replyTo rq, tag := rq.tag })))

/-! ## MACsec on receive (R205, R206, R482, R484) -/

/-- A pass hears frames: its link is up, and it is the active pass or the old one of a switch that still receives (R397, R399). -/
def State.hearsPass (s : State) (b : Bool) : Bool :=
  s.works && (s.pass b).up && s.passes.chosen && (b == s.passes.activeB || s.passes.oldUntil.isSome)

/-- A frame dropped on receive. -/
def State.dropRx (s : State) (b : Bool) : State := (s.modPass b (fun p => { p with rxDrop := p.rxDrop + 1 })).dropFrame

/-- Change a receive SA. -/
def Pass.modRx (p : Pass) (sci an : Nat) (f : RxSa → RxSa) : Pass :=
  { p with rxSa := p.rxSa.map (fun a => if a.sci = sci ∧ a.an.val = an then f a else a) }

/-- A MACsec integrity or replay failure, counted to its SA and to the pass's monitor (R207). -/
def State.macFailure (s : State) (b : Bool) (sci an : Nat) : State :=
  (s.modPass b (fun p => { p.modRx sci an (fun a => { a with fails := a.fails + 1 }) with macFail := p.macFail ++ [s.frame.num] })).dropRx b

/-- The receive SA of a channel and AN. -/
def Pass.rxFor (p : Pass) (sci an : Nat) : Option RxSa := p.rxSa.find? (fun a => a.sci == sci && a.an.val == an)

/-- The lowest PN acceptable on a receive SA. -/
def Pass.rxLow (p : Pass) (sci an : Nat) : Option Nat := (p.rxFor sci an).map (·.low)

/-- The IPv6 packet behind the EtherType, or behind one 802.1Q tag; empty for any other EtherType (Table 13-5). -/
def etherPacket (b : Bytes) : Bytes :=
  if b.take 2 = [0x86, 0xDD] then b.drop 2
  else if b.take 2 = [0x81, 0x00] ∧ (b.drop 4).take 2 = [0x86, 0xDD] then b.drop 6
  else []

/-- The text of a received frame: its header authenticated and its text deciphered under the SA; none where the ICV is wrong (R205, R484). -/
def Pass.openFrame (p : Pass) (a : RxSa) (pn : Nat) (header cipher : Bytes) (icv : BitVec 128) : Option Bytes :=
  Config.gcmInv a.key.sak (macsecIv p.xpn a.key a.sci pn) header cipher icv

/-- An IPv6 packet the unit serves: UDP or ICMPv6 with no extension header (R482, R483). -/
def servedPacket (b : Bytes) : Bool :=
  (b.getD 0 0).toNat / 16 == 6 && decide (40 ≤ b.length) && decide (b.length ≤ 9216) && ((b.getD 6 0).toNat == 17 || (b.getD 6 0).toNat == 58)

/-- ETHERNET_FRAME_RX (R482). -/
def execEthernetFrameRx (passB : Bool) (macsec : Bool) (sci an pn : Nat) (header cipher : Bytes) (icv : BitVec 128) (dst : BitVec 48) (s : State) : Host.Outcome State Fault Refusal :=
  ok (if !s.works || !(s.pass passB).up then s
      else if !s.hearsPass passB || !macsec then s.dropRx passB
      else match (s.pass passB).rxFor sci an with
        | none => s.dropRx passB
        | some a =>
          match (if pn < a.low then none else (s.pass passB).openFrame a pn header cipher icv) with
          | none => s.macFailure passB sci an
          | some payload =>
            let s1 := s.modPass passB (fun (p : Pass) => p.modRx sci an (fun a => { a with low := max a.low (pn + 1 - s.net.replay) }))
            if (dst = (s.pass passB).mac ∨ dst.getLsbD 40) ∧ servedPacket (etherPacket payload) then s1.modPass passB (fun p => { p with rx := p.rx + 1 })
            else s1.dropRx passB)

/-! ## MKA (R485) -/

/-- Stage changes of SAs (R206). -/
def State.stageSas (s : State) (b : Bool) (sas : List SaChange) : State := s.modPass b (fun p => { p with staged := p.staged ++ sas })

/-- Peers live at a frame: heard within the MKA lifetime of 6 s. -/
def livePeers (p : Pass) (frame : Nat) : List (Nat × Nat) := p.peers.filter (fun x => decide (frame < x.2 + 600000))

/-- The SAs a SAK of a peer installs: its channel, and the unit's where it says so; none where the key does not unwrap (R206, R485). -/
def sakChanges (cak ckn : Bytes) (peer : Nat) (m : SakMsg) : List SaChange :=
  match Config.kwInv (Config.mkaKek cak ckn) m.wrapped with
  | none => []
  | some sak =>
    let an := Fin.ofNat 4 m.an
    { key := some { sak := sak, ssci := m.ssci, salt := m.salt }, tx := false, sci := peer, an := an } ::
      (if m.tx then [{ key := some { sak := sak, ssci := m.own, salt := m.salt }, tx := true, sci := 0, an := an }] else [])

/-- Take an MKPDU of a peer: at most 16 are live; a SAK it distributes is installed, on transmit as well where it says so; the lowest acceptable PN it names is taken. -/
def State.takeMkpdu (s : State) (b : Bool) (cak ckn : Bytes) (peer : Nat) (sak : Option SakMsg) (latest : Nat) : State :=
  let p := s.pass b
  let live := (livePeers p s.frame.num).filter (fun x => x.1 != peer)
  if 16 ≤ live.length then s
  else
    let s1 := s.modPass b (fun (p : Pass) =>
      { p with
        peers := live ++ [(peer, s.frame.num)], mkaPeer := true, mkaSeen := s.frame.num
        rxSa := p.rxSa.map (fun (a : RxSa) => if a.sci = peer then { a with low := max a.low latest } else a) })
    match sak with
    | some m => s1.stageSas b (sakChanges cak ckn peer m)
    | none => s1

/-- MKPDU_RX (R485). -/
def execMkpduRx (passB : Bool) (icv : BitVec 128) (ckn : Bytes) (peer : Nat) (sak : Option SakMsg) (latest : Nat) (s : State) : Host.Outcome State Fault Refusal :=
  ok (if !s.works || !(s.pass passB).up then s
      else match (s.pass passB).cak with
        | some (cak, name) => if name != ckn || icv != Config.mkaIcv cak ckn peer sak latest then s.dropRx passB else s.takeMkpdu passB cak ckn peer sak latest
        | none => s.dropRx passB)

/-- A SAK is wanted: none is installed on transmit, or its PN has passed the mark of R207. -/
def Pass.wantsSak (p : Pass) : Bool :=
  match p.txAn with
  | none => true
  | some an => (match p.txSa[an] with | some a => decide (p.pnMark ≤ a.next) | none => true)

/-- The next AN after the active one. -/
def Pass.nextAn (p : Pass) : Fin 4 := match p.txAn with | some an => an + 1 | none => 0

/-- The SAs of a SAK the unit draws: its own channel and every live peer's, with their SSCIs (R206, R485). -/
def Pass.served (p : Pass) (sak : Bytes) (salt : BitVec 96) (an : Fin 4) (peers : List Nat) : List SaChange :=
  let key (c : Nat) : SaKey := { sak := sak, ssci := Config.ssci (p.sci :: peers) c, salt := salt }
  { key := some (key p.sci), tx := true, sci := 0, an := an } ::
    peers.map (fun c => { key := some (key c), tx := false, sci := c, an := an })

/-- The hello of a pass: where a SAK is wanted and the unit is key server, which the priorities exchanged decide and the model draws, it draws one, distributes it wrapped and installs it (R485; log 9). -/
def State.hello (s : State) (b : Bool) (cak ckn : Bytes) : State :=
  let p := s.pass b
  let live := livePeers p s.frame.num
  let (wins, s1) := if p.wantsSak && live != [] && p.staged == [] then s.take 1 else ((0 : BitVec 1), s)
  let an := p.nextAn
  let serve := wins == 1
  let r := s1.takeBytes 44
  let sak := r.1.take 32
  let s2 := if serve then r.2.stageSas b (p.served sak (BitVec.ofNat 96 (leNat (r.1.drop 32))) an (live.map (·.1))) else s1
  (s2.modPass b (fun p => { p with mkaMn := p.mkaMn + 1 })).emit
    (.ether b 0x888E (Config.mkpdu cak ckn (p.mkaMn + 1) (if serve then some (an.val, Config.kw (Config.mkaKek cak ckn) sak) else none)))

/-- MKA_HELLO (R485). -/
def execMkaHello (passB : Bool) (s : State) : Host.Outcome State Fault Refusal :=
  ok (match (s.pass passB).cak with
      | some (cak, ckn) => if s.works && (s.pass passB).up && s.hollowUp then s.hello passB cak ckn else s
      | none => s)

/-! ## Neighbour discovery and echo (R483) -/

/-- The link-local address formed from a MAC address by modified EUI-64. -/
def linkLocal (mac : BitVec 48) : BitVec 128 :=
  let m := mac.toNat
  let hi := (m / 2 ^ 24) ^^^ 0x020000
  BitVec.ofNat 128 (0xFE80 * 2 ^ 112 + hi * 2 ^ 40 + 0xFFFE * 2 ^ 24 + m % 2 ^ 24)

/-- Addresses of the active pass. -/
def State.holdsAddr (s : State) (a : BitVec 128) : Bool :=
  a == linkLocal (s.pass s.passes.activeB).mac || s.net.endpoints.any (fun e => e.addr == a)

/-- NEIGHBOUR_SOLICITATION (R483). -/
def execNeighbourSolicitation (passB : Bool) (target : BitVec 128) (src : Bytes) (s : State) : Host.Outcome State Fault Refusal :=
  ok (if s.hearsPass passB && s.holdsAddr target then s.transmit (fun b => .ether b 0x86DD (Config.neighbourReply (s.pass b).mac target src)) else s)

/-- ECHO_REQUEST (R483). -/
def execEchoRequest (passB : Bool) (dst : BitVec 128) (payload : Bytes) (s : State) : Host.Outcome State Fault Refusal :=
  ok (if s.hearsPass passB && s.holdsAddr dst then s.transmit (fun b => .ether b 0x86DD (Config.echoReply (s.pass b).mac dst payload)) else s)

end Sys2Proof.Machine
end

