-- ==== Sys2Proof/Machine/PowerUp.lean ====
section
/-! DEFINITION. Reset, supplies, clocks, the battery domain, tamper sensors, the second (R404, R405, R437 to R439, R448, R513 to R531, R536, R537). -/

namespace Sys2Proof.Machine

/-! ## Starting (R405, R519, R529, R530) -/

/-- The known-answer test of start-up: each failing element is fenced and start-up continues (Table 14-9). -/
def State.startTest (s : State) (kat : List Nat) : State :=
  if s.power.run = .running then kat.foldl (fun (t : State) e => if e < 158 ∧ !t.fenced e then t.fenceOut e 1 else t) s else s

/-- The unit starts where nothing holds it: both reset inputs high, POWER_FAIL_N high, the junction in range (R519, R522, R529). -/
def State.startIfFree (s : State) (otp : List (Nat × Nat × Bool)) (kat : List Nat) : State :=
  if s.power.resetN && s.power.pwrGood && s.power.powerFailN && s.power.inRange && !s.power.needsReset then (s.startUp otp kat).startTest kat else s

/-- COLD_RESET_RELEASE (R530). -/
def execColdResetRelease (inRange : Bool) (mem : BitVec 4 × Nat × Nat × Bool) (flash : Option FwImage × Option FwImage) (otp : List (Nat × Nat × Bool)) (kat : List Nat) (s : State) : Host.Outcome State Fault Refusal :=
  ok (if s.power.run ≠ .coldReset then s
      else
        State.startIfFree { s with
          power := { s.power with resetN := true, pwrGood := true, inRange := inRange, vddIo := true, onBattery := false }
          host := { s.host with mem := mem }
          life := { s.life with flash := flash } } otp kat)

/-- RESTART_AFTER_QUIESCENCE (R405). -/
def execRestartAfterQuiescence (otp : List (Nat × Nat × Bool)) (kat : List Nat) (s : State) : Host.Outcome State Fault Refusal :=
  ok (if s.power.run = .quiescent ∨ s.power.run = .coldReset then
        State.startIfFree { s with power := { s.power with powerFailN := true } } otp kat
      else s)

/-! ## Triggers of the power-fail sequence (R404, R513, R518, R520, R522, R528) -/

/-- RESET_N_FALL (R520). -/
def execResetNFall (s : State) : Host.Outcome State Fault Refusal :=
  ok (State.trigger { s with power := { s.power with resetN := false, thermTrip := false, needsReset := false } } 1)

/-- PWR_GOOD_FALL (R520). -/
def execPwrGoodFall (s : State) : Host.Outcome State Fault Refusal :=
  ok (State.trigger { s with power := { s.power with pwrGood := false, needsReset := false } } 1)

/-- POWER_FAIL_N_FALL (R404). -/
def execPowerFailNFall (s : State) : Host.Outcome State Fault Refusal :=
  ok (State.trigger { s with power := { s.power with powerFailN := false } } 1)

/-- Supplies in the order of Table 14-5: 5 is VDD_IO, 6 VDD_NV. VDD_IO holds the latch of THERM_TRIP_N. -/
def State.supplyDown (s : State) (supply : Nat) : State :=
  if supply = 5 then { s with power := { s.power with vddIo := false, thermTrip := false } } else s

/-- SUPPLY_DETECTOR_TRIP (R513). -/
def execSupplyDetectorTrip (supply : Nat) (s : State) : Host.Outcome State Fault Refusal :=
  ok (if supply ≤ 6 then (s.supplyDown supply).trigger 2 else s)

/-- THERMAL_TRIP (R528). -/
def execThermalTrip (sensor : Nat) (tj : Int) (s : State) : Host.Outcome State Fault Refusal :=
  ok (if sensor < 16 ∧ 115 < tj then
        State.trigger { s with power := { s.power with thermTrip := true, needsReset := true, tjMax := max s.power.tjMax tj } } 2
      else s)

/-- POWER_FAIL_SEQUENCE (R404). -/
def execPowerFailSequence (s : State) : Host.Outcome State Fault Refusal :=
  ok (match s.power.run, s.power.fail with
      | .failing, some (p, trigger, cycle) => s.powerFail p trigger cycle
      | _, _ => s)

/-! ## SYS_CLK (R518) -/

/-- SYS_CLK_LOSS (R518). -/
def execSysClkLoss (s : State) : Host.Outcome State Fault Refusal :=
  ok (if s.frame.ticking && !s.power.holdover then
        { s with power := { s.power with holdover := true, holdoverAt := some s.frame.num } }
      else s)

/-- SYS_CLK_RETURN (R518). -/
def execSysClkReturn (s : State) : Host.Outcome State Fault Refusal :=
  ok { s with power := { s.power with holdover := false, holdoverAt := none } }

/-- HOLDOVER_EXPIRY (R518). -/
def execHoldoverExpiry (s : State) : Host.Outcome State Fault Refusal :=
  ok (match s.power.holdoverAt with
      | some f => if s.power.holdover && decide (f + 1000 ≤ s.frame.num) then
          State.trigger { s with power := { s.power with needsReset := true } } 2 else s
      | none => s)

/-! ## Tamper (R437 to R439, Table 11-9) -/

/-- Logic runs on main power: from the release of cold reset until quiescence. -/
def State.powered (s : State) : Bool :=
  match s.power.run with
  | .coldReset => false
  | .quiescent => false
  | _ => true

/-- A sensor is armed (R437). -/
def State.armed (s : State) (code : Nat) : Bool :=
  decide (s.life.otp.lcs ≠ .scrapped) &&
  (if code = 0x06 ∨ code = 0x07 then true
   else if code = 0x08 then s.power.onBattery
   else if 0x10 ≤ code ∧ code ≤ 0x17 then s.life.cfg.inputEn.getLsbD (code - 0x10)
   else if code = 0x18 ∨ code = 0x19 then s.life.cfg.meshEn.getLsbD (code - 0x18)
   else decide (1 ≤ code) && decide (code ≤ 5) && s.powered)

/-- TAMPER_TRIP (R438). -/
def execTamperTrip (code : Nat) (s : State) : Host.Outcome State Fault Refusal :=
  ok (if !s.armed code then s else if s.powered then s.tamperResponse code else s.latchTamper code)

/-! ## The battery domain (R515, R536) -/

/-- VBAT_LOW (R515). -/
def execVbatLow (s : State) : Host.Outcome State Fault Refusal :=
  ok (if !s.powered || s.power.onBattery || s.life.vbatLow then s
      else
        let (mv, s1) := s.take 32
        ({ s1 with life := { s1.life with vbatLow := true } }).raise 0x8012 true (mv.toNat % 2500) 0 0)

/-- BATTERY_SWITCHOVER (R515). -/
def execBatterySwitchover (onBattery : Bool) (s : State) : Host.Outcome State Fault Refusal :=
  ok { s with power := { s.power with onBattery := onBattery } }

/-- BATTERY_DOMAIN_POWER_LOSS (R536). -/
def execBatteryDomainPowerLoss (s : State) : Host.Outcome State Fault Refusal :=
  ok (if s.powered then s
      else { s with life := { s.life with bbram := 0, check := .invalid, latch := none, batSeconds := 0 } })

/-! ## The second (R448, R468, R536) -/

/-- SECONDS_TICK (R448). -/
def execSecondsTick (s : State) : Host.Outcome State Fault Refusal :=
  ok (if !s.frame.ticking then { s with life := { s.life with batSeconds := s.life.batSeconds + 1 } }
      else if s.strata.frameIdx < 100000 then s
      else { s with
        strata := { s.strata with seconds := s.strata.seconds + 1, frameIdx := 0, stored := some (s.strata.seconds + 1, s.frame.num) }
        test := { s.test with march := (List.range 256).map (fun k => (k, min (tnat s.test.march k + 1) 0xFFFF)) }
        life := { s.life with batSeconds := s.life.batSeconds + 1 } })

end Sys2Proof.Machine
end

