-- ==== Sys2Proof/Machine/Latch.lean ====
section
/-! DEFINITION. What a tail latches at cycle 11,800: the read-only register words of the physical function, the status blocks of the instances, the health report (R51, R312, R368, R408, R445, R465, R470, R481, R487, R533). -/

namespace Sys2Proof.Machine

/-- A field of a register word: a value below 2^w at bit n. -/
def bitsAt (n w v : Nat) : Nat := v % 2 ^ w * 2 ^ n

/-- A signed field of w bits at bit n, in two's complement. -/
def signedAt (n w : Nat) (v : Int) : Nat := (BitVec.ofInt w v).toNat * 2 ^ n

/-- Word of a number. -/
def word32 (v : Nat) : Reg32 := BitVec.ofNat 32 v

/-! ## The words -/

/-- FRM_THERM, FRM_ALIGN and FRM_LOAD (Table 01-7). -/
def State.frmWords (s : State) : List (Nat × Reg32) :=
  let f := s.frame
  let alone := f.leader || !s.inPair
  [(0x000014, word32 (signedAt 0 8 f.tj + bitsAt 8 2 f.level + bitsAt 10 6 s.slotCap + bitsAt 16 5 s.pkeCap)),
   (0x00001C, word32 (signedAt 0 16 (if alone then 0 else f.offset) + flag 16 f.leader + flag 17 f.syncMarker +
     flag 18 (alone || (decide (f.offset ≤ 50) && decide (-50 ≤ f.offset))))),
   (0x000020, word32 (bitsAt 0 15 s.jobs.length + bitsAt 16 12 f.admitted))]

/-- FN_PORT_STAT and FN_PORT_ERR of a port (Table 13-4); 64.0 GT/s runs in FLIT mode (Table 13-1). -/
def State.portWords (s : State) (p : Fin 2) : List (Nat × Reg32) :=
  let x := s.host.ports[p]
  [(0x010010 + 4 * p.val, word32 (flag 0 x.up + bitsAt 1 3 x.rate + bitsAt 4 5 x.width + flag 9 (x.up && x.rate == 5) + flag 10 x.bme +
     flag 11 (s.inUse == p) + bitsAt 16 11 (s.boundTo p).length)),
   (0x010018 + 4 * p.val, word32 (min x.errs.1 0xFFFF + bitsAt 16 16 (min x.errs.2 0xFFFF)))]

/-- FN_CUST of a custodian port (Table 13-4). -/
def State.custWord (s : State) (c : Fin 2) : Nat × Reg32 :=
  let x := s.cust.ports[c]
  (0x010030 + 4 * c.val, word32 (flag 0 x.session.isSome + bitsAt 1 5 (x.custodian.getD 0x1F) + bitsAt 16 16 (min x.errs 0xFFFF)))

/-- FN_MEM_STAT and FN_MEM_CE (Table 13-4). -/
def State.memWords (s : State) : List (Nat × Reg32) :=
  let (ok, gb, speed, bad) := s.host.mem
  [(0x010020, word32 (ok.toNat + bitsAt 8 9 gb + bitsAt 17 2 speed + flag 19 bad)), (0x010024, word32 (min s.host.memCe (2 ^ 32 - 1)))]

/-- EVR_STAT to EVR_SECONDS and PMC_STAT, PMC_SMP_TAIL (Table 12-8). -/
def State.evrWords (s : State) : List (Nat × Reg32) :=
  let t := s.strata
  let left := match t.frozen with | some (z, _) => z + 10000 - s.frame.num | none => 0
  [(0x200000, word32 (flag 0 t.frozen.isSome + bitsAt 1 5 t.side.length + flag 6 (decide (1024 ≤ t.sticky.length)) + flag 7 t.checkErr)),
   (0x200008, t.seq), (0x20000C, word32 (min t.lost (2 ^ 32 - 1))), (0x200010, word32 (bitsAt 0 14 left)),
   (0x200014, word32 (bitsAt 0 11 t.sticky.length)), (0x200020, word32 (bitsAt 0 24 t.power)), (0x200024, word32 t.seconds),
   (0x300004, word32 (min s.pmc.smpLost (2 ^ 32 - 1))), (0x304014, s.pmc.smpTail.setWidth 32)]

/-- The TWN_ words (Tables 10-11, 13-7). -/
def State.twnWords (s : State) : List (Nat × Reg32) :=
  let t := s.twin
  [(0x400000, word32 (bitsAt 0 3 (pairCode t.state) + flag 3 t.role0 + flag 4 s.crossChecks + flag 5 t.partnerSync + flag 6 t.heartbeat +
     bitsAt 7 8 (min t.missed 0xFF))),
   (0x400008, word32 t.conf), (0x400010, word32 (bitsAt 0 9 t.kib + bitsAt 16 12 t.admitCap)), (0x400014, word32 (min t.refused (2 ^ 32 - 1))),
   (0x400018, word32 (bitsAt 0 10 t.resync)), (0x40001C, word32 (min t.failovers 0xFFFF + bitsAt 16 16 (min t.gap 0xFFFF))),
   (0x400020, word32 (flag 0 t.up + flag 1 t.keyed + bitsAt 16 16 (min s.net.retries 0xFFFF))), (0x400024, word32 (bitsAt 0 16 s.net.latency))]

/-- The PASS_ words (Tables 10-11, 13-7). -/
def State.passWords (s : State) : List (Nat × Reg32) :=
  let p := s.passes
  [(0x400100, word32 (flag 0 p.activeB + flag 1 p.a.healthy + flag 2 p.b.healthy + flag 3 p.a.test + flag 4 p.b.test + flag 5 p.bothDown)),
   (0x40010C, word32 p.a.clean), (0x400110, word32 p.b.clean), (0x400114, word32 (bitsAt 0 4 p.a.cause + bitsAt 4 4 p.b.cause)),
   (0x400118, word32 (min p.faults 0xFFFF + bitsAt 16 16 (min p.planned 0xFFFF))), (0x400130, word32 (min s.net.drops (2 ^ 32 - 1)))]

/-- HOLLOW_STATE codes (Table 09-18). -/
def hollowCode : HollowState → Nat
  | .running => 0 | .restarting => 1 | .halted => 2

/-- Lanes of the Hollow world, as a mask. -/
def State.hollowLanes (s : State) : Nat := ((List.finRange 64).map (fun l => flag l.val (s.lane l).hollow)).sum

/-- A violation report as PRT_LAST holds it (Table 09-10). -/
def Violation.words (v : Violation) : List Reg32 :=
  let b := leBytes 8 v.addr ++ leBytes 8 v.frame ++
    leBytes 4 (bitsAt 0 3 v.kind + bitsAt 3 4 v.cause + flag 7 v.hollow + bitsAt 8 7 v.master + bitsAt 15 2 v.ctrl + bitsAt 17 4 (v.region.getD 0) +
      flag 21 v.region.isSome + v.expected.toNat * 2 ^ 22 + v.found.toNat * 2 ^ 26) ++
    leBytes 4 (bitsAt 0 10 v.inst + flag 10 v.priv + bitsAt 11 4 v.part + bitsAt 16 16 v.length) ++
    leBytes 4 (bitsAt 0 14 (v.job.getD 0) + flag 14 v.job.isSome) ++ leBytes 4 v.suppressed
  (List.range 8).map (fun k => word32 (leNat ((b.drop (4 * k)).take 4)))

/-- The PRT_ words (Table 09-18). -/
def State.prtWords (s : State) : List (Nat × Reg32) :=
  let p := s.prot
  let lanes := s.hollowLanes
  [(0x700000, p.epoch), (0x700004, word32 (flag 0 (p.fence != []) + flag 1 (p.log != [] || p.worldStaged.isSome) + bitsAt 2 2 (hollowCode p.hollow))),
   (0x700008, word32 lanes), (0x70000C, word32 (lanes / 2 ^ 32)), (0x700010, p.dbg.setWidth 32),
   (0x700014, word32 (p.dbgLeft.elim (2 ^ 32 - 1) (fun n => min n (2 ^ 32 - 1)))),
   (0x700018, word32 (min p.violAll (2 ^ 32 - 1))), (0x70001C, word32 (min p.violPlain (2 ^ 32 - 1))),
   (0x700020, word32 (min p.restarts.length 0xFFFF + bitsAt 16 16 (min p.restartFrames 0xFFFF)))] ++
  (match p.last with
   | some v => v.words.zipIdx.map (fun w => (0x700040 + 4 * w.2, w.1))
   | none => [])

/-- The PWR_ words with the readings given: VDD_CORE mV and current, unit power, VBAT mV, DIMM and battery-domain temperatures (Table 14-10). -/
def State.pwrWords (s : State) (mv amps power vbat dimm bd : Nat) : List (Nat × Reg32) :=
  let p := s.power
  [(0x600000, word32 (flag 0 p.ready + bitsAt 1 3 p.halt + bitsAt 4 2 p.lastTrigger + flag 6 p.holdover + bitsAt 16 16 (min p.startMs 0xFFFF))),
   (0x600004, word32 (mv + bitsAt 16 16 amps)), (0x600008, word32 (power + bitsAt 16 16 (max p.peak power))), (0x60000C, word32 vbat),
   (0x600010, word32 (signedAt 0 8 p.tjMax + bitsAt 8 8 dimm + bitsAt 16 8 bd)), (0x600014, word32 (bitsAt 0 23 s.prot.clockGated.toNat)),
   (0x600018, word32 (bitsAt 0 23 s.prot.powerGated.toNat)), (0x60001C, word32 (bitsAt 0 2 s.prot.div))]

/-- Put words in place. -/
def latchWords (t : Table Reg32) (ws : List (Nat × Reg32)) : Table Reg32 := ws.foldl (fun (m : Table Reg32) w => tset m w.1 w.2) t

/-- Latch the PWR_ words; the readings of supplies and sensors are free values (log 9). -/
def State.latchPwr (s : State) : State :=
  let (a, s1) := s.take 32
  let (b, s2) := s1.take 32
  let (c, s3) := s2.take 16
  let (mv, amps, power) := (a.toNat % 65536, a.toNat / 65536, b.toNat % 65536)
  { s3 with
    regs := latchWords s3.regs (s3.pwrWords mv amps power (b.toNat / 65536) (c.toNat % 256) (c.toNat / 256))
    power := { s3.power with peak := max s3.power.peak power } }

/-! ## The status block of an instance (Table 08-6) -/

/-- MIN and MAX of a resource as one word. -/
def shareReg (x : Share) (r : Nat) : Reg32 := word32 (bitsAt 0 10 (x.mins.getD r 0) + bitsAt 16 10 (x.maxs.getD r 0))

/-- The words of the status block of an instance. -/
def State.statusWords (s : State) (i : Nat) (x : Inst) : Table Reg32 :=
  [(0x3000, word32 (bitsAt 0 10 i + bitsAt 10 2 x.share.personality)),
   (0x3004, word32 (bitsAt 0 4 (stateCode x.state) + flag 4 x.shrink.isSome + flag 5 (decide (x.share.ksSlots < x.slotsUsed)) + flag 6 x.shadow)),
   (0x3008, word32 (bitsAt 0 16 x.share.jobSlots + bitsAt 16 16 (s.jobs.filter (fun (j : Job) => j.inst == i)).length)),
   (0x300C, word32 x.share.ksSlots), (0x3010, word32 x.slotsUsed), (0x3014, word32 (bitsAt 0 16 x.share.sessions + bitsAt 16 16 x.sessions))] ++
  (List.range 5).map (fun r => (0x3018 + 4 * r, shareReg x.share r)) ++
  [(0x302C, word32 (bitsAt 0 3 x.share.qpairs + bitsAt 3 2 x.share.vectors + flag 5 x.share.pmcUser))]

/-- Latch the status blocks. -/
def State.latchStatus (s : State) : State :=
  { s with insts := s.insts.map (fun (e : Nat × Inst) => (e.1, { e.2 with regs := s.statusWords e.1 e.2 })) }

/-! ## The health report (Tables 12-10, 12-11) -/

/-- STATE of an element: 1 fenced, 2 fenced and held, 3 gated, 0 in service. -/
def State.elemState (s : State) (e : Nat) : Nat :=
  let x := s.elem e
  if x.fenced then (if x.held then 2 else 1) else if s.gatedElem e then 3 else 0

/-- The 16 bytes of an element; a lane has no KAT. -/
def State.elemBytes (s : State) (e : Nat) : Bytes :=
  let x := s.elem e
  let k := elemKind e
  leBytes 1 k.1 ++ leBytes 1 k.2 ++ leBytes 1 (s.elemState e + 16 * min x.passes 3) ++ leBytes 1 x.cause ++
  leBytes 4 (if k.1 = 10 then 2 ^ 32 - 1 else min x.katAge (2 ^ 32 - 1)) ++ leBytes 4 (min x.fullAge (2 ^ 32 - 1)) ++
  leBytes 2 (min x.fails 0xFFFF) ++ leBytes 2 (min x.forced 0xFFFF)

/-- The largest of a list. -/
def largest (l : List Nat) : Nat := l.foldl max 0

/-- The 32 bytes of a pass. -/
def State.passBytes (s : State) (b : Bool) : Bytes :=
  let p := s.pass b
  leBytes 4 p.clean ++ leBytes 1 p.cause ++ leBytes 1 (flag 0 p.healthy) ++ leBytes 1 (flag 0 (s.passes.activeB == b)) ++ zeros 1 ++
  leBytes 4 p.testErrs ++ leBytes 4 (min (s.frame.num - p.testAt) (2 ^ 32 - 1)) ++ leBytes 4 (s.passes.faults + s.passes.planned) ++ zeros 12

/-- The health report, as its fields stand now. -/
def State.healthBytes (s : State) : Bytes :=
  let es := List.range 158
  let up := es.filter (fun e => s.elemState e == 0)
  let fenced := es.filter (fun e => s.fenced e)
  let held := fenced.filter (fun e => (s.elem e).held)
  leBytes 4 0x484C5431 ++ leBytes 2 1 ++ leBytes 2 158 ++ leBytes 8 s.frame.num ++ leBytes 4 s.strata.seconds ++
  leBytes 4 (bitsAt 0 24 s.strata.power + bitsAt 24 8 (lcsCode s.life.otp.lcs)) ++ leBytes 4 (signedAt 0 8 s.frame.tj + bitsAt 8 8 s.frame.level) ++
  leBytes 4 (fenced.length + bitsAt 16 16 held.length) ++
  leBytes 4 (largest ((up.filter (fun e => (elemKind e).1 != 10)).map (fun e => min (s.elem e).katAge (2 ^ 32 - 1)))) ++
  leBytes 4 (largest (up.map (fun e => min (s.elem e).fullAge (2 ^ 32 - 1)))) ++ leBytes 4 (min s.strata.lost (2 ^ 32 - 1)) ++
  leBytes 4 (pairCode s.twin.state + flag 8 s.passes.activeB + bitsAt 16 8 (hollowCode s.prot.hollow)) ++ zeros 16 ++
  es.flatMap s.elemBytes ++
  (List.range 256).flatMap (fun k => leBytes 2 (min (tnat s.test.march k) 0xFFFF)) ++
  s.passBytes false ++ s.passBytes true ++
  leBytes 1 (pairCode s.twin.state) ++ leBytes 1 (min s.twin.missed 0xFF) ++ zeros 2 ++ leBytes 4 (min s.twin.refused (2 ^ 32 - 1)) ++
  leBytes 2 (min s.twin.failovers 0xFFFF) ++ leBytes 2 (min s.twin.gap 0xFFFF) ++ leBytes 8 s.twin.conf ++ zeros 12 ++ zeros 896

/-- Every element is a frame older. -/
def State.ageElems (s : State) : State :=
  { s with test := { s.test with elems := s.test.elems.map (fun (x : Elem) =>
      { x with
        katAge := min (x.katAge + 1) (2 ^ 32 - 1)
        fullAge := min (x.fullAge + 1) (2 ^ 32 - 1) }) } }

/-! ## The latch of a tail -/

/-- Everything a tail latches. -/
def State.latchTail (s : State) : State :=
  let s1 := s.ageElems
  let ws := s1.frmWords ++ s1.portWords 0 ++ s1.portWords 1 ++ [s1.custWord 0, s1.custWord 1] ++ s1.memWords ++ s1.evrWords ++ s1.twnWords ++ s1.passWords ++
    s1.prtWords
  (State.latchStatus { s1 with
    regs := latchWords s1.regs ws
    twin := { s1.twin with confLatch := s1.twin.conf }
    test := { s1.test with report := s1.healthBytes } }).latchPwr.latchLcs

end Sys2Proof.Machine
end

