-- ==== Sys2Proof/Machine/Tail.lean ====
section
/-! DEFINITION. The tail from cycle 11,560 on: the checkpoint is sealed, exchanged with the partner, completions and replies are released, Strata is flushed (R29, R74 to R76, R226, R240, R285, R312, R380 to R384, R396, R452, R459, R464, R470, R480). -/

namespace Sys2Proof.Machine

/-! ## CHECKPOINT_SEAL (R380 to R382) -/

/-- Bytes of a checkpoint body at most (R381). -/
def bodyLimit : Nat := 262144

/-- A call has started and is neither latched nor aborted. -/
def PkeCall.inFlight (q : PkeCall) : Bool := q.phase == .running || q.phase == .computed || q.phase == .written || q.phase == .aborting

/-- Bytes of the records that precede finish records: header, commits, replies completed in the frame, sessions that advanced, calls in flight (Table 10-3). -/
def State.fixedBytes (s : State) : Nat :=
  64 + 64 * s.twin.commits.length + 64 * (s.mail.replies.filter (fun r => decide (r.due = s.frame.num + 1))).length +
    32 * (s.net.sessions.filter (fun (x : Session) => decide (x.lastSeen = s.frame.num))).length +
    64 * (s.jobs.filter (fun (j : Job) => j.pke.any (·.inFlight))).length

/-- Jobs admitted in this frame. -/
def State.newJobs (s : State) : List Job := s.jobs.filter (fun (j : Job) => decide (j.admittedAt = s.frame.num) && !j.rerun)

/-- Jobs that finished and stand in no body yet, in admission order. -/
def State.unrecorded (s : State) : List Job := s.jobs.filter (fun (j : Job) => j.finished && j.finishCkpt.isNone)

/-- The frame of a job's resume point: its last progress record, or its admission. -/
def Job.resumeFrame (j : Job) : Nat := j.progressAt.getD j.admittedAt

/-- A job whose source is its destination (R56). -/
def Job.inPlace (j : Job) : Bool := j.desc.src == j.desc.dst && !j.srcSgl && !j.dstSgl && j.desc.length != 0

/-- A job a progress record may be taken of (R382). -/
def Job.progresses (j : Job) (frame : Nat) : Bool :=
  !j.finished && decide (j.resumeFrame + 64 ≤ frame) && j.region.isNone && j.pke.isNone && !j.inPlace

/-- The job the progress record is of: the longest since its resume point, ties in the order of R26 by job slot. -/
def State.progressJob (s : State) : Option Job :=
  let f := s.frame.num % 16384
  let key (j : Job) : Nat × Nat := (j.resumeFrame, (j.slot + 16384 - f) % 16384)
  ((s.jobs.filter (fun (j : Job) => j.progresses s.frame.num))).foldl (fun (b : Option Job) j =>
    match b with
    | none => some j
    | some x => if (key j).1 < (key x).1 ∨ ((key j).1 = (key x).1 ∧ (key j).2 < (key x).2) then some j else some x) none

/-- Calls started in this frame whose repeat the partner performs (R240). -/
def State.inputCalls (s : State) : List (Job × PkeCall) :=
  s.jobs.filterMap (fun (j : Job) => j.pke.bind (fun q =>
    if s.crossChecks && repeats q.op && !q.localRepeat && (q.phase == .running || q.phase == .computed) && decide (q.start = s.frame.num) then
      some (j, q)
    else none))

/-- The input record of a call: what its engine read at the start, with the chained private key where the call uses it; a key named by KEYREG is not carried (R240). -/
def inputRecord (e : Job × PkeCall) : CkptCall :=
  { slot := e.1.slot, inst := e.1.inst, op := e.2.op, key := e.2.key, chained := e.2.chainKey, inputs := e.2.inputs, seed := e.2.seed }

/-- Bytes of an input record after its header. -/
def inputSize (c : CkptCall) : Nat := (c.inputs.map List.length).sum + c.chained.elim 0 List.length

/-- The calls whose input records fit, at most 48 KiB each, into the room left, and the calls repeated locally instead (R240). -/
def fitInputs : Nat → List (Job × PkeCall) → List CkptCall × List (Job × PkeCall)
  | _, [] => ([], [])
  | room, e :: rest =>
    let c := inputRecord e
    if inputSize c ≤ 49152 ∧ 64 + inputSize c ≤ room then
      (let r := fitInputs (room - 64 - inputSize c) rest; (c :: r.1, r.2))
    else
      (let r := fitInputs room rest; (r.1, e :: r.2))

/-- A call is repeated on this unit under R236: it starts again on two engines with what it read and its seed; event 0x4007 (R240). -/
def State.repeatLocally (s : State) (e : Job × PkeCall) : State :=
  ((s.freeEngines e.1.slot).setCall e.1.slot (some { e.2.again with localRepeat := true })).raise 0x4007 e.1.hollow
    (e.2.engine.elim 0 (·.val)) e.2.op.toNat e.1.slot

/-- The admission record of a job (Table 10-3). -/
def admitRecord (j : Job) : CkptJob :=
  { slot := j.slot, inst := j.inst, q := j.q.elim 4 (·.val), ringIndex := j.ring.toNat, desc := j.desc, admitted := j.admittedAt, invs := j.invs, finished := none }

/-- The finish records of jobs in order: each with the index its entry takes in the completion ring behind those before it (Table 10-3; log 142). -/
def State.finishRecords (s : State) : List Job → List Job → List CkptJob
  | _, [] => []
  | before, j :: rest =>
    let q := (s.inst j.inst).bind (fun x => j.q.map (fun k => x.qs[k]))
    let ahead := (before.filter (fun x => x.inst == j.inst && x.q == j.q)).length
    { slot := j.slot, inst := j.inst, q := j.q.elim 4 (·.val), ringIndex := (q.elim 0 (fun x => x.cqTail.toNat + ahead)) % 65536, desc := j.desc,
      admitted := j.admittedAt, invs := j.invs, finished := some (j.entry s.frame.num (q.elim false (·.phase))) } :: s.finishRecords (before ++ [j]) rest

/-- The record of an operation in flight; the count of micro-steps is informative only and left open (R219; log 9). -/
def callRecord (j : Job) (q : PkeCall) (steps : BitVec 32) : CallRecord :=
  { slot := j.slot, op := q.op, chain := q.chain, key := q.key, ins := q.ins, outs := q.outs, engine := q.engine, start := q.start, seed := q.seed, steps := steps }

/-- The records of the operations in flight, each with a count drawn (R219). -/
def State.callRecords (s : State) : List CallRecord × State :=
  s.jobs.foldl (fun (a : List CallRecord × State) (j : Job) =>
    match j.pke with
    | some q => if q.inFlight then (let (n, t) := a.2.take 32; (a.1 ++ [callRecord j q n], t)) else a
    | none => a) ([], s)

/-- The progress record of a job: the state latched at the tail (R136, R382). -/
def Job.progress (j : Job) : Nat × Progress :=
  (j.slot, { ctx := j.saved.getD j.block, si := j.ports.si, pushed := j.ports.pushed, written := j.ports.written, hash := j.hash })

/-- The job holds an operand region or has an operation outstanding (R220). -/
def Job.holdsPke (j : Job) : Bool := j.region.isSome || j.pkeBusy

/-- A canonical text of the finish and admission records (Table 10-3). -/
def recordText (finished admitted : List Job) : List Nat :=
  finished.flatMap (fun (j : Job) => [j.slot, j.status.toNat, j.detail.toNat, j.tag.toNat, j.bytesOut]) ++
  admitted.flatMap (fun (j : Job) => [j.slot, j.inst, j.ring.toNat, j.desc.src.toNat, j.desc.dst.toNat])

/-- The checkpoint of this frame: records that do not fit move to the next body (R381). -/
def State.seal (s : State) : State :=
  let news := s.newJobs
  let used := s.fixedBytes + 96 * news.length
  let all := s.unrecorded
  let done := all.take ((bodyLimit - used) / 48)
  let used1 := used + 48 * done.length
  let wanted := s.progressJob
  let prog := if used1 + 18496 ≤ bodyLimit then wanted else none
  let used2 := used1 + (if prog.isSome then 18496 else 0)
  let (inputs, late) := fitInputs (bodyLimit - used2) s.inputCalls
  let (calls, s0) := s.callRecords
  let used3 := used2 + (inputs.map (fun c => 64 + inputSize c)).sum
  let kinds := (if done.length < all.length then 1 else 0) + (if wanted.isSome && prog.isNone then 4 else 0)
  let digest := Config.ckptDigest s.frame.num
    (s.twin.lastDigest.toNat :: leNat (s.twin.commits.flatten) :: s.fixedBytes :: recordText done news ++ (prog.map (·.slot)).toList)
  let marked (j : Job) : Job :=
    { j with
      finishCkpt := if done.any (fun d => d.slot == j.slot) then some s.frame.num else j.finishCkpt
      progressAt := if prog.any (fun d => d.slot == j.slot) then some s.frame.num else j.progressAt }
  let records : BodyRecords :=
    { commits := s.twin.commits, replies := s.mail.replies.filter (fun r => decide (r.due = s.frame.num + 1))
      sessions := s.net.sessions.filter (fun (x : Session) => decide (x.lastSeen = s.frame.num)), calls := calls, inputs := inputs
      finished := s.finishRecords [] done, admitted := news.map admitRecord, progress := prog.map (·.progress)
      held := (s.jobs.filter (·.holdsPke)).map (·.slot) }
  let s1 := { s0 with
    jobs := s.jobs.map marked
    twin := { s.twin with
      lastDigest := digest, kib := (used3 + 1023) / 1024
      sent := s.twin.sent ++ [{ frame := s.frame.num, digest := digest, kib := (used3 + 1023) / 1024, finished := done.map (·.slot), admitted := news.map (·.slot), records := records }] } }
  let s2 := late.foldl State.repeatLocally s1
  if kinds = 0 then s2 else s2.raise 0x7008 false kinds (all.length - done.length + (if wanted.isSome && prog.isNone then 1 else 0)) 0

/-- Home commits go to the partner: in PAIRED, and while the copies of the bulk channel are under way (R371, R395). -/
def State.copiesLive (s : State) : Bool :=
  s.isPaired || decide (s.twin.state = .resync) || s.twin.ceremony.any (fun c => c.2.2 == 7)

/-- Journal entries made in this frame go to the partner (Table 10-2). -/
def State.replicate (s : State) : State :=
  let es := (s.quarry.staging ++ s.quarry.written).filter (fun (e : Staged) => decide (e.frame = s.frame.num))
  if es = [] ∨ !s.copiesLive then s else s.sendTwin 4 (.replication es)

/-- CHECKPOINT_SEAL (R29). -/
def execCheckpointSeal (s : State) : Host.Outcome State Fault Refusal :=
  ok (s.phase 11200 11560 (fun t => if t.isPaired then t.replicate.seal else t.replicate))

/-! ## TWIN_EXCHANGE (R374, R375, R383, R384) -/

/-- Bodies this unit may confirm: whole, chained, of earlier frames, with every replication entry of their commits held. -/
def State.confirmable (s : State) : List Received :=
  (s.twin.got.filter (fun b => !b.confirmed && decide (b.frame < s.frame.num))).takeWhile (fun b => decide (b.entries ≤ s.twin.replica.length))

/-- The frame whose checkpoint is refused, with the cause and the attempt: the one refused before and still not held, else the last one where it is not held (R384). -/
def State.bodyRefused (s : State) (agrees : Bool) : Option (Nat × Nat × Nat) :=
  let f := s.frame.num - 1
  let held (n : Nat) : Bool := agrees && (s.twin.got.any (fun b => b.frame == n && b.confirmed) || s.confirmable.any (fun b => b.frame == n))
  let cause (n : Nat) : Nat :=
    if s.twin.got.any (fun b => b.frame == n) then 4
    else match s.twin.badBody with | some (m, c) => if m = n then c else 1 | none => 1
  match s.twin.answer with
  | some (n, false) => if held n then none else some (n, cause n, 2)
  | _ => if held f then none else some (f, cause f, 1)

/-- The partner's checkpoints are judged: those it may rely on are confirmed and applied, a refusal is recorded, and a second refusal starts the test of the path (R383, R384); whether its reservation entries and staging numbers agree with the replica is a free bit (log 9). -/
def State.judge (s : State) : State × Option Nat × Option Nat :=
  let (bit, s0) := s.take 1
  let agrees := bit == 1
  let bs := if agrees then s0.confirmable else []
  let no := s0.bodyRefused agrees
  let s1 := bs.foldl State.confirmBody s0
  let yes := bs.getLast?.map (·.frame)
  match no with
  | none => ({ s1 with twin := { s1.twin with answer := yes.map (fun f => (f, true)), badBody := none } }, yes, none)
  | some (f, cause, attempt) =>
    (({ s1 with twin := { s1.twin with
        answer := if attempt = 1 then some (f, false) else none
        pathTest := s1.twin.pathTest || decide (attempt = 2), badBody := none } }).raise 0x7002 false (f % 2 ^ 32) cause attempt, yes, some f)

/-- A reservation entry as the exchange carries it. -/
def resOf (e : ResEntry) : Reserve := { inst := e.inst, node := e.node, gen := e.gen, uses := e.uses, block := e.block }

/-- Send the exchange: digest, answers, heartbeat, up to 256 reservation entries, cross-check digests and aborts, forwarded doorbells and cancels (Table 10-2). -/
def State.sendExchange (s : State) (yes no : Option Nat) : State :=
  let t := s.twin
  let done := s.pke.twinRepeats.filter (fun (r : TwinRepeat) => r.digest.isSome)
  let ready := done.filterMap (fun (r : TwinRepeat) => r.digest.map (fun d => (r.call.slot, d)))
  let ran := done.filterMap (fun (r : TwinRepeat) => r.engine.map (fun e => (r.call.slot, s.frame.num, e)))
  ({ s with
    pke := { s.pke with
      twinRepeats := s.pke.twinRepeats.filter (fun r => r.digest.isNone)
      repeated := s.pke.repeated.filter (fun (r : Nat × Nat × Fin 16) => decide (s.frame.num < r.2.1 + 4)) ++ ran }
    twin := { t with resOut := t.resOut.drop 256, aborts := [], mismatches := [], fwdDoorbells := [], fwdCancels := [] } }).sendTwin 3 (.exchange
      { frame := s.frame.num, digest := t.lastDigest, confirm := yes, refuse := no, heartbeat := true, silent := false,
        reservations := (t.resOut.take 256).map resOf, xDigests := ready, xAborts := t.aborts, xMismatch := t.mismatches, doorbells := t.fwdDoorbells, cancels := t.fwdCancels })

/-- The exchange of a frame: a paired unit judges the checkpoints received first (R375, R383). -/
def State.exchange (s : State) : State :=
  if !s.inPair || !s.twin.up || !s.twin.keyed then s
  else if s.isPaired then
    let (u, yes, no) := s.judge
    u.sendExchange yes no
  else s.sendExchange none none

/-- TWIN_EXCHANGE (R29). -/
def execTwinExchange (s : State) : Host.Outcome State Fault Refusal :=
  ok (s.phase 11200 11640 State.exchange)

/-! ## COMPLETION_RELEASE -/

/-- Entries wait in staging: a notice to instance 0 at the first such tail, then at most once every 100 frames (R285). -/
def State.journalWait (s : State) : State :=
  match s.quarry.staging with
  | [] => { s with quarry := { s.quarry with waitAt := none } }
  | e :: _ =>
    if s.writable 1 != [] || s.quarry.waitAt.any (fun f => decide (s.frame.num < f + 100)) then s
    else
      ({ s with quarry := { s.quarry with waitAt := some s.frame.num } }).noticeNow (.mailbox 0) 0xF5
        (leBytes 4 s.quarry.staging.length ++ zeros 4 ++ leBytes 8 e.seq)

/-- The frame since which completions of a pair are held (R47). -/
def State.noteHeld (s : State) (i : Nat) (q : Fin 4) : State :=
  if s.pairHeld i q then s.modQ i q (fun x => { x with fullSince := some (x.fullSince.getD s.frame.num) })
  else s.modQ i q (fun x => { x with fullSince := none })

/-- The same for every pair. -/
def State.noteAll (s : State) : State :=
  s.insts.foldl (fun (t : State) (e : Nat × Inst) => (List.finRange 4).foldl (fun (u : State) q => u.noteHeld e.1 q) t) s

/-- Returned instances whose jobs have drained stand as shadows again; returns older than 100,000 frames are forgotten (R396). -/
def State.settleReturned (s : State) : State :=
  let gone (e : Nat × Inst) : Bool := decide (e.2.state = .dormant) && !s.jobs.any (fun (j : Job) => j.inst == e.1)
  { s with
    insts := s.insts.filter (fun e => !gone e)
    twin := { s.twin with
      shadows := addInsts s.twin.shadows (s.insts.filter gone)
      returned := s.twin.returned.filter (fun r => decide (s.frame.num < r.2 + 100000)) } }

/-- Vector 2: the thermal level, the pair state or the active pass changed (R51, R480). -/
def State.vector2 (s : State) : State :=
  if s.host.vec2 || (s.frame.shedIrq && s.frame.changed) then
    State.pfVector { s with host := { s.host with vec2 := false } } 2
  else s

/-- The vector of the sample ring at its watermark (R464). -/
def State.sampleVector (s : State) : State :=
  if s.pmc.smpEn && decide (s.pmc.watermark.toNat ≤ (s.pmc.smpTail - s.pmc.smpHead).toNat) then s.pfVector s.pmc.smpVector.toNat else s

/-- Frames above T0 (Table 12-6). -/
def State.countHot (s : State) : State := if s.frame.level = 0 then s else s.countGlob 63 1

/-- The release window: registers are latched, completions, replies and notices written, vectors sent (R74 to R76, R310). -/
def State.releaseWindow (s : State) : State :=
  let t1 := (s.latchTail.finishTree.journalWait.writeRewrites).releaseAll.vectors0
  let t2 := (t1.replyAll.quiesceAll.noteAll).settleReturned
  let t3 := ((t2.endFlr 0).endFlr 1).tailGates
  t3.vector2.sampleVector.countHot

/-- COMPLETION_RELEASE (R74). -/
def execCompletionRelease (s : State) : Host.Outcome State Fault Refusal :=
  ok (s.phase 11200 11800 State.releaseWindow)

/-! ## STRATA_FLUSH (R452, R455, R457, R459) -/

/-- Repeats on the only engine in service: one event in the frame, with the calls it happened to, those that go on from the frame before among them (R237, Table 06-10). -/
def State.singleEvent (s : State) : State :=
  if s.pke.singleRepeats = 0 then s else s.raise 0x4005 false s.pke.singleEngine s.pke.singleRepeats 0

/-- STRATA_FLUSH (R452). -/
def execStrataFlush (s : State) : Host.Outcome State Fault Refusal :=
  ok (s.phase 11800 11920 (fun t => t.singleEvent.flushRecords.snapCounters))

end Sys2Proof.Machine
end

