-- ==== Sys2Proof/Machine/Tap.lean ====
section
/-! DEFINITION. The test access port: IDCODE and BYPASS (R12, R441, R508, R509). -/

namespace Sys2Proof.Machine

/-- The IDCODE 0x1964_0xxx: the low 12 bits are the vendor's JEDEC identity with bit 0 set (R508). -/
def idcodeValue : Reg32 := 0x19640001 ||| (Config.jedec.setWidth 32 <<< 1)

/-- IDCODE (R508). -/
def execIdcode (s : State) : Host.Outcome State Fault Refusal :=
  ok (
    let t := { s with power := { s.power with tapBypass := false } }
    if t.power.run = .coldReset then t else t.emit (.tdo idcodeValue))

/-- BYPASS (R441). -/
def execBypass (s : State) : Host.Outcome State Fault Refusal :=
  ok { s with power := { s.power with tapBypass := true } }

end Sys2Proof.Machine
end

