-- ==== Sys2Proof/Machine/Tests.lean ====
section
/-! DEFINITION. The in-service test: pieces, forced tests, march tests, scrubbing, the health report, holds (R466 to R471, R496). -/

namespace Sys2Proof.Machine

/-- HEALTH_REPORT (R470). -/
def execHealthReport (rq : Req) (outAddr : Word) (outLen : Nat) (s : State) : Host.Outcome State Fault Refusal :=
  ok (s.request rq 0xA8 false (fun t =>
    if outLen < 4096 then t.answer rq 0xA8 St.lengthInvalid
    else (t.hostWrite (srcInst rq.src) outAddr (padTo 4096 t.test.report)).answer rq 0xA8 St.ok))

/-- FENCE_HOLD (R471). -/
def execFenceHold (rq : Req) (elem : Nat) (hold : Bool) (s : State) : Host.Outcome State Fault Refusal :=
  ok (s.request rq 0xA9 false (fun t =>
    if 158 ≤ elem || (hold && !t.fenced elem) then t.answer rq 0xA9 St.descInvalid
    else t.stage (.fenceHold elem hold (replyTo rq) rq.tag)))

/-- An element is tested: the unit runs, it is not gated, and it has a test of that kind (Table 12-9). -/
def State.testable (s : State) (e : Nat) (full : Bool) : Bool :=
  s.works && !s.gatedElem e && (full || (elemKind e).1 != 10)

/-- SELF_TEST_PIECE (R466). -/
def execSelfTestPiece (elem : Fin 158) (full : Bool) (passed : Bool) (s : State) : Host.Outcome State Fault Refusal :=
  ok (if !s.testable elem.val full then s
      else if passed then s.testPassed elem.val full
      else s.testFailed elem.val (if full then 2 else 1))

/-- The age at which the planner forces a test (R467); an entropy source is never forced. -/
def State.forceDue (s : State) (e : Nat) (full : Bool) : Bool :=
  (elemKind e).1 != 5 && !s.fenced e &&
    (if full then decide (100000 ≤ (s.elem e).fullAge) && (s.elem e).forcing != some true
     else decide (20000 ≤ (s.elem e).katAge) && (s.elem e).forcing.isNone)

/-- FORCED_TEST (R467). -/
def execForcedTest (elem : Fin 158) (full : Bool) (s : State) : Host.Outcome State Fault Refusal :=
  ok (if !s.testable elem.val full || !s.forceDue elem.val full then s
      else
        (s.modElem elem.val (fun (x : Elem) => { x with forcing := some full, forced := min (x.forced + 1) 0xFFFF })).raise 0x9002 false
          (elemKind elem.val).1 (elemKind elem.val).2 (if full then 2 else 1))

/-- A march error: 0x9004 with a word address the spec leaves to the test, event 0x4002 with cause 4, the engine fenced (R469). -/
def State.marchFailed (s : State) (e : Fin 16) (r : Fin 16) : State :=
  let (a, s1) := s.take 32
  let s2 := s1.raise 0x9004 false e.val r.val a.toNat
  (s2.fenceOut (elemOf .pke e.val) 3).reissue (elemOf .pke e.val) true

/-- MARCH_TEST (R468). -/
def execMarchTest (engine : Fin 16) (region : Fin 16) (passed : Bool) (s : State) : Host.Outcome State Fault Refusal :=
  ok (if !s.testable (elemOf .pke engine.val) true || 16 ≤ s.regionsUsed engine || decide (tnat s.test.march (16 * engine.val + region.val) < 60) then s
      else
        let s1 := { s with test := { s.test with march := tdel s.test.march (16 * engine.val + region.val) } }
        if passed then s1 else s1.marchFailed engine region)

/-- DRAM_SCRUB (R496). -/
def execDramScrub (channel : Fin 4) (corrected : Nat) (s : State) : Host.Outcome State Fault Refusal :=
  ok { s with host := { s.host with memCe := min (s.host.memCe + corrected) (2 ^ 32 - 1) } }

end Sys2Proof.Machine
end

