-- ==== Sys2Proof/Machine/Dispatch.lean ====
section
/-! DEFINITION. Dispatch: one arm per command, one direct call of its meaning. -/

namespace Sys2Proof.Machine

def exec (i : Instr) (s : State) : Host.Outcome State Fault Refusal :=
  match i with
  | .frameStart tj => Sys2Proof.Machine.execFrameStart tj s
  | .thermalFallback => Sys2Proof.Machine.execThermalFallback s
  | .alignWarn => Sys2Proof.Machine.execAlignWarn s
  | .frameSyncInEdge offset => Sys2Proof.Machine.execFrameSyncInEdge offset s
  | .stagedCommit => Sys2Proof.Machine.execStagedCommit s
  | .reservationCommit inst node => Sys2Proof.Machine.execReservationCommit inst node s
  | .grantCompute => Sys2Proof.Machine.execGrantCompute s
  | .admission => Sys2Proof.Machine.execAdmission s
  | .sliceArbitration => Sys2Proof.Machine.execSliceArbitration s
  | .sliceStart l => Sys2Proof.Machine.execSliceStart l s
  | .sliceEnd l => Sys2Proof.Machine.execSliceEnd l s
  | .tailStart => Sys2Proof.Machine.execTailStart s
  | .stepLimit => Sys2Proof.Machine.execStepLimit s
  | .deadlineReached => Sys2Proof.Machine.execDeadlineReached s
  | .carryBlockRequests => Sys2Proof.Machine.execCarryBlockRequests s
  | .contextSave => Sys2Proof.Machine.execContextSave s
  | .checkpointSeal => Sys2Proof.Machine.execCheckpointSeal s
  | .twinExchange => Sys2Proof.Machine.execTwinExchange s
  | .completionRelease => Sys2Proof.Machine.execCompletionRelease s
  | .strataFlush => Sys2Proof.Machine.execStrataFlush s
  | .stallStart inst q => Sys2Proof.Machine.execStallStart inst q s
  | .stallEnd inst q => Sys2Proof.Machine.execStallEnd inst q s
  | .mbxTimeout forward => Sys2Proof.Machine.execMbxTimeout forward s
  | .engineTimeout elem => Sys2Proof.Machine.execEngineTimeout elem s
  | .pkeMicrostepWatchdog e => Sys2Proof.Machine.execPkeMicrostepWatchdog e s
  | .fenceLate master => Sys2Proof.Machine.execFenceLate master s
  | .hollowWatchdogExpiry => Sys2Proof.Machine.execHollowWatchdogExpiry s
  | .hollowRestartComplete image => Sys2Proof.Machine.execHollowRestartComplete image s
  | .add l d a b => Sys2Proof.Machine.execAdd l d a b s
  | .sub l d a b => Sys2Proof.Machine.execSub l d a b s
  | .and l d a b => Sys2Proof.Machine.execAnd l d a b s
  | .or l d a b => Sys2Proof.Machine.execOr l d a b s
  | .xor l d a b => Sys2Proof.Machine.execXor l d a b s
  | .andn l d a b => Sys2Proof.Machine.execAndn l d a b s
  | .sll l d a b => Sys2Proof.Machine.execSll l d a b s
  | .srl l d a b => Sys2Proof.Machine.execSrl l d a b s
  | .sra l d a b => Sys2Proof.Machine.execSra l d a b s
  | .ror l d a b => Sys2Proof.Machine.execRor l d a b s
  | .slt l d a b => Sys2Proof.Machine.execSlt l d a b s
  | .sltu l d a b => Sys2Proof.Machine.execSltu l d a b s
  | .min l d a b => Sys2Proof.Machine.execMin l d a b s
  | .max l d a b => Sys2Proof.Machine.execMax l d a b s
  | .minu l d a b => Sys2Proof.Machine.execMinu l d a b s
  | .maxu l d a b => Sys2Proof.Machine.execMaxu l d a b s
  | .sel l d a b => Sys2Proof.Machine.execSel l d a b s
  | .mul l d a b => Sys2Proof.Machine.execMul l d a b s
  | .mulh l d a b => Sys2Proof.Machine.execMulh l d a b s
  | .mulhu l d a b => Sys2Proof.Machine.execMulhu l d a b s
  | .div l d a b => Sys2Proof.Machine.execDiv l d a b s
  | .divu l d a b => Sys2Proof.Machine.execDivu l d a b s
  | .rem l d a b => Sys2Proof.Machine.execRem l d a b s
  | .remu l d a b => Sys2Proof.Machine.execRemu l d a b s
  | .clz l d a => Sys2Proof.Machine.execClz l d a s
  | .ctz l d a => Sys2Proof.Machine.execCtz l d a s
  | .popc l d a => Sys2Proof.Machine.execPopc l d a s
  | .bswap l d a => Sys2Proof.Machine.execBswap l d a s
  | .addi l d a imm => Sys2Proof.Machine.execAddi l d a imm s
  | .andi l d a imm => Sys2Proof.Machine.execAndi l d a imm s
  | .ori l d a imm => Sys2Proof.Machine.execOri l d a imm s
  | .xori l d a imm => Sys2Proof.Machine.execXori l d a imm s
  | .slti l d a imm => Sys2Proof.Machine.execSlti l d a imm s
  | .sltiu l d a imm => Sys2Proof.Machine.execSltiu l d a imm s
  | .slli l d a n => Sys2Proof.Machine.execSlli l d a n s
  | .srli l d a n => Sys2Proof.Machine.execSrli l d a n s
  | .srai l d a n => Sys2Proof.Machine.execSrai l d a n s
  | .rori l d a n => Sys2Proof.Machine.execRori l d a n s
  | .qset l d imm q => Sys2Proof.Machine.execQset l d imm q s
  | .qins l d imm q => Sys2Proof.Machine.execQins l d imm q s
  | .lb l d a imm => Sys2Proof.Machine.execLb l d a imm s
  | .lh l d a imm => Sys2Proof.Machine.execLh l d a imm s
  | .lw l d a imm => Sys2Proof.Machine.execLw l d a imm s
  | .ld l d a imm => Sys2Proof.Machine.execLd l d a imm s
  | .lbs l d a imm => Sys2Proof.Machine.execLbs l d a imm s
  | .lhs l d a imm => Sys2Proof.Machine.execLhs l d a imm s
  | .lws l d a imm => Sys2Proof.Machine.execLws l d a imm s
  | .sb l d a imm => Sys2Proof.Machine.execSb l d a imm s
  | .sh l d a imm => Sys2Proof.Machine.execSh l d a imm s
  | .sw l d a imm => Sys2Proof.Machine.execSw l d a imm s
  | .sd l d a imm => Sys2Proof.Machine.execSd l d a imm s
  | .lv l d a imm => Sys2Proof.Machine.execLv l d a imm s
  | .sv l d a imm => Sys2Proof.Machine.execSv l d a imm s
  | .atmAdd l d b a => Sys2Proof.Machine.execAtmAdd l d b a s
  | .atmSwap l d b a => Sys2Proof.Machine.execAtmSwap l d b a s
  | .atmAnd l d b a => Sys2Proof.Machine.execAtmAnd l d b a s
  | .atmOr l d b a => Sys2Proof.Machine.execAtmOr l d b a s
  | .atmXor l d b a => Sys2Proof.Machine.execAtmXor l d b a s
  | .atmCmpx l d b a => Sys2Proof.Machine.execAtmCmpx l d b a s
  | .tagr l d a => Sys2Proof.Machine.execTagr l d a s
  | .tagw l b a => Sys2Proof.Machine.execTagw l b a s
  | .pcset l d a c => Sys2Proof.Machine.execPcset l d a c s
  | .pcget l d a => Sys2Proof.Machine.execPcget l d a s
  | .jeq l a b off => Sys2Proof.Machine.execJeq l a b off s
  | .jne l a b off => Sys2Proof.Machine.execJne l a b off s
  | .jlt l a b off => Sys2Proof.Machine.execJlt l a b off s
  | .jge l a b off => Sys2Proof.Machine.execJge l a b off s
  | .jlo l a b off => Sys2Proof.Machine.execJlo l a b off s
  | .jhs l a b off => Sys2Proof.Machine.execJhs l a b off s
  | .call l d off => Sys2Proof.Machine.execCall l d off s
  | .callr l d a imm => Sys2Proof.Machine.execCallr l d a imm s
  | .vmov l d a => Sys2Proof.Machine.execVmov l d a s
  | .vxor l d a b => Sys2Proof.Machine.execVxor l d a b s
  | .vand l d a b => Sys2Proof.Machine.execVand l d a b s
  | .vor l d a b => Sys2Proof.Machine.execVor l d a b s
  | .vandn l d a b => Sys2Proof.Machine.execVandn l d a b s
  | .vzero l d => Sys2Proof.Machine.execVzero l d s
  | .vbswap l d a => Sys2Proof.Machine.execVbswap l d a s
  | .vins l d a hi => Sys2Proof.Machine.execVins l d a hi s
  | .vext l d a hi => Sys2Proof.Machine.execVext l d a hi s
  | .veq l d a b => Sys2Proof.Machine.execVeq l d a b s
  | .kmov l d a => Sys2Proof.Machine.execKmov l d a s
  | .kclr l d => Sys2Proof.Machine.execKclr l d s
  | .kinf l d a => Sys2Proof.Machine.execKinf l d a s
  | .crr l d n => Sys2Proof.Machine.execCrr l d n s
  | .crw l n a => Sys2Proof.Machine.execCrw l n a s
  | .jend l a => Sys2Proof.Machine.execJend l a s
  | .kcall l imm => Sys2Proof.Machine.execKcall l imm s
  | .endJob l => Sys2Proof.Machine.execEndJob l s
  | .kret l => Sys2Proof.Machine.execKret l s
  | .fence l mask => Sys2Proof.Machine.execFence l mask s
  | .tlbfl l d mode => Sys2Proof.Machine.execTlbfl l d mode s
  | .dstop l imm => Sys2Proof.Machine.execDstop l imm s
  | .blkEnc l d a k => Sys2Proof.Machine.execBlkEnc l d a k s
  | .blkDec l d a k => Sys2Proof.Machine.execBlkDec l d a k s
  | .blkEncCtr l d c k => Sys2Proof.Machine.execBlkEncCtr l d c k s
  | .blkEncT l d a k => Sys2Proof.Machine.execBlkEncT l d a k s
  | .waitb l n => Sys2Proof.Machine.execWaitb l n s
  | .blockDispatch cycle => Sys2Proof.Machine.execBlockDispatch cycle s
  | .blockResult core parityErr => Sys2Proof.Machine.execBlockResult core parityErr s
  | .keyScheduleLoaded hollow inst node version tweak => Sys2Proof.Machine.execKeyScheduleLoaded hollow inst node version tweak s
  | .derivationDone hollow inst node version => Sys2Proof.Machine.execDerivationDone hollow inst node version s
  | .clmulLl l d a b => Sys2Proof.Machine.execClmulLl l d a b s
  | .clmulLh l d a b => Sys2Proof.Machine.execClmulLh l d a b s
  | .clmulHl l d a b => Sys2Proof.Machine.execClmulHl l d a b s
  | .clmulHh l d a b => Sys2Proof.Machine.execClmulHh l d a b s
  | .gfmul l d a b => Sys2Proof.Machine.execGfmul l d a b s
  | .gfmac l d a b => Sys2Proof.Machine.execGfmac l d a b s
  | .xtsmul l d a => Sys2Proof.Machine.execXtsmul l d a s
  | .ctrSet l c a => Sys2Proof.Machine.execCtrSet l c a s
  | .ctrLim l c a b => Sys2Proof.Machine.execCtrLim l c a b s
  | .ctrNext l d c => Sys2Proof.Machine.execCtrNext l d c s
  | .ctrGet l d c => Sys2Proof.Machine.execCtrGet l d c s
  | .ctrRem l d c => Sys2Proof.Machine.execCtrRem l d c s
  | .ctrInv l d k b => Sys2Proof.Machine.execCtrInv l d k b s
  | .siPull l d n => Sys2Proof.Machine.execSiPull l d n s
  | .siPullg l d n => Sys2Proof.Machine.execSiPullg l d n s
  | .siRem l d n => Sys2Proof.Machine.execSiRem l d n s
  | .soPush l a n => Sys2Proof.Machine.execSoPush l a n s
  | .soPushg l a n => Sys2Proof.Machine.execSoPushg l a n s
  | .stxE l d a n => Sys2Proof.Machine.execStxE l d a n s
  | .stxD l d a n => Sys2Proof.Machine.execStxD l d a n s
  | .soCnt l d n => Sys2Proof.Machine.execSoCnt l d n s
  | .soFin l n => Sys2Proof.Machine.execSoFin l n s
  | .soTag l n a b => Sys2Proof.Machine.execSoTag l n a b s
  | .hostReadCompletion slot r => Sys2Proof.Machine.execHostReadCompletion slot r s
  | .hshInit l d a => Sys2Proof.Machine.execHshInit l d a s
  | .hshKinit l d a k => Sys2Proof.Machine.execHshKinit l d a k s
  | .hshAbs l d a b => Sys2Proof.Machine.execHshAbs l d a b s
  | .hshAbsp l d a b => Sys2Proof.Machine.execHshAbsp l d a b s
  | .hshSqz l d a b => Sys2Proof.Machine.execHshSqz l d a b s
  | .hshWait l a => Sys2Proof.Machine.execHshWait l a s
  | .hshFree l a => Sys2Proof.Machine.execHshFree l a s
  | .hashChunkDone engine => Sys2Proof.Machine.execHashChunkDone engine s
  | .drbgCallDone idx => Sys2Proof.Machine.execDrbgCallDone idx s
  | .seedConditioned source raw => Sys2Proof.Machine.execSeedConditioned source raw s
  | .drbgReseed idx => Sys2Proof.Machine.execDrbgReseed idx s
  | .entropyTestFail source proportion failures => Sys2Proof.Machine.execEntropyTestFail source proportion failures s
  | .pkeCall l d a => Sys2Proof.Machine.execPkeCall l d a s
  | .pkeWait l d => Sys2Proof.Machine.execPkeWait l d s
  | .pkeAbort l d => Sys2Proof.Machine.execPkeAbort l d s
  | .pkeAbortComplete job => Sys2Proof.Machine.execPkeAbortComplete job s
  | .pkeFree e => Sys2Proof.Machine.execPkeFree e s
  | .pkeStage e => Sys2Proof.Machine.execPkeStage e s
  | .pkeNonce e => Sys2Proof.Machine.execPkeNonce e s
  | .modmul e => Sys2Proof.Machine.execModmul e s
  | .modadd e => Sys2Proof.Machine.execModadd e s
  | .modsub e => Sys2Proof.Machine.execModsub e s
  | .modexp e => Sys2Proof.Machine.execModexp e s
  | .modexpPub e => Sys2Proof.Machine.execModexpPub e s
  | .modinv e => Sys2Proof.Machine.execModinv e s
  | .rsaSign e => Sys2Proof.Machine.execRsaSign e s
  | .rsaVerify e => Sys2Proof.Machine.execRsaVerify e s
  | .rsaDecrypt e => Sys2Proof.Machine.execRsaDecrypt e s
  | .rsaEncrypt e => Sys2Proof.Machine.execRsaEncrypt e s
  | .rsaKeygen e => Sys2Proof.Machine.execRsaKeygen e s
  | .ecdsaSign e => Sys2Proof.Machine.execEcdsaSign e s
  | .ecdsaVerify e => Sys2Proof.Machine.execEcdsaVerify e s
  | .ecdh e => Sys2Proof.Machine.execEcdh e s
  | .ecKeygen e => Sys2Proof.Machine.execEcKeygen e s
  | .validate e => Sys2Proof.Machine.execValidate e s
  | .eddsaSign e => Sys2Proof.Machine.execEddsaSign e s
  | .eddsaVerify e => Sys2Proof.Machine.execEddsaVerify e s
  | .xdh e => Sys2Proof.Machine.execXdh e s
  | .eddsaKeygen e => Sys2Proof.Machine.execEddsaKeygen e s
  | .xdhKeygen e => Sys2Proof.Machine.execXdhKeygen e s
  | .mlKemKeygen e => Sys2Proof.Machine.execMlKemKeygen e s
  | .mlKemEncaps e => Sys2Proof.Machine.execMlKemEncaps e s
  | .mlKemDecaps e => Sys2Proof.Machine.execMlKemDecaps e s
  | .mlDsaKeygen e => Sys2Proof.Machine.execMlDsaKeygen e s
  | .mlDsaSign e => Sys2Proof.Machine.execMlDsaSign e s
  | .mlDsaVerify e => Sys2Proof.Machine.execMlDsaVerify e s
  | .xmssKeygen e => Sys2Proof.Machine.execXmssKeygen e s
  | .xmssSign e => Sys2Proof.Machine.execXmssSign e s
  | .xmssVerify e => Sys2Proof.Machine.execXmssVerify e s
  | .slhDsaVerify e => Sys2Proof.Machine.execSlhDsaVerify e s
  | .xcheckRepeatStart job => Sys2Proof.Machine.execXcheckRepeatStart job s
  | .dld l d a b => Sys2Proof.Machine.execDld l d a b s
  | .dstb l d a b => Sys2Proof.Machine.execDstb l d a b s
  | .dadd l d a b => Sys2Proof.Machine.execDadd l d a b s
  | .dsub l d a b => Sys2Proof.Machine.execDsub l d a b s
  | .dcmp l d a b => Sys2Proof.Machine.execDcmp l d a b s
  | .dpackE l d a => Sys2Proof.Machine.execDpackE l d a s
  | .dpackA l d a => Sys2Proof.Machine.execDpackA l d a s
  | .dpackEu l d a => Sys2Proof.Machine.execDpackEu l d a s
  | .dpackAu l d a => Sys2Proof.Machine.execDpackAu l d a s
  | .dunpkE l d a => Sys2Proof.Machine.execDunpkE l d a s
  | .dunpkA l d a => Sys2Proof.Machine.execDunpkA l d a s
  | .dcvb l d a => Sys2Proof.Machine.execDcvb l d a s
  | .dcvd l d a => Sys2Proof.Machine.execDcvd l d a s
  | .xlat l d a n => Sys2Proof.Machine.execXlat l d a n s
  | .xlatv l d a n => Sys2Proof.Machine.execXlatv l d a n s
  | .xltSel l n a => Sys2Proof.Machine.execXltSel l n a s
  | .luhnGen l d a => Sys2Proof.Machine.execLuhnGen l d a s
  | .luhnChk l d a => Sys2Proof.Machine.execLuhnChk l d a s
  | .m97Step l d a b => Sys2Proof.Machine.execM97Step l d a b s
  | .m97Gen l d a => Sys2Proof.Machine.execM97Gen l d a s
  | .m97Chk l d a => Sys2Proof.Machine.execM97Chk l d a s
  | .yieldSlice l => Sys2Proof.Machine.execYieldSlice l s
  | .pmcRd l d a => Sys2Proof.Machine.execPmcRd l d a s
  | .dbSqTail inst q value => Sys2Proof.Machine.execDbSqTail inst q value s
  | .descriptorFetchDone inst q fetched => Sys2Proof.Machine.execDescriptorFetchDone inst q fetched s
  | .dbCqHead inst q value => Sys2Proof.Machine.execDbCqHead inst q value s
  | .dbCancel inst q value => Sys2Proof.Machine.execDbCancel inst q value s
  | .mbReqTail inst value => Sys2Proof.Machine.execMbReqTail inst value s
  | .mbRspHead inst value => Sys2Proof.Machine.execMbRspHead inst value s
  | .frmNumLo => Sys2Proof.Machine.execFrmNumLo s
  | .twnConfLo => Sys2Proof.Machine.execTwnConfLo s
  | .frmCtrl value => Sys2Proof.Machine.execFrmCtrl value s
  | .frmLend value => Sys2Proof.Machine.execFrmLend value s
  | .twnCtrl value => Sys2Proof.Machine.execTwnCtrl value s
  | .swapNow => Sys2Proof.Machine.execSwapNow s
  | .passSwapPeriod value => Sys2Proof.Machine.execPassSwapPeriod value s
  | .passMac value => Sys2Proof.Machine.execPassMac value s
  | .fnCtrl value => Sys2Proof.Machine.execFnCtrl value s
  | .freeze => Sys2Proof.Machine.execFreeze s
  | .thaw => Sys2Proof.Machine.execThaw s
  | .freezeExpiry => Sys2Proof.Machine.execFreezeExpiry s
  | .pmcCounterLoWrite c value => Sys2Proof.Machine.execPmcCounterLoWrite c value s
  | .pmcCounterHiWrite c value => Sys2Proof.Machine.execPmcCounterHiWrite c value s
  | .pmcCounterLoRead c => Sys2Proof.Machine.execPmcCounterLoRead c s
  | .clrLane => Sys2Proof.Machine.execClrLane s
  | .clrGlobal => Sys2Proof.Machine.execClrGlobal s
  | .pmcSmpHead value => Sys2Proof.Machine.execPmcSmpHead value s
  | .registerWrite fn offset width value => Sys2Proof.Machine.execRegisterWrite fn offset width value s
  | .ping rq body => Sys2Proof.Machine.execPing rq body s
  | .instInfo rq inst => Sys2Proof.Machine.execInstInfo rq inst s
  | .mgrMsg rq slot body => Sys2Proof.Machine.execMgrMsg rq slot body s
  | .keyCreate rq generated rec => Sys2Proof.Machine.execKeyCreate rq generated rec s
  | .keyRetire rq h => Sys2Proof.Machine.execKeyRetire rq h s
  | .keyRevoke rq h => Sys2Proof.Machine.execKeyRevoke rq h s
  | .keyReplace rq h unwrap rec wrapped => Sys2Proof.Machine.execKeyReplace rq h unwrap rec wrapped s
  | .keyErase rq h => Sys2Proof.Machine.execKeyErase rq h s
  | .reclaim inst root => Sys2Proof.Machine.execReclaim inst root s
  | .keyInfo rq h outAddr outLen => Sys2Proof.Machine.execKeyInfo rq h outAddr outLen s
  | .keyNarrow rq h bits => Sys2Proof.Machine.execKeyNarrow rq h bits s
  | .keyExport rq h outAddr outLen wrap => Sys2Proof.Machine.execKeyExport rq h outAddr outLen wrap s
  | .keyImport rq parent unwrap bits wrapped => Sys2Proof.Machine.execKeyImport rq parent unwrap bits wrapped s
  | .challenge rq => Sys2Proof.Machine.execChallenge rq s
  | .challengeExpiry => Sys2Proof.Machine.execChallengeExpiry s
  | .progLoad rq id image => Sys2Proof.Machine.execProgLoad rq id image s
  | .progReplace rq id image => Sys2Proof.Machine.execProgReplace rq id image s
  | .progRemove rq id => Sys2Proof.Machine.execProgRemove rq id s
  | .progList rq outAddr outLen => Sys2Proof.Machine.execProgList rq outAddr outLen s
  | .bindAdd rq measured program measure => Sys2Proof.Machine.execBindAdd rq measured program measure s
  | .mapInstall rq ext token => Sys2Proof.Machine.execMapInstall rq ext token s
  | .mapRemove rq id => Sys2Proof.Machine.execMapRemove rq id s
  | .attest rq user outAddr outLen => Sys2Proof.Machine.execAttest rq user outAddr outLen s
  | .instCreate rq inst port share => Sys2Proof.Machine.execInstCreate rq inst port share s
  | .instRemove rq inst => Sys2Proof.Machine.execInstRemove rq inst s
  | .instReset rq inst => Sys2Proof.Machine.execInstReset rq inst s
  | .resetComplete inst => Sys2Proof.Machine.execResetComplete inst s
  | .shareSet rq inst share => Sys2Proof.Machine.execShareSet rq inst share s
  | .shrinkComplete inst => Sys2Proof.Machine.execShrinkComplete inst s
  | .fwdReply rq forward status body => Sys2Proof.Machine.execFwdReply rq forward status body s
  | .notify rq inst body => Sys2Proof.Machine.execNotify rq inst body s
  | .dirtySet rq inst en a b base len => Sys2Proof.Machine.execDirtySet rq inst en a b base len s
  | .dirtySwap rq inst => Sys2Proof.Machine.execDirtySwap rq inst s
  | .bitmapSwapComplete inst => Sys2Proof.Machine.execBitmapSwapComplete inst s
  | .migFreeze rq inst => Sys2Proof.Machine.execMigFreeze rq inst s
  | .freezeComplete inst => Sys2Proof.Machine.execFreezeComplete inst s
  | .migExport rq inst outAddr outLen target cert => Sys2Proof.Machine.execMigExport rq inst outAddr outLen target cert s
  | .migExportChunk inst => Sys2Proof.Machine.execMigExportChunk inst s
  | .migImport rq inst share package => Sys2Proof.Machine.execMigImport rq inst share package s
  | .migThaw rq inst => Sys2Proof.Machine.execMigThaw rq inst s
  | .targetKey rq outAddr outLen => Sys2Proof.Machine.execTargetKey rq outAddr outLen s
  | .jrnlSet rq base j en => Sys2Proof.Machine.execJrnlSet rq base j en s
  | .jrnlDurable rq seq chain => Sys2Proof.Machine.execJrnlDurable rq seq chain s
  | .jrnlSnap rq => Sys2Proof.Machine.execJrnlSnap rq s
  | .snapshotWrite => Sys2Proof.Machine.execSnapshotWrite s
  | .jrnlStat rq => Sys2Proof.Machine.execJrnlStat rq s
  | .restore rq first last partner entries => Sys2Proof.Machine.execRestore rq first last partner entries s
  | .journalWrite => Sys2Proof.Machine.execJournalWrite s
  | .healthReport rq outAddr outLen => Sys2Proof.Machine.execHealthReport rq outAddr outLen s
  | .fenceHold rq elem hold => Sys2Proof.Machine.execFenceHold rq elem hold s
  | .pairOffer rq target cert token => Sys2Proof.Machine.execPairOffer rq target cert token s
  | .pairAccept rq target cert token => Sys2Proof.Machine.execPairAccept rq target cert token s
  | .unpair rq token => Sys2Proof.Machine.execUnpair rq token s
  | .shadowCopyDone inst => Sys2Proof.Machine.execShadowCopyDone inst s
  | .netEndpoint rq inst en vlanEn vlan addr => Sys2Proof.Machine.execNetEndpoint rq inst en vlanEn vlan addr s
  | .netMka rq cak ckn priority passA passB xpn => Sys2Proof.Machine.execNetMka rq cak ckn priority passA passB xpn s
  | .compExport rq h count custodians token => Sys2Proof.Machine.execCompExport rq h count custodians token s
  | .compImport rq id index count len component rec token => Sys2Proof.Machine.execCompImport rq id index count len component rec token s
  | .componentExpiry import_ id => Sys2Proof.Machine.execComponentExpiry import_ id s
  | .custodianSet rq n q3 q4 keys token => Sys2Proof.Machine.execCustodianSet rq n q3 q4 keys token s
  | .gateReq rq domain action div => Sys2Proof.Machine.execGateReq rq domain action div s
  | .gateState rq => Sys2Proof.Machine.execGateState rq s
  | .domainGated domain => Sys2Proof.Machine.execDomainGated domain s
  | .powerUngateDone domain failed => Sys2Proof.Machine.execPowerUngateDone domain failed s
  | .gateDeny master domain => Sys2Proof.Machine.execGateDeny master domain s
  | .regionSet by_ ctrl idx r => Sys2Proof.Machine.execRegionSet by_ ctrl idx r s
  | .potSet by_ page count o => Sys2Proof.Machine.execPotSet by_ page count o s
  | .tagSet by_ page colours => Sys2Proof.Machine.execTagSet by_ page colours s
  | .ruleSet by_ c idx r => Sys2Proof.Machine.execRuleSet by_ c idx r s
  | .s2Set by_ addr entry => Sys2Proof.Machine.execS2Set by_ addr entry s
  | .s2Root by_ vmid root => Sys2Proof.Machine.execS2Root by_ vmid root s
  | .worldSet by_ mask => Sys2Proof.Machine.execWorldSet by_ mask s
  | .lcStatus rq => Sys2Proof.Machine.execLcStatus rq s
  | .commission rq rec proofs => Sys2Proof.Machine.execCommission rq rec proofs s
  | .decommission rq token => Sys2Proof.Machine.execDecommission rq token s
  | .recover rq token => Sys2Proof.Machine.execRecover rq token s
  | .returnUnit rq vendor challenge token => Sys2Proof.Machine.execReturnUnit rq vendor challenge token s
  | .scrap rq echo token => Sys2Proof.Machine.execScrap rq echo token s
  | .transitionRun => Sys2Proof.Machine.execTransitionRun s
  | .testUnit trim => Sys2Proof.Machine.execTestUnit trim s
  | .sealUnit keys => Sys2Proof.Machine.execSealUnit keys s
  | .idcode => Sys2Proof.Machine.execIdcode s
  | .bypass => Sys2Proof.Machine.execBypass s
  | .fwUpdate rq image token => Sys2Proof.Machine.execFwUpdate rq image token s
  | .fwActivate rq => Sys2Proof.Machine.execFwActivate rq s
  | .fwCancel rq kind token => Sys2Proof.Machine.execFwCancel rq kind token s
  | .dbgCert rq cert vendor token => Sys2Proof.Machine.execDbgCert rq cert vendor token s
  | .debugExpiry => Sys2Proof.Machine.execDebugExpiry s
  | .attestCert rq cert => Sys2Proof.Machine.execAttestCert rq cert s
  | .attestTree rq outAddr outLen => Sys2Proof.Machine.execAttestTree rq outAddr outLen s
  | .tamperConfig rq cfg token => Sys2Proof.Machine.execTamperConfig rq cfg token s
  | .coldResetRelease inRange mem flash otp kat => Sys2Proof.Machine.execColdResetRelease inRange mem flash otp kat s
  | .resetNFall => Sys2Proof.Machine.execResetNFall s
  | .pwrGoodFall => Sys2Proof.Machine.execPwrGoodFall s
  | .powerFailNFall => Sys2Proof.Machine.execPowerFailNFall s
  | .supplyDetectorTrip supply => Sys2Proof.Machine.execSupplyDetectorTrip supply s
  | .powerFailSequence => Sys2Proof.Machine.execPowerFailSequence s
  | .restartAfterQuiescence otp kat => Sys2Proof.Machine.execRestartAfterQuiescence otp kat s
  | .thermalTrip sensor tj => Sys2Proof.Machine.execThermalTrip sensor tj s
  | .sysClkLoss => Sys2Proof.Machine.execSysClkLoss s
  | .holdoverExpiry => Sys2Proof.Machine.execHoldoverExpiry s
  | .tamperTrip code => Sys2Proof.Machine.execTamperTrip code s
  | .vbatLow => Sys2Proof.Machine.execVbatLow s
  | .batterySwitchover onBattery => Sys2Proof.Machine.execBatterySwitchover onBattery s
  | .secondsTick => Sys2Proof.Machine.execSecondsTick s
  | .perstAssert p => Sys2Proof.Machine.execPerstAssert p s
  | .perstRelease p => Sys2Proof.Machine.execPerstRelease p s
  | .pcieLinkDown p => Sys2Proof.Machine.execPcieLinkDown p s
  | .pcieLinkUp p rate width => Sys2Proof.Machine.execPcieLinkUp p rate width s
  | .busMasterEnableChange fn p on => Sys2Proof.Machine.execBusMasterEnableChange fn p on s
  | .vfFlr inst => Sys2Proof.Machine.execVfFlr inst s
  | .pfFlr p => Sys2Proof.Machine.execPfFlr p s
  | .instance0PortMove => Sys2Proof.Machine.execInstance0PortMove s
  | .twinFrameMarker l offset => Sys2Proof.Machine.execTwinFrameMarker l offset s
  | .twinFrameBody l part => Sys2Proof.Machine.execTwinFrameBody l part s
  | .twinFrameExchange l x => Sys2Proof.Machine.execTwinFrameExchange l x s
  | .twinFrameReplication l entries => Sys2Proof.Machine.execTwinFrameReplication l entries s
  | .twinFrameBulk l inst data done => Sys2Proof.Machine.execTwinFrameBulk l inst data done s
  | .twinFramePairing l step body => Sys2Proof.Machine.execTwinFramePairing l step body s
  | .twinFrameRetry l channel firstMissing => Sys2Proof.Machine.execTwinFrameRetry l channel firstMissing s
  | .heartbeatLoss => Sys2Proof.Machine.execHeartbeatLoss s
  | .adoption => Sys2Proof.Machine.execAdoption s
  | .splitResync => Sys2Proof.Machine.execSplitResync s
  | .resyncComplete => Sys2Proof.Machine.execResyncComplete s
  | .ethernetFrameRx passB macsec sci an pn header cipher icv dst => Sys2Proof.Machine.execEthernetFrameRx passB macsec sci an pn header cipher icv dst s
  | .mkpduRx passB icv ckn peer sak latest => Sys2Proof.Machine.execMkpduRx passB icv ckn peer sak latest s
  | .neighbourSolicitation passB target src => Sys2Proof.Machine.execNeighbourSolicitation passB target src s
  | .echoRequest passB dst payload => Sys2Proof.Machine.execEchoRequest passB dst payload s
  | .nernaoshOpen d endpoint => Sys2Proof.Machine.execNernaoshOpen d endpoint s
  | .nernaoshRequest d => Sys2Proof.Machine.execNernaoshRequest d s
  | .nernaoshAck d => Sys2Proof.Machine.execNernaoshAck d s
  | .nernaoshClose d => Sys2Proof.Machine.execNernaoshClose d s
  | .nernaoshPing d => Sys2Proof.Machine.execNernaoshPing d s
  | .nernaoshRetransmit inst session => Sys2Proof.Machine.execNernaoshRetransmit inst session s
  | .sessionIdleTimeout inst session => Sys2Proof.Machine.execSessionIdleTimeout inst session s
  | .passSwitchEnd => Sys2Proof.Machine.execPassSwitchEnd s
  | .standbyTestWindow errors => Sys2Proof.Machine.execStandbyTestWindow errors s
  | .passSwapDue => Sys2Proof.Machine.execPassSwapDue s
  | .passRevert => Sys2Proof.Machine.execPassRevert s
  | .hello c seq encapKey nt check => Sys2Proof.Machine.execHello c seq encapKey nt check s
  | .login c seq index alg sig check => Sys2Proof.Machine.execLogin c seq index alg sig check s
  | .custData c seq payload check => Sys2Proof.Machine.execCustData c seq payload check s
  | .custodianAck c seq acked check => Sys2Proof.Machine.execCustodianAck c seq acked check s
  | .bye c seq check => Sys2Proof.Machine.execBye c seq check s
  | .custodianResend c seq => Sys2Proof.Machine.execCustodianResend c seq s
  | .custodianSessionTimeout c => Sys2Proof.Machine.execCustodianSessionTimeout c s
  | .selfTestPiece elem full passed => Sys2Proof.Machine.execSelfTestPiece elem full passed s
  | .forcedTest elem full => Sys2Proof.Machine.execForcedTest elem full s
  | .marchTest engine region passed => Sys2Proof.Machine.execMarchTest engine region passed s
  | .pkeOperationDone e check => Sys2Proof.Machine.execPkeOperationDone e check s
  | .undefinedInstruction l word => Sys2Proof.Machine.execUndefinedInstruction l word s
  | .mailboxTypeUnassigned rq mtype => Sys2Proof.Machine.execMailboxTypeUnassigned rq mtype s
  | .twinLinkUp latency => Sys2Proof.Machine.execTwinLinkUp latency s
  | .twinLinkDown => Sys2Proof.Machine.execTwinLinkDown s
  | .twinCodewordError channel => Sys2Proof.Machine.execTwinCodewordError channel s
  | .passLinkUp passB => Sys2Proof.Machine.execPassLinkUp passB s
  | .pcsLockLoss passB => Sys2Proof.Machine.execPcsLockLoss passB s
  | .sysClkReturn => Sys2Proof.Machine.execSysClkReturn s
  | .batteryDomainPowerLoss => Sys2Proof.Machine.execBatteryDomainPowerLoss s
  | .hollowWatchdogServe => Sys2Proof.Machine.execHollowWatchdogServe s
  | .hollowCoreFault core => Sys2Proof.Machine.execHollowCoreFault core s
  | .mailboxHollowTimeout rq mtype => Sys2Proof.Machine.execMailboxHollowTimeout rq mtype s
  | .twinPathTestDone ownFault => Sys2Proof.Machine.execTwinPathTestDone ownFault s
  | .repairedUnitRejoin passed => Sys2Proof.Machine.execRepairedUnitRejoin passed s
  | .fwActivateRestart => Sys2Proof.Machine.execFwActivateRestart s
  | .mkaHello passB => Sys2Proof.Machine.execMkaHello passB s
  | .vfEnableChange p on numVfs => Sys2Proof.Machine.execVfEnableChange p on numVfs s
  | .msixUnmask fn p vector => Sys2Proof.Machine.execMsixUnmask fn p vector s
  | .debuggerAccess op => Sys2Proof.Machine.execDebuggerAccess op s
  | .dramScrub channel corrected => Sys2Proof.Machine.execDramScrub channel corrected s

end Sys2Proof.Machine
end

