-- ==== Sys2Proof/WellFormed.lean ====
section
/-! DEFINITION. Well-formed commands: operands within the widths their fields have, instance, job and node numbers the unit can have, lane instruction forms that are no other row. -/

namespace Sys2Proof

/-- A number below a bound. -/
def below (m n : Nat) : Bool := decide (n < m)

/-- A field of 8 bits. -/
def u8 (n : Nat) : Bool := below (2 ^ 8) n

/-- A field of 16 bits. -/
def u16 (n : Nat) : Bool := below (2 ^ 16) n

/-- A field of 32 bits. -/
def u32 (n : Nat) : Bool := below (2 ^ 32) n

/-- A field of 64 bits. -/
def u64 (n : Nat) : Bool := below (2 ^ 64) n

/-- An instance ID (R294). -/
def instOk (n : Nat) : Bool := below 1024 n

/-- A job slot (R3). -/
def slotOk (n : Nat) : Bool := below 16384 n

/-- A node index (R253). -/
def nodeOk (n : Nat) : Bool := below (2 ^ 34) n

/-- A generation of a node (R253). -/
def versionOk (n : Nat) : Bool := below (2 ^ 32) n

/-- A domain number as its field holds it (Table 09-16). -/
def domainOk (n : Nat) : Bool := below 256 n

/-- A master ID (R332). -/
def masterOk (n : Nat) : Bool := below 128 n

/-- A physical address (R334). -/
def physOk (n : Nat) : Bool := below (2 ^ 40) n

/-- A 4 KiB page number (R337). -/
def pageOk (n : Nat) : Bool := below (2 ^ 28) n

/-- A frame cycle (R15). -/
def cycleOk (n : Nat) : Bool := below 12000 n

/-- The sender of a request exists (R294, R504). -/
def srcOk : Src → Bool
  | .fn n => instOk n
  | .port _ => true

/-- A function named by an event: an instance, or the physical function. -/
def fnOk : Option Nat → Bool
  | some i => instOk i
  | none => true

/-- CRW to register 0x10E is the row JEND (R92, R130). -/
def crwOk (n : BitVec 12) : Bool := n != 0x10E

/-- KCALL 0 is the row END (R130). -/
def kcallOk (imm : BitVec 16) : Bool := imm != 0

/-- TLBFL has modes 0 to 2 (Table 03-16). -/
def tlbflOk (mode : BitVec 2) : Bool := mode != 3

/-- A message body fits its slot (R306). -/
def bodyOk (b : Bytes) : Bool := below 49 b.length

/-- The command is well formed. -/
def Instr.wf : Instr → Bool
  | .frameStart _ => true
  | .thermalFallback => true
  | .alignWarn => true
  | .frameSyncInEdge _ => true
  | .stagedCommit => true
  | .reservationCommit inst node => instOk inst && nodeOk node
  | .grantCompute => true
  | .admission => true
  | .sliceArbitration => true
  | .sliceStart _ => true
  | .sliceEnd _ => true
  | .tailStart => true
  | .stepLimit => true
  | .deadlineReached => true
  | .carryBlockRequests => true
  | .contextSave => true
  | .checkpointSeal => true
  | .twinExchange => true
  | .completionRelease => true
  | .strataFlush => true
  | .stallStart inst _ => instOk inst
  | .stallEnd inst _ => instOk inst
  | .mbxTimeout forward => u32 forward
  | .engineTimeout _ => true
  | .pkeMicrostepWatchdog _ => true
  | .fenceLate master => masterOk master
  | .hollowWatchdogExpiry => true
  | .hollowRestartComplete _ => true
  | .add _ _ _ _ => true
  | .sub _ _ _ _ => true
  | .and _ _ _ _ => true
  | .or _ _ _ _ => true
  | .xor _ _ _ _ => true
  | .andn _ _ _ _ => true
  | .sll _ _ _ _ => true
  | .srl _ _ _ _ => true
  | .sra _ _ _ _ => true
  | .ror _ _ _ _ => true
  | .slt _ _ _ _ => true
  | .sltu _ _ _ _ => true
  | .min _ _ _ _ => true
  | .max _ _ _ _ => true
  | .minu _ _ _ _ => true
  | .maxu _ _ _ _ => true
  | .sel _ _ _ _ => true
  | .mul _ _ _ _ => true
  | .mulh _ _ _ _ => true
  | .mulhu _ _ _ _ => true
  | .div _ _ _ _ => true
  | .divu _ _ _ _ => true
  | .rem _ _ _ _ => true
  | .remu _ _ _ _ => true
  | .clz _ _ _ => true
  | .ctz _ _ _ => true
  | .popc _ _ _ => true
  | .bswap _ _ _ => true
  | .addi _ _ _ _ => true
  | .andi _ _ _ _ => true
  | .ori _ _ _ _ => true
  | .xori _ _ _ _ => true
  | .slti _ _ _ _ => true
  | .sltiu _ _ _ _ => true
  | .slli _ _ _ _ => true
  | .srli _ _ _ _ => true
  | .srai _ _ _ _ => true
  | .rori _ _ _ _ => true
  | .qset _ _ _ _ => true
  | .qins _ _ _ _ => true
  | .lb _ _ _ _ => true
  | .lh _ _ _ _ => true
  | .lw _ _ _ _ => true
  | .ld _ _ _ _ => true
  | .lbs _ _ _ _ => true
  | .lhs _ _ _ _ => true
  | .lws _ _ _ _ => true
  | .sb _ _ _ _ => true
  | .sh _ _ _ _ => true
  | .sw _ _ _ _ => true
  | .sd _ _ _ _ => true
  | .lv _ _ _ _ => true
  | .sv _ _ _ _ => true
  | .atmAdd _ _ _ _ => true
  | .atmSwap _ _ _ _ => true
  | .atmAnd _ _ _ _ => true
  | .atmOr _ _ _ _ => true
  | .atmXor _ _ _ _ => true
  | .atmCmpx _ _ _ _ => true
  | .tagr _ _ _ => true
  | .tagw _ _ _ => true
  | .pcset _ _ _ _ => true
  | .pcget _ _ _ => true
  | .jeq _ _ _ _ => true
  | .jne _ _ _ _ => true
  | .jlt _ _ _ _ => true
  | .jge _ _ _ _ => true
  | .jlo _ _ _ _ => true
  | .jhs _ _ _ _ => true
  | .call _ _ _ => true
  | .callr _ _ _ _ => true
  | .vmov _ _ _ => true
  | .vxor _ _ _ _ => true
  | .vand _ _ _ _ => true
  | .vor _ _ _ _ => true
  | .vandn _ _ _ _ => true
  | .vzero _ _ => true
  | .vbswap _ _ _ => true
  | .vins _ _ _ _ => true
  | .vext _ _ _ _ => true
  | .veq _ _ _ _ => true
  | .kmov _ _ _ => true
  | .kclr _ _ => true
  | .kinf _ _ _ => true
  | .crr _ _ _ => true
  | .crw _ n _ => crwOk n
  | .jend _ _ => true
  | .kcall _ imm => kcallOk imm
  | .endJob _ => true
  | .kret _ => true
  | .fence _ _ => true
  | .tlbfl _ _ mode => tlbflOk mode
  | .dstop _ _ => true
  | .blkEnc _ _ _ _ => true
  | .blkDec _ _ _ _ => true
  | .blkEncT _ _ _ _ => true
  | .blkEncCtr _ _ _ _ => true
  | .waitb _ _ => true
  | .blockDispatch cycle => cycleOk cycle
  | .blockResult _ _ => true
  | .keyScheduleLoaded _ inst node version _ => instOk inst && nodeOk node && versionOk version
  | .derivationDone _ inst node version => instOk inst && nodeOk node && versionOk version
  | .clmulLl _ _ _ _ => true
  | .clmulLh _ _ _ _ => true
  | .clmulHl _ _ _ _ => true
  | .clmulHh _ _ _ _ => true
  | .gfmul _ _ _ _ => true
  | .gfmac _ _ _ _ => true
  | .xtsmul _ _ _ => true
  | .ctrSet _ _ _ => true
  | .ctrLim _ _ _ _ => true
  | .ctrNext _ _ _ => true
  | .ctrGet _ _ _ => true
  | .ctrRem _ _ _ => true
  | .ctrInv _ _ _ _ => true
  | .siPull _ _ _ => true
  | .siPullg _ _ _ => true
  | .siRem _ _ _ => true
  | .soPush _ _ _ => true
  | .soPushg _ _ _ => true
  | .stxE _ _ _ _ => true
  | .stxD _ _ _ _ => true
  | .soCnt _ _ _ => true
  | .soFin _ _ => true
  | .soTag _ _ _ _ => true
  | .hostReadCompletion slot _ => slotOk slot
  | .hshInit _ _ _ => true
  | .hshKinit _ _ _ _ => true
  | .hshAbs _ _ _ _ => true
  | .hshAbsp _ _ _ _ => true
  | .hshSqz _ _ _ _ => true
  | .hshWait _ _ => true
  | .hshFree _ _ => true
  | .hashChunkDone _ => true
  | .drbgCallDone _ => true
  | .seedConditioned _ _ => true
  | .drbgReseed _ => true
  | .entropyTestFail _ _ failures => u32 failures
  | .pkeCall _ _ _ => true
  | .pkeWait _ _ => true
  | .pkeAbort _ _ => true
  | .pkeAbortComplete job => slotOk job
  | .pkeFree _ => true
  | .pkeStage _ => true
  | .pkeNonce _ => true
  | .modmul _ => true
  | .modadd _ => true
  | .modsub _ => true
  | .modexp _ => true
  | .modexpPub _ => true
  | .modinv _ => true
  | .rsaSign _ => true
  | .rsaVerify _ => true
  | .rsaDecrypt _ => true
  | .rsaEncrypt _ => true
  | .rsaKeygen _ => true
  | .ecdsaSign _ => true
  | .ecdsaVerify _ => true
  | .ecdh _ => true
  | .ecKeygen _ => true
  | .validate _ => true
  | .eddsaSign _ => true
  | .eddsaVerify _ => true
  | .xdh _ => true
  | .eddsaKeygen _ => true
  | .xdhKeygen _ => true
  | .mlKemKeygen _ => true
  | .mlKemEncaps _ => true
  | .mlKemDecaps _ => true
  | .mlDsaKeygen _ => true
  | .mlDsaSign _ => true
  | .mlDsaVerify _ => true
  | .xmssKeygen _ => true
  | .xmssSign _ => true
  | .xmssVerify _ => true
  | .slhDsaVerify _ => true
  | .xcheckRepeatStart job => slotOk job
  | .pkeOperationDone _ _ => true
  | .dld _ _ _ _ => true
  | .dstb _ _ _ _ => true
  | .dadd _ _ _ _ => true
  | .dsub _ _ _ _ => true
  | .dcmp _ _ _ _ => true
  | .dpackE _ _ _ => true
  | .dpackA _ _ _ => true
  | .dpackEu _ _ _ => true
  | .dpackAu _ _ _ => true
  | .dunpkE _ _ _ => true
  | .dunpkA _ _ _ => true
  | .dcvb _ _ _ => true
  | .dcvd _ _ _ => true
  | .xlat _ _ _ _ => true
  | .xlatv _ _ _ _ => true
  | .xltSel _ _ _ => true
  | .luhnGen _ _ _ => true
  | .luhnChk _ _ _ => true
  | .m97Step _ _ _ _ => true
  | .m97Gen _ _ _ => true
  | .m97Chk _ _ _ => true
  | .yieldSlice _ => true
  | .pmcRd _ _ _ => true
  | .dbSqTail inst _ _ => instOk inst
  | .descriptorFetchDone inst _ _ => instOk inst
  | .dbCqHead inst _ _ => instOk inst
  | .dbCancel inst _ _ => instOk inst
  | .mbReqTail inst _ => instOk inst
  | .mbRspHead inst _ => instOk inst
  | .frmNumLo => true
  | .twnConfLo => true
  | .frmCtrl _ => true
  | .frmLend _ => true
  | .twnCtrl _ => true
  | .swapNow => true
  | .passSwapPeriod _ => true
  | .passMac _ => true
  | .fnCtrl _ => true
  | .freeze => true
  | .thaw => true
  | .freezeExpiry => true
  | .pmcCounterLoWrite _ _ => true
  | .pmcCounterHiWrite _ _ => true
  | .pmcCounterLoRead _ => true
  | .clrLane => true
  | .clrGlobal => true
  | .pmcSmpHead _ => true
  | .registerWrite fn offset width _ => fnOk fn && u32 offset && u16 width
  | .ping rq body => srcOk rq.src && bodyOk body
  | .instInfo rq inst => srcOk rq.src && instOk inst
  | .mgrMsg rq _ body => srcOk rq.src && bodyOk body
  | .keyCreate rq _ _ => srcOk rq.src
  | .keyRetire rq _ => srcOk rq.src
  | .keyRevoke rq _ => srcOk rq.src
  | .keyReplace rq _ _ _ _ => srcOk rq.src
  | .keyErase rq _ => srcOk rq.src
  | .reclaim inst root => instOk inst && nodeOk root
  | .keyInfo rq _ _ outLen => srcOk rq.src && u32 outLen
  | .keyNarrow rq _ _ => srcOk rq.src
  | .keyExport rq _ _ outLen _ => srcOk rq.src && u32 outLen
  | .keyImport rq _ _ _ _ => srcOk rq.src
  | .challenge rq => srcOk rq.src
  | .challengeExpiry => true
  | .progLoad rq id _ => srcOk rq.src && u16 id
  | .progReplace rq id _ => srcOk rq.src && u16 id
  | .progRemove rq id => srcOk rq.src && u16 id
  | .progList rq _ outLen => srcOk rq.src && u32 outLen
  | .bindAdd rq _ program _ => srcOk rq.src && u16 program
  | .mapInstall rq _ _ => srcOk rq.src
  | .mapRemove rq id => srcOk rq.src && u16 id
  | .attest rq _ _ outLen => srcOk rq.src && u32 outLen
  | .instCreate rq inst port _ => srcOk rq.src && instOk inst && u8 port
  | .instRemove rq inst => srcOk rq.src && instOk inst
  | .instReset rq inst => srcOk rq.src && instOk inst
  | .resetComplete inst => instOk inst
  | .shareSet rq inst _ => srcOk rq.src && instOk inst
  | .shrinkComplete inst => instOk inst
  | .fwdReply rq forward _ body => srcOk rq.src && u32 forward && bodyOk body
  | .notify rq inst body => srcOk rq.src && instOk inst && bodyOk body
  | .dirtySet rq inst _ _ _ base len => srcOk rq.src && instOk inst && u64 base && u64 len
  | .dirtySwap rq inst => srcOk rq.src && instOk inst
  | .bitmapSwapComplete inst => instOk inst
  | .migFreeze rq inst => srcOk rq.src && instOk inst
  | .freezeComplete inst => instOk inst
  | .migExport rq inst _ outLen _ _ => srcOk rq.src && instOk inst && u32 outLen
  | .migExportChunk inst => instOk inst
  | .migImport rq inst _ _ => srcOk rq.src && instOk inst
  | .migThaw rq inst => srcOk rq.src && instOk inst
  | .targetKey rq _ outLen => srcOk rq.src && u32 outLen
  | .jrnlSet rq _ j _ => srcOk rq.src && u8 j
  | .jrnlDurable rq seq _ => srcOk rq.src && u64 seq
  | .jrnlSnap rq => srcOk rq.src
  | .snapshotWrite => true
  | .jrnlStat rq => srcOk rq.src
  | .restore rq _ _ _ _ => srcOk rq.src
  | .journalWrite => true
  | .healthReport rq _ outLen => srcOk rq.src && u32 outLen
  | .fenceHold rq elem _ => srcOk rq.src && u16 elem
  | .pairOffer rq _ _ _ => srcOk rq.src
  | .pairAccept rq _ _ _ => srcOk rq.src
  | .unpair rq _ => srcOk rq.src
  | .shadowCopyDone inst => instOk inst
  | .netEndpoint rq inst _ _ _ _ => srcOk rq.src && instOk inst
  | .netMka rq _ _ priority _ _ _ => srcOk rq.src && u8 priority
  | .compExport rq _ count _ _ => srcOk rq.src && u32 count
  | .compImport rq id index count len _ _ _ => srcOk rq.src && u16 id && u8 index && u32 count && u64 len
  | .componentExpiry _ id => u16 id
  | .custodianSet rq n q3 q4 _ _ => srcOk rq.src && u8 n && u8 q3 && u8 q4
  | .gateReq rq domain action dv => srcOk rq.src && domainOk domain && below 4 action && below 4 dv
  | .gateState rq => srcOk rq.src
  | .domainGated domain => domainOk domain
  | .powerUngateDone domain _ => domainOk domain
  | .gateDeny _ domain => domainOk domain
  | .regionSet _ _ _ _ => true
  | .potSet _ page count _ => pageOk page && u32 count
  | .tagSet _ page _ => pageOk page
  | .ruleSet _ _ _ _ => true
  | .s2Set _ addr _ => physOk addr
  | .s2Root _ vmid _ => below 2048 vmid
  | .worldSet _ _ => true
  | .lcStatus rq => srcOk rq.src
  | .commission rq _ _ => srcOk rq.src
  | .decommission rq _ => srcOk rq.src
  | .recover rq _ => srcOk rq.src
  | .returnUnit rq _ _ _ => srcOk rq.src
  | .scrap rq _ _ => srcOk rq.src
  | .transitionRun => true
  | .testUnit _ => true
  | .sealUnit _ => true
  | .idcode => true
  | .bypass => true
  | .fwUpdate rq _ _ => srcOk rq.src
  | .fwActivate rq => srcOk rq.src
  | .fwCancel rq kind _ => srcOk rq.src && u8 kind
  | .dbgCert rq _ _ _ => srcOk rq.src
  | .debugExpiry => true
  | .attestCert rq _ => srcOk rq.src
  | .attestTree rq _ outLen => srcOk rq.src && u32 outLen
  | .tamperConfig rq _ _ => srcOk rq.src
  | .coldResetRelease _ _ _ _ _ => true
  | .resetNFall => true
  | .pwrGoodFall => true
  | .powerFailNFall => true
  | .supplyDetectorTrip supply => below 7 supply
  | .powerFailSequence => true
  | .restartAfterQuiescence _ _ => true
  | .thermalTrip sensor _ => u8 sensor
  | .sysClkLoss => true
  | .holdoverExpiry => true
  | .tamperTrip code => u8 code
  | .vbatLow => true
  | .batterySwitchover _ => true
  | .secondsTick => true
  | .perstAssert _ => true
  | .perstRelease _ => true
  | .pcieLinkDown _ => true
  | .pcieLinkUp _ rate width => below 6 rate && u16 width
  | .busMasterEnableChange fn _ _ => fnOk fn
  | .vfFlr inst => instOk inst
  | .pfFlr _ => true
  | .instance0PortMove => true
  | .twinFrameMarker _ _ => true
  | .twinFrameBody _ _ => true
  | .twinFrameExchange _ _ => true
  | .twinFrameReplication _ _ => true
  | .twinFrameBulk _ inst _ done => instOk inst && below 1001 done
  | .twinFramePairing _ step body => u8 step && bodyOk body
  | .twinFrameRetry _ channel firstMissing => below 8 channel && u64 firstMissing
  | .heartbeatLoss => true
  | .adoption => true
  | .splitResync => true
  | .resyncComplete => true
  | .ethernetFrameRx _ _ sci an pn _ _ _ _ => u64 sci && below 4 an && u64 pn
  | .mkpduRx _ _ _ peer _ latest => u16 peer && u64 latest
  | .neighbourSolicitation _ _ _ => true
  | .echoRequest _ _ _ => true
  | .nernaoshOpen _ _ => true
  | .nernaoshRequest _ => true
  | .nernaoshAck _ => true
  | .nernaoshClose _ => true
  | .nernaoshPing _ => true
  | .nernaoshRetransmit inst _ => instOk inst
  | .sessionIdleTimeout inst _ => instOk inst
  | .passSwitchEnd => true
  | .standbyTestWindow errors => u32 errors
  | .passSwapDue => true
  | .passRevert => true
  | .hello _ seq _ _ _ => u64 seq
  | .login _ seq index alg _ _ => u64 seq && u8 index && u8 alg
  | .custData _ seq _ _ => u64 seq
  | .custodianAck _ seq acked _ => u64 seq && u64 acked
  | .bye _ seq _ => u64 seq
  | .custodianResend _ seq => u64 seq
  | .custodianSessionTimeout _ => true
  | .selfTestPiece _ _ _ => true
  | .forcedTest _ _ => true
  | .marchTest _ _ _ => true
  | .undefinedInstruction _ _ => true
  | .mailboxTypeUnassigned rq _ => srcOk rq.src
  | .twinLinkUp latency => u16 latency
  | .twinLinkDown => true
  | .twinCodewordError channel => below 8 channel
  | .passLinkUp _ => true
  | .pcsLockLoss _ => true
  | .sysClkReturn => true
  | .batteryDomainPowerLoss => true
  | .hollowWatchdogServe => true
  | .hollowCoreFault _ => true
  | .mailboxHollowTimeout rq _ => srcOk rq.src
  | .twinPathTestDone _ => true
  | .repairedUnitRejoin _ => true
  | .fwActivateRestart => true
  | .mkaHello _ => true
  | .vfEnableChange _ _ numVfs => u16 numVfs
  | .msixUnmask fn _ vector => fnOk fn && below 2048 vector
  | .debuggerAccess _ => true
  | .dramScrub _ corrected => u32 corrected

end Sys2Proof
end

