-- ==== Sys2Proof/Safety.lean ====
section
/-! DEFINITION. The terms claims use: what completing means, what a safe step is, what one lane's instruction may touch, memory before and after a store. -/

namespace Sys2Proof.Machine

/-- A command completes: it is answered by a next state with the property given. -/
def completes (c : Instr) (s : State) (p : State → Prop) : Prop := ∃ t, exec c s = .next t ∧ p t

/-- Memory lists its bytes in the canonical form. -/
def State.memOk (s : State) : Prop := Memory.wf s.mem = true

/-- A step neither faults nor is refused. -/
def stepSafe (s : State) : Prop := ∃ t, step s = .next t

/-! ## Instructions on a lane -/

/-- Lane l issues its next instruction from job j with bank c: the fetch meets no trap and no results carried over from an earlier slice are outstanding. -/
def State.issues (s : State) (l : LaneId) (j : Job) (c : Ctx) : Prop :=
  s.active l = some (j, c) ∧ s.fetchMeets l j c = none ∧ s.carriedOf j.slot = false

/-- None of these block registers of the job waits for a block result (R143). -/
def State.clearOf (s : State) (j : Job) (rs : List VReg) : Prop := ∀ r ∈ rs, s.pendingV j.slot r = false

/-- The bank with the PC at the next instruction. -/
def Ctx.next (c : Ctx) : Ctx := { c with pc := c.pc + 4 }

/-- A trap is taken at this level: at K level only while IE is 1, else it is a double fault (R127). -/
def Ctx.takesTraps (c : Ctx) : Prop := c.level = .u ∨ c.ie = true

/-- Lane x is lane y but for what an instruction may touch: the bank, the translation and data caches, the colours of local store, the cycle reached, the entry of the last trap, the debugger's single step. -/
def Lane.sameSlice (x y : Lane) : Prop :=
  x = { y with bank := x.bank, tlb := x.tlb, walks := x.walks, dcache := x.dcache, tags := x.tags, now := x.now, entry := x.entry, stepping := x.stepping }

/-- Only lane l, its performance counters, samples and free values differ; on lane l only what an instruction may touch. -/
def onlyLane (s t : State) (l : LaneId) : Prop :=
  t = { s with lanes := t.lanes, pmc := t.pmc, out := t.out, free := t.free } ∧
  t.pmc.inst = s.pmc.inst ∧ t.pmc.glob = s.pmc.glob ∧
  (∀ k, k ≠ l → t.lane k = s.lane k) ∧ (t.lane l).sameSlice (s.lane l)

/-- The instruction retires on lane l and leaves the bank given; nothing else of the machine differs but counts and samples. -/
def retires (i : Instr) (s : State) (l : LaneId) (b : Ctx) : Prop :=
  completes i s (fun t => t.lane l = { s.lane l with bank := b, stepping := false, entry := none } ∧ onlyLane s t l)

/-- The instruction traps on lane l at PC epc with the cause and, where the spec gives them, KIND, INFO and FADDR (R124, R125). -/
def trapsAt (i : Instr) (s : State) (l : LaneId) (c : Ctx) (cause : BitVec 8) (epc : Word) (more : Ctx → Prop) : Prop :=
  completes i s (fun t =>
    let b := (t.lane l).bank
    b.kepc = epc ∧ b.pl = c.level ∧ b.level = .k ∧ b.ie = false ∧ fsynCause b.fsyn = cause ∧
    b.pc = c.kvec + (if c.level = .u then 0 else 0x100) ∧
    b = { c with kepc := b.kepc, pl := b.pl, level := b.level, ie := b.ie, fsyn := b.fsyn, faddr := b.faddr, pc := b.pc,
                 refusedKey := b.refusedKey } ∧
    more b ∧ (∀ k, k ≠ l → t.lane k = s.lane k))

/-- Only lane l and the job of a slot differ, as onlyLane allows on the lane, with counts, samples and outputs. -/
def onlyLaneJob (s t : State) (l : LaneId) (slot : Nat) : Prop :=
  t = { s with lanes := t.lanes, pmc := t.pmc, out := t.out, free := t.free, jobs := t.jobs } ∧
  (∀ k, k ≠ l → t.lane k = s.lane k) ∧
  (t.lane l).sameSlice (s.lane l) ∧
  (∀ k, k ≠ slot → t.job k = s.job k)

/-- The instruction retires on lane l with the bank given and leaves the job of the slot as given; nothing else differs but counts, samples and free values. -/
def retiresJob (i : Instr) (s : State) (l : LaneId) (b : Ctx) (slot : Nat) (j : Job) : Prop :=
  completes i s (fun t => (t.lane l).bank = b ∧ t.job slot = some j ∧ onlyLaneJob s t l slot)

/-- Job k is job j but for how far the movers have been asked to read: the read-ahead is kept full as the job takes bytes (R56, R60). -/
def Job.fed (j k : Job) : Prop :=
  k = { j with ports := { j.ports with asked := k.ports.asked, srcWalk := { j.ports.srcWalk with reading := k.ports.srcWalk.reading },
                                       dstWalk := { j.ports.dstWalk with reading := k.ports.dstWalk.reading } } }

/-- The instruction retires on lane l with the bank given and leaves the job of the slot as given, its movers' reads apart; nothing else differs but counts, samples, the reads sent and free values. -/
def retiresFed (i : Instr) (s : State) (l : LaneId) (b : Ctx) (slot : Nat) (j : Job) : Prop :=
  completes i s (fun t => (t.lane l).bank = b ∧ (∃ k, t.job slot = some k ∧ j.fed k) ∧ onlyLaneJob s t l slot)

/-- The next instruction of lane l waits: the state is unchanged. -/
def waits (i : Instr) (s : State) : Prop := exec i s = .next s

/-- Memory m' is m with the bytes bs stored from address a: every other byte reads as before. -/
def storedAt (m m' : List Host.Cell) (a : Nat) (bs : Bytes) : Prop :=
  ∀ x, Memory.read m' x = if a ≤ x ∧ x < a + bs.length then bs.getD (x - a) 0 else Memory.read m x

/-! ## Requests (R305, R310) -/

/-- The unit consumes a request and does not turn it away: t is the state in which it is given its effect. Frames tick and the Hollow serves. -/
def State.takesUp (s : State) (rq : Req) (mtype : Nat) (t : State) : Prop :=
  s.consume rq mtype = some t ∧ t.turnedAway rq mtype = none ∧ t.ticks = true ∧ t.hollowUp = true

/-- The commit of the frame is due and everything staged stood staged at cycle 0. -/
def State.atCommit (s : State) : Prop := s.works = true ∧ s.frame.cycle = 0 ∧ s.cut = s.cutHere

/-- The change, alone, is staged and commits at the commit now due; no role, protection or debug change goes with it. -/
def State.commitsOnly (s : State) (c : Change) : Prop :=
  s.atCommit ∧ s.staged = [c] ∧ s.mayCommit c = true ∧ s.prot.log = [] ∧ s.prot.worldStaged = none ∧ s.prot.gates = [] ∧ s.prot.ungates = [] ∧
  s.prot.dbg = 0 ∧ s.prot.dbgEnding = false ∧ s.twin.returnEn = false ∧ s.twin.sent = [] ∧ s.passes.swapNow = false ∧ s.passes.switchDue = none

/-- A commit at which nothing else of these kinds is due: no staged change, return, switch or debug change. -/
def State.quietCommit (s : State) : Prop :=
  s.atCommit ∧ s.staged = [] ∧ s.prot.dbg = 0 ∧ s.prot.dbgEnding = false ∧ s.twin.returnEn = false ∧ s.twin.sent = [] ∧
  s.passes.swapNow = false ∧ s.passes.switchDue = none

/-- Among the replies of t stands a final one with these contents. -/
def State.hasReply (t : State) (d : Dest) (mtype : Nat) (st : BitVec 8) (tag : BitVec 16) (body : Bytes) : Prop :=
  ∃ r ∈ t.mail.replies, r.dest = d ∧ r.mtype = mtype ∧ r.status = st ∧ r.tag = tag ∧ r.body = body ∧ r.notice = false ∧ r.interim = false

/-! ## The network (R206, R397) -/

/-- The active pass sends: it is chosen and up, and the active SA has a packet number left. -/
def State.canSend (s : State) : Prop :=
  s.passes.chosen = true ∧ s.twin.silent = false ∧ (s.pass s.passes.activeB).up = true ∧
  ∃ (an : Fin 4) (a : TxSa), (s.pass s.passes.activeB).txAn = some an ∧ (s.pass s.passes.activeB).txSa[an] = some a ∧ a.next < (s.pass s.passes.activeB).pnEnd

/-- From s to t one frame goes out, protected under the active SA of the active pass (R205, R397). -/
def State.sends (s t : State) (o : Output) : Prop :=
  ∃ (an : Fin 4) (a : TxSa), (s.pass s.passes.activeB).txAn = some an ∧ (s.pass s.passes.activeB).txSa[an] = some a ∧
    t.out = s.out ++ [(s.pass s.passes.activeB).protect s.net an a o] ∧
    (t.pass s.passes.activeB).txSa[an] = some { a with next := a.next + 1 }

/-- A datagram is one of an open session, formed as the spec has it, its tag good: the session is x. -/
def State.validIn (s : State) (dtype : Nat) (d : Datagram) (x : Session) : Prop :=
  s.works = true ∧ s.passes.chosen = true ∧ s.session d.inst d.session = some x ∧ d.version = 1 ∧ d.rsv = false ∧ d.payload.length ≤ 8192 ∧
  netTag (leBytes 32 x.ks.toNat) (headerOf dtype d) d.payload "NERNAOSH D" = leBytes 16 d.tag.toNat

/-! ## Starts (R427 to R431, R530) -/

/-- A slot holds a valid image whose checks all pass. -/
def State.imageSound (s : State) (kind : Nat) (slot : Option FwSlot) (f : FwImage) : Prop :=
  slot = some { image := f, valid := true } ∧ s.imageFault f kind = none

/-- The unit, SEALED, sound and alone, starts from f and g in CURRENT: no OTP fault, open record, tamper, owner root, pairing record or memory failure, and nothing in NEXT. -/
def State.bootsWith (s : State) (f g : FwImage) : Prop :=
  s.life.otp.faultOf = none ∧ s.life.otp.lcs = .sealed ∧ s.openRecord = none ∧ s.life.latch = none ∧ s.life.check ≠ .invalid ∧
  s.quarry.current = none ∧ s.twin.record = none ∧ s.host.mem.2.2.2 = false ∧ s.life.hollowNext = none ∧ s.life.plainNext = none ∧
  s.imageSound 1 s.life.hollowCur f ∧ s.imageSound 2 s.life.plainCur g

/-- The unit is READY after a start from f and g, with nothing in flight or staged. -/
def State.readyWith (t : State) (f g : FwImage) : Prop :=
  t.power.run = .running ∧ t.power.ready = true ∧ t.frame.ticking = true ∧ t.life.running = (f.version, g.version) ∧ t.life.hollowHash = some f.hash ∧
  t.jobs = [] ∧ t.staged = [] ∧ t.quarry.session.isSome = true ∧ t.twin.state = .unpaired ∧ t.life.activate = none

end Sys2Proof.Machine
end

