-- ==== Sys2Proof/Certificates/Slice0/Obligations.lean ====
section
/-! DEFINITION. The statements for the provers. -/

section

open Sys2Proof Sys2Proof.Machine

/-- The queue of commands: step runs its front; an empty queue idles (the model's form of a run, log 3). -/
def Obligations.StepRunsFrontOfQueue : Prop :=
  (∀ (c : Instr) (q : List Instr) (s : State), step { s with pending := c :: q } = exec c { s with pending := q }) ∧
  (∀ s : State, s.pending = [] → step s = .next s)

/-- Nothing stops the machine: traps, statuses, events and fences are all next states. -/
def Obligations.EveryStepAnswersNextState : Prop := ∀ s : State, stepSafe s

/-- Table 03-9 with R115: the two-source forms. -/
def Obligations.RegisterArithmeticWritesItsResult : Prop :=
  ∀ (s : State) (l : LaneId) (j : Job) (c : Ctx) (d a b : GReg), s.issues l j c →
    let x := c.rg a
    let y := c.rg b
    let n := y.toNat % 64
    ∀ p ∈ ([(Instr.add l d a b, x + y), (.sub l d a b, x - y), (.and l d a b, x &&& y), (.or l d a b, x ||| y), (.xor l d a b, x ^^^ y),
        (.andn l d a b, x &&& ~~~y), (.sll l d a b, x <<< n), (.srl l d a b, x >>> n), (.sra l d a b, x.sshiftRight n),
        (.ror l d a b, (x >>> n) ||| (x <<< ((64 - n) % 64))),
        (.slt l d a b, if x.toInt < y.toInt then 1 else 0), (.sltu l d a b, if x.toNat < y.toNat then 1 else 0),
        (.min l d a b, if x.toInt ≤ y.toInt then x else y), (.max l d a b, if x.toInt ≤ y.toInt then y else x),
        (.minu l d a b, if x.toNat ≤ y.toNat then x else y), (.maxu l d a b, if x.toNat ≤ y.toNat then y else x),
        (.sel l d a b, if c.rg d ≠ 0 then x else y),
        (.mul l d a b, BitVec.ofNat 64 (x.toNat * y.toNat % 2 ^ 64)),
        (.mulh l d a b, BitVec.ofInt 64 ((x.toInt * y.toInt).fdiv (2 ^ 64))), (.mulhu l d a b, BitVec.ofNat 64 (x.toNat * y.toNat / 2 ^ 64)),
        (.div l d a b, if y = 0 then -1 else if x.toInt = -2 ^ 63 ∧ y.toInt = -1 then x else BitVec.ofInt 64 (x.toInt.tdiv y.toInt)),
        (.divu l d a b, if y = 0 then 0xFFFFFFFFFFFFFFFF else BitVec.ofNat 64 (x.toNat / y.toNat)),
        (.rem l d a b, if y = 0 then x else if x.toInt = -2 ^ 63 ∧ y.toInt = -1 then 0 else BitVec.ofInt 64 (x.toInt.tmod y.toInt)),
        (.remu l d a b, if y = 0 then x else BitVec.ofNat 64 (x.toNat % y.toNat))] : List (Instr × Word)),
      retires p.1 s l (c.wg d p.2).next

/-- Table 03-9, the one-source forms and the amount of a shift; Table 04-3, every product by its coefficients. -/
def Obligations.CountsReversalAndCarrylessProducts : Prop :=
  (∀ (s : State) (l : LaneId) (j : Job) (c : Ctx) (d a b : GReg), s.issues l j c →
    let x := c.rg a
    (∃ n, n ≤ 64 ∧ (∀ i, i < n → x.getLsbD (63 - i) = false) ∧ (n < 64 → x.getLsbD (63 - n) = true) ∧
      retires (.clz l d a) s l (c.wg d (BitVec.ofNat 64 n)).next) ∧
    (∃ n, n ≤ 64 ∧ (∀ i, i < n → x.getLsbD i = false) ∧ (n < 64 → x.getLsbD n = true) ∧
      retires (.ctz l d a) s l (c.wg d (BitVec.ofNat 64 n)).next) ∧
    retires (.popc l d a) s l (c.wg d (BitVec.ofNat 64 ((List.range 64).countP (fun i => x.getLsbD i)))).next ∧
    (∃ v : Word, (∀ i, i < 8 → v.extractLsb' (8 * i) 8 = x.extractLsb' (8 * (7 - i)) 8) ∧ retires (.bswap l d a) s l (c.wg d v).next) ∧
    (∃ v : Word, (∀ i, i < 64 → v.getLsbD i = (decide ((c.rg b).toNat % 64 ≤ i) && x.getLsbD (i - (c.rg b).toNat % 64))) ∧
      retires (.sll l d a b) s l (c.wg d v).next)) ∧
  (∀ (s : State) (l : LaneId) (j : Job) (c : Ctx) (d a b : VReg), s.issues l j c → s.clearOf j [d, a, b] →
    let lo := fun (x : Blk) => x.extractLsb' 0 64
    let hi := fun (x : Blk) => x.extractLsb' 64 64
    let coef := fun (x : Blk) (i : Nat) => x.getLsbD (8 * (i / 8) + (7 - i % 8))
    let reduced := fun (i : Nat) => decide (i = 0 ∨ i = 1 ∨ i = 2 ∨ i = 7)
    let odd := fun (n : Nat) => decide (n % 2 = 1)
    let product := fun (x y v : Blk) => ∃ ps : Nat → Blk, ps 0 = x ∧
      (∀ i k, k < 128 → coef (ps (i + 1)) k = ((decide (0 < k) && coef (ps i) (k - 1)) != (coef (ps i) 127 && reduced k))) ∧
      ∀ k, k < 128 → coef v k = odd ((List.range 128).countP (fun i => coef y i && coef (ps i) k))
    (∀ p ∈ ([(Instr.clmulLl l d a b, lo (c.rv a), lo (c.rv b)), (.clmulLh l d a b, lo (c.rv a), hi (c.rv b)),
        (.clmulHl l d a b, hi (c.rv a), lo (c.rv b)), (.clmulHh l d a b, hi (c.rv a), hi (c.rv b))] : List (Instr × Word × Word)),
      ∃ v : Blk, (∀ k, k < 128 → v.getLsbD k = odd ((List.range 64).countP (fun i => p.2.2.getLsbD i && (decide (i ≤ k) && p.2.1.getLsbD (k - i))))) ∧
        retires p.1 s l (c.wv d v).next) ∧
    (∃ v : Blk, product (c.rv a) (c.rv b) v ∧ retires (.gfmul l d a b) s l (c.wv d v).next) ∧
    (∃ v : Blk, product (c.rv d ^^^ c.rv a) (c.rv b) v ∧ retires (.gfmac l d a b) s l (c.wv d v).next) ∧
    (∃ v : Blk, (∀ k, k < 128 → v.getLsbD k = ((decide (0 < k) && (c.rv a).getLsbD (k - 1)) != ((c.rv a).getLsbD 127 && reduced k))) ∧
      retires (.xtsmul l d a) s l (c.wv d v).next))


/-- Table 03-10, and the two pointer-colour moves of Table 03-12. -/
def Obligations.ImmediatesWriteTheirResult : Prop :=
  ∀ (s : State) (l : LaneId) (j : Job) (c : Ctx) (d a : GReg) (imm : BitVec 16) (n : BitVec 6) (q : BitVec 2) (k : BitVec 4), s.issues l j c →
    let x := c.rg a
    let e : Word := imm.signExtend 64
    let z : Word := imm.setWidth 64
    (∀ p ∈ ([(Instr.addi l d a imm, x + e), (.andi l d a imm, x &&& z), (.ori l d a imm, x ||| z), (.xori l d a imm, x ^^^ z),
        (.slti l d a imm, if x.toInt < imm.toInt then 1 else 0), (.sltiu l d a imm, if x.toNat < e.toNat then 1 else 0),
        (.slli l d a n, x <<< n.toNat), (.srli l d a n, x >>> n.toNat), (.srai l d a n, x.sshiftRight n.toNat),
        (.rori l d a n, (x >>> n.toNat) ||| (x <<< ((64 - n.toNat) % 64))),
        (.pcget l d a, (x.extractLsb' 56 4).setWidth 64)] : List (Instr × Word)),
      retires p.1 s l (c.wg d p.2).next) ∧
    (∃ v : Word, (∀ i, i < 64 → v.getLsbD i = (decide (i / 16 = q.toNat) && imm.getLsbD (i % 16))) ∧
      retires (.qset l d imm q) s l (c.wg d v).next) ∧
    (∃ v : Word, (∀ i, i < 64 → v.getLsbD i = if i / 16 = q.toNat then imm.getLsbD (i % 16) else (c.rg d).getLsbD i) ∧
      retires (.qins l d imm q) s l (c.wg d v).next) ∧
    (∃ v : Word, (∀ i, i < 64 → v.getLsbD i = if 56 ≤ i ∧ i < 60 then k.getLsbD (i - 56) else x.getLsbD i) ∧
      retires (.pcset l d a k) s l (c.wg d v).next)

/-- R88, for the bank and for an instruction whose destination is g0. -/
def Obligations.RegisterZeroIsConstant : Prop :=
  (∀ c : Ctx, c.rg 0 = 0) ∧ (∀ (c : Ctx) (v : Word), c.wg 0 v = c) ∧
  (∀ (c : Ctx) (r : GReg) (v : Word), r ≠ 0 →
    (c.wg r v).rg r = v ∧ (∀ r', r' ≠ r → (c.wg r v).rg r' = c.rg r') ∧ c.wg r v = { c with g := (c.wg r v).g }) ∧
  (∀ (s : State) (l : LaneId) (j : Job) (c : Ctx) (a b : GReg), s.issues l j c → retires (.add l 0 a b) s l c.next)

/-- R97, R103 to R105 and R141 for the window; R98, R101, R117 and R118 for what U level may reach outside it. -/
def Obligations.UserAccessesAreCheckedInsideAndOutsideTheWindow : Prop :=
  (∀ (s : State) (l : LaneId) (j : Job) (c : Ctx) (k : AccKind) (p : Word) (n : Nat), 0 < n → c.level = .u →
    let r := s.laneAccess l j c k false true p n
    let off := ptrVa p - 0x10000
    (ptrOk p = false → r = (s, .trap { cause := 0x04, kind := some (fsynKind k false), faddr := some p })) ∧
    (ptrOk p = true → p.toNat % n ≠ 0 → r = (s, .trap { cause := 0x03, kind := some (fsynKind k false), faddr := some p })) ∧
    (ptrOk p = true → p.toNat % n = 0 → ptrK p = false → 0x10000 ≤ ptrVa p → ptrVa p < 0x14000 →
      (c.winSize < off + n → ∃ tr, r.2 = .trap tr ∧ tr.cause = 0x08 ∧ tr.faddr = some p) ∧
      (off + n ≤ c.winSize → j.busyAt off n = true → r = (s, .wait)) ∧
      (off + n ≤ c.winSize → j.busyAt off n = false → c.colourAt off ≠ ptrColour p →
        ∃ tr, r.2 = .trap tr ∧ tr.cause = 0x09 ∧ tr.found = c.colourAt off ∧ tr.expected = ptrColour p ∧ tr.faddr = some p) ∧
      (off + n ≤ c.winSize → j.busyAt off n = false → c.colourAt off = ptrColour p → r = (s, .at_ (.window off))))) ∧
  (∀ (s : State) (l : LaneId) (j : Job) (c : Ctx) (k : AccKind) (p : Word) (n : Nat), c.level = .u → ptrOk p = true → p.toNat % n = 0 →
    let r := s.laneAccess l j c k false true p n
    (ptrK p = true → r = (s, .trap { cause := 0x06, kind := some (fsynKind k false), faddr := some p })) ∧
    (ptrK p = false → ¬ (0x10000 ≤ ptrVa p ∧ ptrVa p < 0x14000) →
      (k = .atomic → ∃ tr, r.2 = .trap tr ∧ tr.cause = 0x08 ∧ tr.faddr = some p) ∧
      (k = .write → r = (s, .trap { cause := 0x06, kind := some 1, faddr := some p })) ∧
      (k = .read → uMapped (ptrVa p) = false → r = (s, .trap { cause := 0x05, kind := some 0, faddr := some p })) ∧
      (∀ loc, r.2 = .at_ loc → k ≠ .atomic ∧ k ≠ .write ∧ uMapped (ptrVa p) = true ∧
        ∃ e : TlbEntry, ∃ pa, loc = (s.lane l).placeOf l pa ∧ hasPerm e.perms1 k = true ∧ e.perms1.getLsbD 3 = true ∧ hasPerm e.perms2 k = true ∧
          s.checkPart (laneAcc l (s.lane l) j c k (some (ptrColour p))) pa = none)))




/-- Table 03-11: the loads and the stores, at a window offset or a physical address. -/
def Obligations.LoadsReadAndStoresWriteExactlyTheirBytes : Prop :=
  (∀ (s s1 : State) (l : LaneId) (j : Job) (c : Ctx) (d a : GReg) (v : VReg) (imm : BitVec 16) (loc : Loc), s.issues l j c →
    let at_ := fun n => s.laneAccess l j c .read false true (c.rg a + imm.signExtend 64) n = (s1, .at_ loc)
    let byte := fun k => match loc with
      | .window off => Memory.read c.window (off + k)
      | .phys x => Memory.read s.mem (x + k)
    let gives := fun (i : Instr) (b : Ctx) => completes i s (fun t => t.lane l = { s1.lane l with bank := b, stepping := false, entry := none } ∧ onlyLane s t l)
    (at_ 1 → gives (.lb l d a imm) (c.wg d ((byte 0).setWidth 64)).next ∧ gives (.lbs l d a imm) (c.wg d ((byte 0).signExtend 64)).next) ∧
    (at_ 2 → gives (.lh l d a imm) (c.wg d ((byte 1 ++ byte 0).setWidth 64)).next ∧
      gives (.lhs l d a imm) (c.wg d ((byte 1 ++ byte 0).signExtend 64)).next) ∧
    (at_ 4 → gives (.lw l d a imm) (c.wg d ((byte 3 ++ byte 2 ++ byte 1 ++ byte 0).setWidth 64)).next ∧
      gives (.lws l d a imm) (c.wg d ((byte 3 ++ byte 2 ++ byte 1 ++ byte 0).signExtend 64)).next) ∧
    (at_ 8 → gives (.ld l d a imm)
      (c.wg d (byte 7 ++ byte 6 ++ byte 5 ++ byte 4 ++ byte 3 ++ byte 2 ++ byte 1 ++ byte 0)).next) ∧
    (at_ 16 → s.clearOf j [v] → ∃ b : Blk, (∀ i, i < 16 → b.extractLsb' (8 * i) 8 = byte i) ∧ gives (.lv l v a imm) (c.wv v b).next)) ∧
  (∀ (s s1 : State) (l : LaneId) (j : Job) (c : Ctx) (d a : GReg) (v : VReg) (imm : BitVec 16) (loc : Loc), s.issues l j c →
    ∀ p ∈ ([(Instr.sb l d a imm, leBytes 1 (c.rg d).toNat), (.sh l d a imm, leBytes 2 (c.rg d).toNat), (.sw l d a imm, leBytes 4 (c.rg d).toNat),
        (.sd l d a imm, leBytes 8 (c.rg d).toNat), (.sv l v a imm, leBytes 16 (c.rv v).toNat)] : List (Instr × Bytes)),
      (p.1 = .sv l v a imm → s.clearOf j [v]) →
      s.laneAccess l j c .write false true (c.rg a + imm.signExtend 64) p.2.length = (s1, .at_ loc) →
      completes p.1 s (fun t => t.lane l = { s1.lane l with bank := (t.lane l).bank, stepping := false, entry := none } ∧
        match loc with
        | .window off => onlyLane s t l ∧
            (t.lane l).bank = { c.next with window := (t.lane l).bank.window, unfenced := (off, p.2.length) :: c.unfenced } ∧
            storedAt c.window (t.lane l).bank.window off p.2
        | .phys x => onlyLane { s with mem := t.mem } t l ∧ (t.lane l).bank = c.next ∧ storedAt s.mem t.mem x p.2))




/-- Table 03-12: the six atomics and the colour tags. -/
def Obligations.AtomicsAndTagAccesses : Prop :=
  (∀ (s s1 : State) (l : LaneId) (j : Job) (c : Ctx) (d b a : GReg) (loc : Loc), s.issues l j c →
    s.laneAccess l j c .atomic false true (c.rg a) 8 = (s1, .at_ loc) →
    let old : Word := BitVec.ofNat 64 (leNat (s.readLoc c loc 8))
    let y := c.rg b
    ∀ p ∈ ([(Instr.atmAdd l d b a, old + y), (.atmSwap l d b a, y), (.atmAnd l d b a, old &&& y), (.atmOr l d b a, old ||| y),
        (.atmXor l d b a, old ^^^ y), (.atmCmpx l d b a, if old = c.rg d then y else old)] : List (Instr × Word)),
      completes p.1 s (fun t => t.lane l = { s1.lane l with bank := (t.lane l).bank, stepping := false, entry := none } ∧
        match loc with
        | .window off => onlyLane s t l ∧
            (t.lane l).bank = { (c.wg d old).next with window := (t.lane l).bank.window, unfenced := (off, 8) :: c.unfenced } ∧
            storedAt c.window (t.lane l).bank.window off (leBytes 8 p.2.toNat)
        | .phys x => onlyLane { s with mem := t.mem } t l ∧ (t.lane l).bank = (c.wg d old).next ∧
            storedAt s.mem t.mem x (leBytes 8 p.2.toNat))) ∧
  (∀ (s s1 : State) (l : LaneId) (j : Job) (c : Ctx) (d b a : GReg) (loc : Loc), s.issues l j c →
    let p := c.rg a - BitVec.ofNat 64 ((c.rg a).toNat % 64)
    let x : BitVec 4 := (c.rg b).extractLsb' 0 4
    let colour := match loc with | .window off => c.colourAt off | .phys y => s.granule y
    (s.laneAccess l j c .read true false p 64 = (s1, .at_ loc) →
      completes (.tagr l d a) s (fun t => t.lane l = { s1.lane l with bank := (c.wg d (colour.setWidth 64)).next, stepping := false, entry := none } ∧ onlyLane s t l)) ∧
    (s.laneAccess l j c .write true true p 64 = (s1, .at_ loc) → (c.level = .k ∨ c.cmask.getLsbD x.toNat = true) →
      completes (.tagw l b a) s (fun t => (t.lane l).tlb = (s1.lane l).tlb ∧
        match loc with
        | .window off => onlyLane s t l ∧ (t.lane l).bank = { c.next with colours := (t.lane l).bank.colours } ∧
            ∀ o, o < 0x4000 → (t.lane l).bank.colourAt o = if o / 64 = off / 64 then x else c.colourAt o
        | .phys y => (t.lane l).bank = c.next ∧
            match localOf y with
            | none => onlyLane { s with prot := { s.prot with tags := t.prot.tags } } t l ∧
                ((s.owner (y / 4096)).tagged = true → ∀ z, t.granule z = if z / 64 = y / 64 then x else s.granule z) ∧
                ((s.owner (y / 4096)).tagged = false → t.prot.tags = s.prot.tags)
            | some (m, off) => t = { s with lanes := t.lanes, pmc := t.pmc, out := t.out, free := t.free } ∧
                (∀ k, k ≠ l → k ≠ m → t.lane k = s.lane k) ∧ (m ≠ l → t.lane m = { s.lane m with tags := (t.lane m).tags }) ∧
                ∀ g, (tget (t.lane m).tags g).getD 0 = if g = off / 64 then x else (tget (s.lane m).tags g).getD 0)) ∧
    (s.laneAccess l j c .write true true p 64 = (s1, .at_ loc) → c.level = .u → c.cmask.getLsbD x.toNat = false →
      trapsAt (.tagw l b a) s l c 0x09 c.pc (fun t => t.faddr = p ∧ t.colours = c.colours)))

/-- Table 03-14. -/
def Obligations.BlockRegisterMoves : Prop :=
  ∀ (s : State) (l : LaneId) (j : Job) (c : Ctx) (d a b : VReg) (gd ga : GReg), s.issues l j c →
    let x := c.rv a
    let y := c.rv b
    (s.clearOf j [d, a] → retires (.vmov l d a) s l (c.wv d x).next) ∧
    (s.clearOf j [d, a, b] → ∀ p ∈ ([(Instr.vxor l d a b, x ^^^ y), (.vand l d a b, x &&& y), (.vor l d a b, x ||| y),
        (.vandn l d a b, x &&& ~~~y)] : List (Instr × Blk)), retires p.1 s l (c.wv d p.2).next) ∧
    (s.clearOf j [d] → retires (.vzero l d) s l (c.wv d 0).next) ∧
    (s.clearOf j [d, a] → ∃ v : Blk, (∀ i, i < 16 → v.extractLsb' (8 * i) 8 = x.extractLsb' (8 * (15 - i)) 8) ∧
      retires (.vbswap l d a) s l (c.wv d v).next) ∧
    (s.clearOf j [d] → ∀ hi : Bool, ∃ v : Blk, v.extractLsb' (if hi then 64 else 0) 64 = c.rg ga ∧
      v.extractLsb' (if hi then 0 else 64) 64 = (c.rv d).extractLsb' (if hi then 0 else 64) 64 ∧
      retires (.vins l d ga hi) s l (c.wv d v).next) ∧
    (s.clearOf j [a] → ∀ hi : Bool, retires (.vext l gd a hi) s l (c.wg gd (x.extractLsb' (if hi then 64 else 0) 64)).next) ∧
    (s.clearOf j [a, b] → retires (.veq l gd a b) s l (c.wg gd (if x = y then 1 else 0)).next)

/-- R143: waiting is an unchanged state. -/
def Obligations.PendingBlockRegisterWaits : Prop :=
  ∀ (s : State) (l : LaneId) (j : Job) (c : Ctx) (r a b : VReg) (g : GReg) (imm : BitVec 16) (k : KReg) (q : CReg) (n : BitVec 2) (hi : Bool),
    s.issues l j c → s.pendingV j.slot r = true →
    ∀ i ∈ [Instr.vmov l r a, .vmov l a r, .vxor l r a b, .vxor l a r b, .vxor l a b r, .vins l r g hi, .vext l g r hi, .veq l g r a, .veq l g a r,
        .vzero l r, .vbswap l a r, .clmulLl l r a b, .gfmac l a r b, .xtsmul l a r, .lv l r g imm, .sv l r g imm, .blkEnc l r a k, .blkDec l a r k,
        .blkEncCtr l r q k, .ctrSet l q r, .ctrNext l r q, .ctrGet l r q, .siPull l r n, .soPush l r n, .stxE l r a n, .stxD l a r n],
      exec i s = .next s



/-- Table 03-15, with R90 for KINF: it tells type and emptiness apart and nothing else. -/
def Obligations.KeyRegistersMoveAndStayClosed : Prop :=
  (∀ (s : State) (l : LaneId) (j : Job) (c : Ctx) (d a : KReg) (g : GReg), s.issues l j c →
    retires (.kmov l d a) s l (c.wk d (c.rk a)).next ∧ retires (.kclr l d) s l (c.wk d none).next ∧
    retires (.kinf l g a) s l (c.wg g (match c.rk a with
      | some h => BitVec.ofNat 64 (h.toNat % 256 + 256)
      | none => 0)).next) ∧
  (∀ (s s' : State) (l : LaneId) (j : Job) (c : Ctx) (k : Vector (Option Handle) 8) (a : KReg) (g : GReg), s.issues l j c → s'.issues l j { c with k := k } →
    (c.rk a).isSome = (k[a]).isSome → (c.rk a).map (·.toNat % 256) = (k[a]).map (·.toNat % 256) →
    ∃ w : Word, retires (.kinf l g a) s l (c.wg g w).next ∧ retires (.kinf l g a) s' l (({ c with k := k } : Ctx).wg g w).next)

/-- Table 03-13. -/
def Obligations.BranchesAndJumps : Prop :=
  ∀ (s : State) (l : LaneId) (j : Job) (c : Ctx) (d a b : GReg) (off : BitVec 16) (off21 : BitVec 21) (imm : BitVec 16), s.issues l j c →
    let x := c.rg a
    let y := c.rg b
    let target := c.pc + 4 * off.signExtend 64
    let far := c.pc + 4 * off21.signExtend 64
    let away := (x + imm.signExtend 64) &&& 0xF0FFFFFFFFFFFFFF
    (∀ p ∈ ([(Instr.jeq l a b off, decide (x = y)), (.jne l a b off, decide (x ≠ y)), (.jlt l a b off, decide (x.toInt < y.toInt)),
        (.jge l a b off, decide (y.toInt ≤ x.toInt)), (.jlo l a b off, decide (x.toNat < y.toNat)), (.jhs l a b off, decide (y.toNat ≤ x.toNat))] :
        List (Instr × Bool)),
      (p.2 = false → retires p.1 s l c.next) ∧
      (p.2 = true → ptrOk target = true → target.toNat % 4 = 0 → retires p.1 s l { c with pc := target })) ∧
    (ptrOk far = true → far.toNat % 4 = 0 → retires (.call l d off21) s l { c.wg d (c.pc + 4) with pc := far }) ∧
    (ptrOk away = true → (c.level = .k ∨ ptrK away = false) → away.toNat % 4 = 0 →
      retires (.callr l d a imm) s l { c.wg d (c.pc + 4) with pc := away }) ∧
    (ptrOk away = true → c.level = .u → ptrK away = false → away.toNat % 4 ≠ 0 →
      trapsAt (.callr l d a imm) s l c 0x03 c.pc (fun t => t.faddr = away)) ∧
    (ptrOk away = false → c.takesTraps → trapsAt (.callr l d a imm) s l c 0x04 c.pc (fun t => t.faddr = away))

/-- Tables 04-4 and R148. -/
def Obligations.GuardedCounterInstructions : Prop :=
  ∀ (s : State) (l : LaneId) (j : Job) (c : Ctx) (v : VReg) (k : CReg) (g a b : GReg), s.issues l j c →
    let n := c.rc k
    let field := fun (m : Nat) (x : Blk) => beNat (leBytes 16 x.toNat) % 2 ^ m
    (s.clearOf j [v] → n.armed = false → retires (.ctrSet l k v) s l (c.wc k { n with value := c.rv v }).next) ∧
    (s.clearOf j [v] → n.armed = true → c.takesTraps → trapsAt (.ctrSet l k v) s l c 0x0C c.pc (fun _ => True)) ∧
    (n.armed = false → ∀ w m, ((c.rg b).toNat % 4, w, m) ∈ [(0, CWidth.w32, 32), (1, CWidth.w64, 64)] →
      retires (.ctrLim l k a b) s l (c.wc k (let lim := min (c.rg a).toNat (2 ^ m - 1)
        { n with limit := BitVec.ofNat 64 lim, width := w, armed := true, spent := decide (lim < field m n.value), delivered := 0 })).next) ∧
    (n.armed = false → (c.rg b).toNat % 4 = 2 → retires (.ctrLim l k a b) s l
      (c.wc k { n with limit := c.rg a, width := .w128, armed := true, spent := false, delivered := 0 }).next) ∧
    (n.armed = true → n.width = .w128 → (c.rg b).toNat % 4 = 2 → (c.rg a).toNat ≤ n.limit.toNat → retires (.ctrLim l k a b) s l
      (c.wc k { n with limit := c.rg a, spent := n.spent || decide ((c.rg a).toNat < n.delivered) }).next) ∧
    (n.armed = true → c.takesTraps → n.width = .w128 → (c.rg b).toNat % 4 ≠ 3 → ((c.rg b).toNat % 4 ≠ 2 ∨ n.limit.toNat < (c.rg a).toNat) →
      trapsAt (.ctrLim l k a b) s l c 0x0C c.pc (fun _ => True)) ∧
    ((c.rg b).toNat % 4 = 3 → c.takesTraps → trapsAt (.ctrLim l k a b) s l c 0x0D c.pc (fun t => fsynInfo t.fsyn = 0x0212)) ∧
    (s.clearOf j [v] → (n.armed = false ∨ n.spent = true) → c.takesTraps → trapsAt (.ctrNext l v k) s l c 0x0C c.pc (fun t => t.v = c.v)) ∧
    (s.clearOf j [v] → n.armed = true → n.spent = false → ∃ n' : Counter,
      retires (.ctrNext l v k) s l ((c.wc k n').wv v n.value).next ∧ n' = { n with value := n'.value, spent := n'.spent, delivered := n.delivered + 1 } ∧
      (∀ m, (n.width, m) ∈ [(CWidth.w32, 32), (CWidth.w64, 64)] → field m n.value ≤ n.limit.toNat → n.limit.toNat < 2 ^ m →
        (field m n.value = n.limit.toNat → n'.spent = true ∧ n'.value = n.value) ∧
        (field m n.value < n.limit.toNat → n'.spent = false ∧ field m n'.value = field m n.value + 1 ∧
          beNat (leBytes 16 n'.value.toNat) / 2 ^ m = beNat (leBytes 16 n.value.toNat) / 2 ^ m)) ∧
      (n.width = .w128 → (n.limit.toNat ≤ n.delivered ∨ field 128 n.value = 2 ^ 128 - 1) → n'.spent = true ∧ n'.value = n.value) ∧
      (n.width = .w128 → n.delivered < n.limit.toNat → field 128 n.value ≠ 2 ^ 128 - 1 →
        n'.spent = false ∧ field 128 n'.value = field 128 n.value + 1)) ∧
    (s.clearOf j [v] → retires (.ctrGet l v k) s l (c.wv v n.value).next) ∧
    ((n.armed = false ∨ n.spent = true) → retires (.ctrRem l g k) s l (c.wg g 0).next) ∧
    (n.armed = true → n.spent = false → ∀ m, (n.width, m) ∈ [(CWidth.w32, 32), (CWidth.w64, 64)] → field m n.value ≤ n.limit.toNat → n.limit.toNat < 2 ^ m →
      retires (.ctrRem l g k) s l (c.wg g (BitVec.ofNat 64 (min (n.limit.toNat - field m n.value + 1) (2 ^ 64 - 1)))).next)

/-- R149 with Table 04-1, reason 0x03. -/
def Obligations.InvocationNumbersInOrder : Prop :=
  ∀ (s : State) (l : LaneId) (j : Job) (c : Ctx) (d : GReg) (k : KReg) (b : GReg), s.issues l j c →
    (c.rk k = none → c.takesTraps → trapsAt (.ctrInv l d k b) s l c 0x0B c.pc (fun _ => True)) ∧
    (∀ h ns, c.rk k = some h → j.invs.find? (fun e => e.1 == h) = some (h, ns) →
      (∀ n, ns[(c.rg b).toNat]? = some n → retires (.ctrInv l d k b) s l (c.wg d (BitVec.ofNat 64 n)).next) ∧
      (ns.length ≤ (c.rg b).toNat → c.takesTraps → trapsAt (.ctrInv l d k b) s l c 0x0D c.pc (fun t => fsynInfo t.fsyn = 0x0312))) ∧
    (∀ h, c.rk k = some h → j.invs.find? (fun e => e.1 == h) = none → c.takesTraps →
      trapsAt (.ctrInv l d k b) s l c 0x0D c.pc (fun t => fsynInfo t.fsyn = 0x0312))

/-- R152 and R153 for si0 to si3; R153 to R156 as they bear on a push and on SO.FIN. -/
def Obligations.StreamPortsDeliverAcceptAndFinish : Prop :=
  (∀ (s : State) (l : LaneId) (j : Job) (c : Ctx) (v : VReg) (g : GReg) (n : BitVec 2), s.issues l j c →
    let b := j.header.block
    let len := j.desc.length.toNat
    let r := len % b
    let pad : Bytes :=
      if j.header.decrypt then []
      else if j.desc.padMode = 1 then List.replicate (b - r) (BitVec.ofNat 8 (b - r))
      else if j.desc.padMode = 2 then 0x80 :: List.replicate (b - r - 1) 0
      else if j.desc.padMode = 3 ∧ r ≠ 0 then List.replicate (b - r) 0
      else []
    let pos := j.ports.si.toList.getD n.toNat 0
    let left := len + pad.length - pos
    let byte := fun k => if pos + k < len then j.ports.src.getD (pos + k) 0 else pad.getD (pos + k - len) 0
    let taken := fun m => { j with ports := { j.ports with si := j.ports.si.set n.toNat (pos + m) n.isLt } }
    let here := fun m => min len (pos + m) ≤ j.ports.src.length
    retires (.siRem l g n) s l (c.wg g (BitVec.ofNat 64 left)).next ∧
    (0 < left → here (min 8 left) → ∃ w : Word, (∀ k, k < 8 → w.extractLsb' (8 * k) 8 = if k < left then byte k else 0) ∧
      retiresFed (.siPullg l g n) s l (c.wg g w).next j.slot (taken (min 8 left))) ∧
    (s.clearOf j [v] → 0 < left → 0 < b → b ≤ 16 → here (min b left) →
      ∃ w : Blk, (∀ k, k < 16 → w.extractLsb' (8 * k) 8 = if k < min b left then byte k else 0) ∧
        retiresFed (.siPull l v n) s l (c.wv v w).next j.slot (taken (min b left))) ∧
    (left = 0 → c.takesTraps → trapsAt (.siPullg l g n) s l c 0x0D c.pc (fun t => fsynInfo t.fsyn = 0x1031)) ∧
    (0 < left → ¬ here (min 8 left) → waits (.siPullg l g n) s)) ∧
  (∀ (j : Job) (n : BitVec 2) (bytes : Bytes),
    let b := j.header.block
    let mode := j.desc.padMode
    let len := j.desc.length.toNat
    let r := len % b
    let unpads := j.header.decrypt ∧ (mode = 1 ∨ mode = 2)
    let steals := j.header.decrypt = false ∧ mode = 5
    let hold := if unpads then b else if steals then 2 * b else 0
    let kept := if j.header.outFree ∨ steals ∨ (mode ≠ 4 ∧ mode ≠ 5) then bytes else bytes.take (len - j.ports.pushed[0])
    let held := j.ports.heldOut[0]
    let bad := fun (reason : BitVec 8) (st : BitVec 7) => Pushed.trap (engineTrap st reason)
    (2 ≤ n.toNat → j.push n bytes = bad 0x13 St.accessFault ∧ j.finish n = bad 0x13 St.accessFault) ∧
    (j.ports.fin[0] = true → j.push 0 bytes = bad 0x13 St.accessFault) ∧
    (j.ports.fin[1] = true → j.push 1 bytes = bad 0x13 St.accessFault) ∧
    (j.header.res = false → j.push 1 bytes = bad 0x13 St.accessFault) ∧
    (j.header.res = true → j.ports.fin[1] = false → j.header.resLen < j.ports.pushed[1] + bytes.length → j.push 1 bytes = bad 0x11 St.lengthInvalid) ∧
    (j.header.res = true → j.ports.fin[1] = false → j.ports.pushed[1] + bytes.length ≤ j.header.resLen → ∃ j', j.push 1 bytes = .done j' bytes ∧
      j'.ports.pushed[1] = j.ports.pushed[1] + bytes.length ∧ j'.ports.pushed[0] = j.ports.pushed[0]) ∧
    (∀ j' out, j.push 0 bytes = .done j' out → out ++ j'.ports.heldOut[0] = held ++ kept ∧
      j'.ports.heldOut[0].length = min hold (held.length + kept.length) ∧ j'.ports.pushed[0] = j.ports.pushed[0] + kept.length) ∧
    (j.ports.fin[0] = false → j.header.outFree = true → j.outCap = none → j.desc.flags.getLsbD 1 = false → ¬ unpads → ¬ steals →
      held = [] → bytes ≠ [] → leNat (((j.ports.arg.getD []).drop 0x1C).take 4) < j.ports.written[0] + bytes.length →
      j.push 0 bytes = bad 0x11 St.lengthInvalid) ∧
    (unpads → j.ports.fin[0] = false → 0 < b → held.length = b → ∀ p : Nat, mode = 1 → (held.getLast?).map (·.toNat) = some p →
      (¬ (1 ≤ p ∧ p ≤ b ∧ ∀ x ∈ held.drop (b - p), x.toNat = p) → j.finish 0 = bad 0x12 St.padInvalid) ∧
      ((1 ≤ p ∧ p ≤ b ∧ ∀ x ∈ held.drop (b - p), x.toNat = p) → ∀ j' out, j.finish 0 = .done j' out → out = held.take (b - p))) ∧
    (steals → j.ports.fin[0] = false → held.length = 2 * b → 0 < b → ∀ j' out, j.finish 0 = .done j' out →
      out = if r ≠ 0 then held.drop b ++ held.take r else if j.header.cs3 ∧ 2 * b ≤ len then held.drop b ++ held.take b else held) ∧
    (∀ j' out, j.finish 0 = .done j' out → j'.ports.heldOut[0] = [] ∧ j'.ports.fin[0] = true ∨ (j.ports.fin[0] = true ∧ out = [] ∧ j' = j)))




/-- Table 04-6: the output side. -/
def Obligations.OutputInstructionsWriteTheDestination : Prop :=
  ∀ (s : State) (l : LaneId) (j : Job) (c : Ctx) (d a : VReg) (g : GReg) (n : BitVec 2), s.issues l j c →
    let b := j.header.block
    let port : Fin 2 := if n = 1 then 1 else 0
    let at_ := if n = 1 then j.desc.arg + BitVec.ofNat 64 (j.header.resOff + j.ports.written[1]) else j.desc.dst + BitVec.ofNat 64 j.ports.written[0]
    let effect := fun (i : Instr) (j' : Job) (out : Bytes) (bank : Ctx) => completes i s (fun t =>
      (t.lane l).bank = bank ∧ onlyLaneJob { s with insts := t.insts, host := t.host } t l j.slot ∧
      (∃ j2, t.job j.slot = some j2 ∧ j2.ports.pushed = j'.ports.pushed ∧ j2.ports.heldOut = j'.ports.heldOut ∧ j2.ports.fin = j'.ports.fin ∧
        j2.ports.si = j'.ports.si ∧ j2.ports.written[port] = j'.ports.written[port] + out.length) ∧
      (out ≠ [] → j.outCap = none → s.functionUp j.inst = true → (n = 1 ∨ j.desc.flags.getLsbD 1 = false) →
        (s.out ++ [.hostWrite j.inst at_ out]) <+: t.out))
    (∀ p ∈ ([(Instr.soPush l a n, j.push n ((leBytes 16 (c.rv a).toNat).take b)), (.soPushg l g n, j.push n (leBytes 8 (c.rg g).toNat)),
        (.soFin l n, j.finish n)] : List (Instr × Pushed)), (p.1 = .soPush l a n → s.clearOf j [a]) →
      (∀ j' out, p.2 = .done j' out → effect p.1 j' out c.next) ∧
      (∀ tr, p.2 = .trap tr → c.takesTraps → trapsAt p.1 s l c 0x0D c.pc (fun t => fsynInfo t.fsyn = tr.info)) ∧
      (∀ st d, p.2 = .fail st d → (s.lane l).run = some j.slot → completes p.1 s (fun t => ∃ j2, t.job j.slot = some j2 ∧ j2.finished = true ∧
        (j.finished = false → j2.status = st ∧ j2.detail = d))) ∧
      (p.2 = .wait → exec p.1 s = .next (s.readEntry j true))) ∧
    (s.clearOf j [d, a] → n.toNat < 2 → j.desc.padMode ≠ 4 → ∀ bs j' out, j.pull n b = .got bs →
      (let y := List.zipWith (· ^^^ ·) (padTo b bs) ((leBytes 16 (c.rv a).toNat).take b)
       j.push n y = .done j' out →
        effect (.stxE l d a n) (j'.advance n bs.length) out (c.wv d (blkOf y)).next ∧
        effect (.stxD l d a n) (j'.advance n bs.length) out (c.wv d (blkOf bs)).next)) ∧
    (s.clearOf j [d, a] → c.takesTraps → 2 ≤ n.toNat → trapsAt (.stxE l d a n) s l c 0x0D c.pc (fun t => fsynInfo t.fsyn = 0x1312) ∧
      trapsAt (.stxD l d a n) s l c 0x0D c.pc (fun t => fsynInfo t.fsyn = 0x1312)) ∧
    (n = 0 → retires (.soCnt l g n) s l (c.wg g (BitVec.ofNat 64 j.ports.pushed[0])).next) ∧
    (n = 1 → j.header.res = true → retires (.soCnt l g n) s l (c.wg g (BitVec.ofNat 64 j.ports.pushed[1])).next) ∧
    (s.clearOf j [a] → (n = 0 ∨ (n = 1 ∧ j.header.res = true)) → 1 ≤ (c.rg g).toNat → (c.rg g).toNat ≤ 16 →
      ∃ v : Blk, (∀ k, k < 16 → v.extractLsb' (8 * k) 8 = if k < (c.rg g).toNat then (c.rv a).extractLsb' (8 * k) 8 else 0) ∧
        retiresJob (.soTag l n a g) s l c.next j.slot { j with tag := v, tagValid := true })

/-- HOST_READ_COMPLETION. -/
def Obligations.HostReadsFeedTheJob : Prop :=
  ∀ (s : State) (slot : Nat),
    (s.job slot = none → ∀ r, exec (.hostReadCompletion slot r) s = .next s) ∧
    (∀ j, s.job slot = some j → j.finished = true → ∀ r, exec (.hostReadCompletion slot r) s = .next s) ∧
    (∀ j, s.job slot = some j → j.finished = false →
      (∀ bytes, completes (.hostReadCompletion slot (.source bytes)) s (fun t =>
        t = { s with jobs := t.jobs } ∧ (∀ k, k ≠ slot → t.job k = s.job k) ∧
        let limit := min j.desc.length.toNat (max j.ports.written[0] (max (max j.ports.si[0] j.ports.si[1]) (max j.ports.si[2] j.ports.si[3])) + 65536)
        t.job slot = some { j with ports := { j.ports with src := j.ports.src ++ bytes.take (limit - j.ports.src.length) } })) ∧
      (∀ which timeout, completes (.hostReadCompletion slot (.failed which timeout)) s (fun t => ∃ j', t.job slot = some j' ∧
        j'.finished = true ∧ j'.status = St.accessFault ∧ j'.detail = which.setWidth 16 ∧ ∀ k, k ≠ slot → t.job k = s.job k)) ∧
      (∀ (dest last chain rsv : Bool) (addr : Word) (len : Nat),
        let w := if dest then j.ports.dstWalk else j.ports.srcWalk
        let bad := rsv ∨ (last ∧ chain) ∨ (chain = false ∧ len = 0) ∨ (chain ∧ len ≠ 0) ∨ (w.index = 255 ∧ last = false ∧ chain = false) ∨
          (chain ∧ (addr.toNat % 16 ≠ 0 ∨ w.segments = 65536))
        w.ended = false → (dest = false → w.total < j.desc.length.toNat) → (dest = true → j.outDone = false) →
        (bad → completes (.hostReadCompletion slot (.sgl dest w.index addr len last chain rsv)) s (fun t => ∃ j', t.job slot = some j' ∧
          j'.finished = true ∧ j'.status = St.descInvalid ∧
          j'.detail = BitVec.ofNat 16 ((if dest then 0xC000 else 0x8000) + w.index % 256))) ∧
        (¬ bad → last = false → completes (.hostReadCompletion slot (.sgl dest w.index addr len last chain rsv)) s (fun t =>
          let w' : SglWalk := if chain then { w with index := 0, segments := w.segments + 1, seg := some addr, reading := false }
            else { w with index := w.index + 1, bufs := w.bufs ++ [(addr, len)], reading := false }
          (∃ k, t.job slot = some k ∧ ({ j with ports := if dest then { j.ports with dstWalk := w' } else { j.ports with srcWalk := w' } } : Job).fed k) ∧
          t = { s with jobs := t.jobs, out := t.out } ∧ ∀ k, k ≠ slot → t.job k = s.job k)) ∧
        (dest = true → j.outDone = true → ∀ n, exec (.hostReadCompletion slot (.sgl dest n addr len last chain rsv)) s = .next s)))

/-- R92 and R93 over Table 03-2. -/
def Obligations.ControlRegistersByLevel : Prop :=
  ∀ (s : State) (l : LaneId) (j : Job) (c : Ctx) (d a : GReg) (n : BitVec 12), s.issues l j c →
    let listed := n.toNat ≤ 0x00A ∨ (0x100 ≤ n.toNat ∧ n.toNat ≤ 0x10E)
    let x := c.rg a
    let gives := fun (m : BitVec 12) (w : Word) => retires (.crr l d m) s l (c.wg d w).next
    let takes := fun (m : BitVec 12) (c' : Ctx) => c.level = .k → retires (.crw l m a) s l c'.next
    (¬ listed → c.takesTraps → trapsAt (.crr l d n) s l c 0x01 c.pc (fun _ => True) ∧ trapsAt (.crw l n a) s l c 0x01 c.pc (fun _ => True)) ∧
    (listed → c.level = .u → 0x100 ≤ n.toNat → trapsAt (.crr l d n) s l c 0x02 c.pc (fun _ => True)) ∧
    (listed → c.level = .u → trapsAt (.crw l n a) s l c 0x02 c.pc (fun _ => True)) ∧
    (c.level = .k → c.ie = true → n ∈ [0x000, 0x001, 0x002, 0x003, 0x004, 0x005, 0x006, 0x007, 0x008, 0x009, 0x106, 0x10C, 0x10D] →
      trapsAt (.crw l n a) s l c 0x01 c.pc (fun _ => True)) ∧
    (∀ m ∈ [(0x000 : BitVec 12), 0x009, 0x10D], (m = 0x10D → c.level = .k) → ∃ cyc : Nat,
      let e := 256 + 342 * ((s.lane l).slotLast + 1)
      (s.lane l).now ≤ cyc ∧ ((s.lane l).now < e → cyc < e) ∧
      let w : Word := BitVec.ofNat 64 (if m = 0x000 then cyc % 2 ^ 14 else if m = 0x009 then (e - cyc) % 2 ^ 14
        else (cyc - 256) / 342 % 32 + (s.lane l).slotLast % 32 * 32)
      completes (.crr l d m) s (fun t =>
        t.lane l = { s.lane l with bank := (c.wg d w).next, now := cyc, stepping := false, entry := none } ∧ onlyLane s t l)) ∧
    gives 0x001 (BitVec.ofNat 64 s.frame.num) ∧
    gives 0x002 (BitVec.ofNat 64 (j.desc.seq.toNat + (j.slot % 2 ^ 14) * 2 ^ 32)) ∧
    gives 0x003 (BitVec.ofNat 64 (j.inst % 1024)) ∧
    gives 0x004 (if (s.lane l).hollow then 1 else 0) ∧
    gives 0x005 (j.desc.program.setWidth 64) ∧ gives 0x006 (j.desc.length.setWidth 64) ∧
    gives 0x007 (BitVec.ofNat 64 (j.desc.flags.toNat + j.desc.padMode.toNat * 2 ^ 16 + (j.desc.priority.toNat % 4) * 2 ^ 24 + j.desc.deadline.toNat * 2 ^ 26)) ∧
    (j.admittedAt ≤ s.frame.num → s.frame.num < j.admittedAt + 2 ^ 24 - 1 → j.budget < 2 ^ 24 →
      gives 0x008 (BitVec.ofNat 64 (s.frame.num - j.admittedAt + 1 + j.budget * 2 ^ 24))) ∧
    gives 0x00A (c.cmask.setWidth 64) ∧
    (c.level = .k →
      (∃ w : Word, gives 0x100 w ∧ (w.getLsbD 0 = true ↔ c.pl = .k) ∧ w.getLsbD 1 = c.ie ∧ w.getLsbD 2 = (c.held.isSome || c.heldBit) ∧ w.getLsbD 3 = c.bankBit ∧ w.toNat < 16) ∧
      gives 0x101 c.kepc ∧ gives 0x102 c.fsyn ∧ gives 0x103 c.faddr ∧ gives 0x104 c.kvec ∧ gives 0x105 c.ttb1 ∧ gives 0x106 (s.lane l).ttb2 ∧
      gives 0x107 c.winb ∧ gives 0x108 c.kscr[0] ∧ gives 0x109 c.kscr[1] ∧ gives 0x10A c.kscr[2] ∧ gives 0x10B c.kscr[3] ∧
      gives 0x10C (BitVec.ofNat 64 (l.val + (l.val / 8) * 64))) ∧
    takes 0x00A { c with cmask := x.extractLsb' 0 16 } ∧
    takes 0x100 { c with pl := if x.getLsbD 0 then .k else .u, ie := x.getLsbD 1, held := if x.getLsbD 2 then c.held else none, heldBit := x.getLsbD 2 && c.held.isNone, bankBit := x.getLsbD 3 } ∧
    takes 0x101 { c with kepc := x } ∧ takes 0x102 { c with fsyn := BitVec.ofNat 64 (x.toNat % 2 ^ 36) } ∧ takes 0x103 { c with faddr := x } ∧
    takes 0x104 { c with kvec := BitVec.ofNat 64 (x.toNat % 2 ^ 39 / 4096 * 4096) } ∧
    takes 0x105 { c with ttb1 := BitVec.ofNat 64 (x.toNat % 2 ^ 50 / 4096 * 4096 + x.toNat % 2) } ∧
    takes 0x107 { c with winb := BitVec.ofNat 64 (x.toNat % 2 ^ 23 / 1024 * 1024) } ∧
    takes 0x108 { c with kscr := c.kscr.set 0 x } ∧ takes 0x109 { c with kscr := c.kscr.set 1 x } ∧
    takes 0x10A { c with kscr := c.kscr.set 2 x } ∧ takes 0x10B { c with kscr := c.kscr.set 3 x }

/-- Table 03-16, R123, R136, R167 and R459. -/
def Obligations.KernelReturnFenceFlushYieldAndCounters : Prop :=
  (∀ (s : State) (l : LaneId) (j : Job) (c : Ctx) (d : GReg) (mask : BitVec 4) (mode : BitVec 2), s.issues l j c →
    (c.level = .u → trapsAt (.kret l) s l c 0x02 c.pc (fun _ => True) ∧
      (mode ≠ 3 → trapsAt (.tlbfl l d mode) s l c 0x02 c.pc (fun _ => True)) ∧
      (mask.getLsbD 3 = true → trapsAt (.fence l mask) s l c 0x02 c.pc (fun _ => True))) ∧
    (let base := c.winb.toNat / 2 ^ 10 % 256 * 1024
     let size := min 16384 (c.winb.toNat / 2 ^ 18 % 32 * 1024)
     let room := fun (a : Nat) => 64 * min 256 ((0x40000 - a) / 64)
     (c.level = .k → base = c.winAt →
      retires (.kret l) s l { c with pc := c.kepc, level := c.pl, ie := true, winSize := size, winAt := base }) ∧
     (c.level = .k → base ≠ c.winAt → completes (.kret l) s (fun t =>
      let b := (t.lane l).bank
      b = { c with pc := c.kepc, level := c.pl, ie := true, winSize := size, winAt := base, window := b.window, colours := b.colours } ∧
      storedAt s.mem t.mem (localAddr l c.winAt) (Memory.readBytes c.window 0 (room c.winAt)) ∧
      (∀ k, k < room base → Memory.read b.window k = Memory.read t.mem (localAddr l (base + k))) ∧
      (∀ k, k < room base → b.colourAt k = (tget (t.lane l).tags (base / 64 + k / 64)).getD 0) ∧
      (∀ g, (tget (t.lane l).tags g).getD 0 =
        if c.winAt / 64 ≤ g ∧ g < c.winAt / 64 + room c.winAt / 64 then c.colourAt (64 * (g - c.winAt / 64)) else (tget (s.lane l).tags g).getD 0) ∧
      onlyLane { s with mem := t.mem } t l))) ∧
    ((c.level = .k ∨ mask.getLsbD 3 = false) →
      retires (.fence l mask) s l (if mask.getLsbD 1 then { c with unfenced := [] } else c).next) ∧
    (c.level = .k → mode ≠ 3 → completes (.tlbfl l d mode) s (fun t => (t.lane l).bank = c.next ∧ onlyLane s t l ∧ (t.lane l).walks.Sublist (s.lane l).walks ∧ (mode = 0 → (t.lane l).walks = []) ∧
      ∀ e, e ∈ (t.lane l).tlb ↔ e ∈ (s.lane l).tlb ∧
        ((mode = 1 ∧ e.asid ≠ (c.rg d).extractLsb' 0 10) ∨
         (mode = 2 ∧ ¬ (if e.big then (ptrVa (c.rg d)) / 2 ^ 21 * 512 = e.page else ptrVa (c.rg d) / 4096 = e.page)))))) ∧
  (∀ (s : State) (l : LaneId) (j : Job) (c : Ctx) (d a : GReg), s.issues l j c → (s.lane l).slotNow ≤ (s.lane l).slotLast →
    let k := (c.rg a).toNat % 64
    let user := (match s.inst j.inst with | some x => x.share.pmcUser | none => false)
    let word := fun (t : Table Ctr) (i : Nat) => let x := (tget t i).getD {}
      (BitVec.ofNat 64 (x.snap.1.toNat + (if x.snap.2 then 2 ^ 48 else 0)) : Word)
    completes (.yieldSlice l) s (fun t => (t.lane l).run = none ∧ (∀ m, m ≠ l → t.lane m = s.lane m) ∧
      (j.slot, c.next) ∈ (t.lane l).resident ∧ (∀ m, m ≠ j.slot → t.job m = s.job m) ∧
      ∃ j', t.job j.slot = some j' ∧ j'.st = .runnable ∧ j'.yielded = true ∧ j' = { j with st := j'.st, yielded := j'.yielded, used := j'.used } ∧
        j.used < j'.used ∧ j'.used ≤ j.used + ((s.lane l).slotLast + 1 - (s.lane l).slotNow)) ∧
    (user = false → c.takesTraps → trapsAt (.pmcRd l d a) s l c 0x02 c.pc (fun _ => True)) ∧
    (user = true → k < 8 → retires (.pmcRd l d a) s l (c.wg d (word s.pmc.lane (8 * l.val + k))).next) ∧
    (user = true → 16 ≤ k → k < 32 → retires (.pmcRd l d a) s l (c.wg d (word s.pmc.inst (16 * j.inst + (k - 16)))).next) ∧
    (user = true → (8 ≤ k ∧ k < 16 ∨ 32 ≤ k) → c.takesTraps → trapsAt (.pmcRd l d a) s l c 0x0D c.pc (fun t => fsynInfo t.fsyn = 0x7012)))


/-- R130 with the kernel part of R128; R109, R127 and R132. -/
def Obligations.EndsOfJobsStopsAndDoubleFaults : Prop :=
  (∀ (s : State) (l : LaneId) (j : Job) (c : Ctx) (a : GReg) (imm : BitVec 16), s.issues l j c →
    let allowed : List (BitVec 7) := [0x00, 0x02, 0x10, 0x31, 0x32, 0x33, 0x40, 0x24]
    let ended := fun (i : Instr) (st : BitVec 7) (detail : BitVec 16 → Prop) => completes i s (fun t =>
      (∃ j', t.job j.slot = some j' ∧ j'.finished = true ∧ j'.status = st ∧ detail j'.detail ∧ (∀ k : Fin 4, j'.hash[k] = none) ∧
        (∀ k : Fin 2, j'.ports.heldOut[k] = []) ∧ j'.zeroing = decide (st ≠ 0)) ∧
      (∀ k, k ≠ j.slot → t.job k = s.job k) ∧ t.cipher.reqs = s.cipher.reqs.filter (fun q => q.job != j.slot) ∧
      (∀ k, (t.lane k).run ≠ some j.slot ∧ ∀ e ∈ (t.lane k).resident, e.1 ≠ j.slot) ∧ t.mem = s.mem)
    (c.takesTraps → j.rom = false → (c.rg 1).extractLsb' 0 7 ∈ allowed → ∀ i ∈ [Instr.endJob l, .kcall l 0],
      ended i ((c.rg 1).extractLsb' 0 7) (fun d => d = if (c.rg 1).extractLsb' 0 7 = 0x10 then 0x38 else 0)) ∧
    (c.takesTraps → j.rom = false → (c.rg 1).extractLsb' 0 7 ∉ allowed → ∀ i ∈ [Instr.endJob l, .kcall l 0], ended i 0x12 (fun d => d = 0x4010)) ∧
    (c.takesTraps → j.rom = true → ∀ i ∈ [Instr.endJob l, .kcall l 0],
      (s.romEarly j = true → exec i s = .next (if (s.romOut j).isSome then s.readEntry j true else s)) ∧
      (s.romEarly j = false → completes i s (fun t => ∃ n o, ({ s with free := n } : State).romOut j = some o ∧ ∃ j', t.job j.slot = some j' ∧
        j'.finished = true ∧ (o.make = none → j.romRoom o = none → j'.status = o.st ∧ j'.detail = o.detail ∧
          (∀ b, o.tag = some b → j'.tag = blkOf b ∧ j'.tagValid = true))))) ∧
    (c.takesTraps → imm ≠ 0 → ended (.kcall l imm) 0x12 (fun d => d = 0x4010)) ∧
    (c.level = .k → ∀ i ∈ [Instr.jend l a, .crw l 0x10E a], ended i ((c.rg a).extractLsb' 0 7) (fun _ => True)) ∧
    (c.level = .u → ∀ i ∈ [Instr.jend l a, .crw l 0x10E a], trapsAt i s l c 0x02 c.pc (fun _ => True))) ∧
  (∀ (s : State) (l : LaneId) (j : Job) (c : Ctx) (imm : BitVec 16) (word : BitVec 32), s.issues l j c →
    (c.takesTraps → geingDecode l word = none → trapsAt (.undefinedInstruction l word) s l c 0x01 c.pc (fun _ => True)) ∧
    (c.takesTraps → (if (s.lane l).hollow then s.prot.dbg.getLsbD 0 else s.prot.dbg.getLsbD 4) = false →
      completes (.dstop l imm) s (fun t => ∃ j', t.job j.slot = some j' ∧ j'.finished = true ∧ j'.status = 0x12 ∧ j'.detail = 0x4011)) ∧
    (c.takesTraps → (if (s.lane l).hollow then s.prot.dbg.getLsbD 0 else s.prot.dbg.getLsbD 4) = true →
      completes (.dstop l imm) s (fun t => (t.lane l).stopped = true ∧ (t.lane l).bank.level = .k ∧ fsynCause (t.lane l).bank.fsyn = 0x11 ∧
        fsynInfo (t.lane l).bank.fsyn = imm ∧ (t.lane l).bank.kepc = c.pc ∧ t.job j.slot = some j ∧ ∀ k, k ≠ l → t.lane k = s.lane k)) ∧
    (¬ c.takesTraps → ∀ p ∈ ([(Instr.dstop l imm, 0x11), (.kcall l imm, 0x10)] : List (Instr × Nat)) ++
        (if geingDecode l word = none then [(Instr.undefinedInstruction l word, 0x01)] else []),
      completes p.1 s (fun t => t.fenced (90 + l.val) = true ∧ (t.lane l).run = none ∧ (t.lane l).resident = [] ∧
        (∃ j', t.job j.slot = some j' ∧ j'.finished = true ∧ j'.status = 0x12) ∧
        (s.strata.frozen = none → s.strata.buffer.length < 2048 →
          ∃ e ∈ t.strata.buffer, e.code = 0x1007 ∧ e.p1.toNat = l.val ∧ e.p2.toNat = p.2))))

/-- Table 04-2 with R143 and R144. -/
def Obligations.BlockIssueQueuesOneRequest : Prop :=
  ∀ (s : State) (l : LaneId) (j : Job) (c : Ctx) (d a : VReg) (q : CReg) (k : KReg) (n : BitVec 5), s.issues l j c → s.clearOf j [d, a] →
    let out := (s.cipher.reqs.filter (fun r => r.lane == l.val)).length
    let queued := fun (i : Instr) (op : BlkOp) (h : Handle) (src : Blk) (bank : Ctx) => completes i s (fun t =>
      (t.lane l).bank = bank ∧ onlyLane { s with cipher := t.cipher } t l ∧
      t.cipher = { s.cipher with reqs := s.cipher.reqs ++ [{ lane := l.val, job := j.slot, inst := j.inst, op := op, key := h, src := src, dst := d }] } ∧
      t.pendingV j.slot d = true)
    let all := [(Instr.blkEnc l d a k, BlkOp.enc), (.blkDec l d a k, .dec), (.blkEncT l d a k, .tweak), (.blkEncCtr l d q k, .enc)]
    (c.rk k = none → c.takesTraps → ∀ p ∈ all, trapsAt p.1 s l c 0x0B c.pc (fun _ => True)) ∧
    (∀ h, c.rk k = some h →
      (∀ node, s.keyNode j.bound h = some node →
        (∀ p ∈ all, (isCipher node.ktype = false ∨ (p.2 = .tweak ∧ isXts node.ktype = false) ∨ (isTdea node.ktype = true ∧ node.tdeaOk = false)) →
          c.takesTraps → trapsAt p.1 s l c 0x0D c.pc (fun t => fsynInfo t.fsyn = 0x0124)) ∧
        (∀ p ∈ all, blockPermitted p.2 node = true → 32 ≤ out → waits p.1 s) ∧
        (out < 32 →
          (blockPermitted .enc node = true → queued (.blkEnc l d a k) .enc h (c.rv a) c.next) ∧
          (blockPermitted .dec node = true → queued (.blkDec l d a k) .dec h (c.rv a) c.next) ∧
          (blockPermitted .tweak node = true → queued (.blkEncT l d a k) .tweak h (c.rv a) c.next) ∧
          (blockPermitted .enc node = true → ((c.rc q).armed = false ∨ (c.rc q).spent = true) → c.takesTraps →
            trapsAt (.blkEncCtr l d q k) s l c 0x0C c.pc (fun _ => True)) ∧
          (blockPermitted .enc node = true → (c.rc q).armed = true → (c.rc q).spent = false →
            queued (.blkEncCtr l d q k) .enc h (c.rc q).value (c.wc q (c.rc q).next).next))) ∧
      (s.keyNode j.bound h = none → c.takesTraps → ∀ p ∈ all, trapsAt p.1 s l c 0x0D c.pc (fun t => fsynInfo t.fsyn = 0x0124))) ∧
    (out ≤ n.toNat → retires (.waitb l n) s l c.next) ∧ (n.toNat < out → waits (.waitb l n) s)

/-- The cipher fabric's events. -/
def Obligations.SchedulerAssignsAndDelivers : Prop :=
  (∀ (s : State) (cycle : Nat),
    (s.power.run ≠ .running ∨ cycle < 256 ∨ 11371 < cycle → exec (.blockDispatch cycle) s = .next s) ∧
    completes (.blockDispatch cycle) s (fun t => t.cipher.reqs.length = s.cipher.reqs.length ∧ t.jobs = s.jobs ∧ t.lanes = s.lanes ∧ t.mem = s.mem ∧
      ∀ (i : Nat) (r : BlkReq), s.cipher.reqs[i]? = some r → ∃ r' : BlkReq, t.cipher.reqs[i]? = some r' ∧ r' = { r with core := r'.core, place := r'.place, takenAt := r'.takenAt } ∧
        (r'.core ≠ r.core → r.core = none ∧ s.reqLoaded r = true ∧ (r.carried = true ∨ 0 < (tget s.cipher.credit r.inst).getD 0) ∧
          ∃ x : Fin 20, r'.core = some x ∧ s.fenced x.val = false ∧ s.shut (8 + x.val / 4) = false))) ∧
  (∀ (s : State) (core : Fin 20),
    ((∀ r ∈ s.cipher.reqs, r.core ≠ some core) → ∀ p, exec (.blockResult core p) s = .next s) ∧
    (∀ (i : Nat) (r : BlkReq), s.cipher.reqs[i]? = some r → r.core = some core →
      (∀ (k : Nat) (q : BlkReq), k ≠ i → s.cipher.reqs[k]? = some q → q.core = some core → r.place < q.place) →
      completes (.blockResult core true) s (fun t => t.fenced core.val = true ∧ t.jobs = s.jobs ∧ t.lanes = s.lanes ∧
        t.cipher.reqs[i]? = some { r with core := none } ∧ t.cipher.reqs.length = s.cipher.reqs.length) ∧
      (∀ j, s.job r.job = some j →
        let key := s.keyValue j.bound r.key
        let y := blockOp r.op (hType r.key) key r.src
        completes (.blockResult core false) s (fun t => t.cipher.reqs = s.cipher.reqs.eraseIdx i ∧
          (∀ l, (s.lane l).run = some r.job → (t.lane l).bank = (s.lane l).bank.wv r.dst y) ∧
          (∀ l, (s.lane l).run ≠ some r.job → (t.lane l).bank = (s.lane l).bank) ∧
          ((∀ l, (s.lane l).run ≠ some r.job ∧ ∀ e ∈ (s.lane l).resident, e.1 ≠ r.job) →
            ∃ j', t.job r.job = some j' ∧ j' = { j with block := j.block.wv r.dst y })) ∧
        (isTdea (hType r.key) = true → (y >>> 64) = 0) ∧
        (isTdea (hType r.key) = false → isXts (hType r.key) = false → r.op = .enc → y = Config.aes (key.take (keyLen (hType r.key))) r.src) ∧
        (isXts (hType r.key) = true → r.op = .tweak → isTdea (hType r.key) = false → y = Config.aes ((key.drop 32).take 32) r.src)))) ∧
  (∀ (s : State) (hollow : Bool) (inst node version : Nat) (tweak : Bool), completes (.keyScheduleLoaded hollow inst node version tweak) s (fun t =>
    t = { s with cipher := { s.cipher with kss := t.cipher.kss } } ∧
    t.cipher.kss = s.cipher.kss.map (fun e =>
      if e.hollow = hollow ∧ e.inst = inst ∧ e.node = node ∧ e.version = version ∧ e.tweak = tweak then { e with loaded := true } else e))) ∧
  (∀ (s : State) (hollow : Bool) (inst node version : Nat),
    (s.nodeAt inst node version = none → exec (.derivationDone hollow inst node version) s = .next s) ∧
    (∀ n, s.nodeAt inst node version = some n → completes (.derivationDone hollow inst node version) s (fun t =>
      ∃ e, t.quarry.cut.getLast? = some e ∧ e.hollow = hollow ∧ e.inst = inst ∧ e.node = node ∧ e.level = n.level ∧ e.reachable = true ∧
        e.versions = s.pathVersions inst [(node, version)] node ∧ e.value = s.keyAlong inst [(node, version)] (s.path inst node) ∧
        (∀ x ∈ t.quarry.cut, x ∈ s.quarry.cut ∨ x = e) ∧ t.mem = s.mem ∧ t.cipher = s.cipher ∧
        (∀ k j, s.job k = some j → ∃ j', t.job k = some j' ∧ j' = { j with hash := j'.hash } ∧ ∀ i : Fin 4, j'.hash[i].map (·.reqs) = j.hash[i].map (·.reqs)))))

/-- Table 04-9 and HASH_CHUNK_DONE. -/
def Obligations.HashContextsServeTheirRequests : Prop :=
  (∀ (s : State) (l : LaneId) (j : Job) (c : Ctx) (d a b : GReg) (k : KReg), s.issues l j c →
    let sel := c.rg a
    let alg : BitVec 8 := sel.extractLsb' 0 8
    let bare := [0x01, 0x02, 0x03, 0x04, 0x05, 0x06, 0x11, 0x12, 0x13, 0x14, 0x18, 0x19, 0x40]
    let withKey := [0x21, 0x22, 0x23, 0x24, 0x25, 0x26, 0x2A, 0x2B]
    let refused := fun (i : Instr) => trapsAt i s l c 0x0D c.pc (fun t => fsynInfo t.fsyn = 0x2012)
    let opened := fun (i : Instr) (key : Option Handle) => ∃ n : Fin 4, j.hash[n] = none ∧ ∃ h : HashCtx,
      retiresJob i s l (c.wg d (BitVec.ofNat 64 n.val)).next j.slot { j with hash := j.hash.set n.val (some h) n.isLt } ∧
      h.alg = alg ∧ h.custom = sel.getLsbD 8 ∧ h.xof = sel.getLsbD 9 ∧ h.pr = sel.getLsbD 10 ∧ h.key = key ∧ h.msg = [] ∧ h.reqs = [] ∧ h.squeezed = 0
    let full := ∀ n : Fin 4, j.hash[n] ≠ none
    (¬ full → alg.toNat ∈ bare → opened (.hshInit l d a) none) ∧
    (c.takesTraps → (full ∨ alg.toNat ∉ bare) → refused (.hshInit l d a)) ∧
    (c.rk k = none → c.takesTraps → trapsAt (.hshKinit l d a k) s l c 0x0B c.pc (fun _ => True)) ∧
    (∀ h, c.rk k = some h → c.takesTraps → (full ∨ alg.toNat ∉ withKey) → refused (.hshKinit l d a k)) ∧
    (∀ h n, c.rk k = some h → s.keyNode j.bound h = some n → ¬ full → alg.toNat ∈ withKey →
      (n.ktype = alg → (n.may uMacGen = true ∨ n.may uMacVer = true ∨ ((alg = 0x2A ∨ alg = 0x2B) ∧ n.may uDerive = true)) → opened (.hshKinit l d a k) (some h)) ∧
      (n.ktype ≠ alg → c.takesTraps → trapsAt (.hshKinit l d a k) s l c 0x0D c.pc (fun t => fsynInfo t.fsyn = 0x0124))) ∧
    ((4 ≤ (c.rg d).toNat ∨ j.hash.toList[(c.rg d).toNat]? = some none) → c.takesTraps →
      refused (.hshAbs l d a b) ∧ refused (.hshAbsp l d a b) ∧ refused (.hshSqz l d a b)) ∧
    ((4 ≤ (c.rg a).toNat ∨ j.hash.toList[(c.rg a).toNat]? = some none) → c.takesTraps → refused (.hshWait l a) ∧ refused (.hshFree l a)) ∧
    (∀ (n : Fin 4) (h : HashCtx), c.rg d = BitVec.ofNat 64 n.val → j.hash[n] = some h →
      let p := c.rg a
      let m := (c.rg b).toNat
      let off := ptrVa p - 0x10000
      let granted := ptrOk p = true ∧ 0x10000 ≤ ptrVa p ∧ ptrVa p < 0x14000 ∧ off + m ≤ c.winSize ∧
        (∀ x ∈ parts off m, c.colourAt x = ptrColour p) ∧ j.busyAt off m = false
      let adds := fun (i : Instr) (r : HashReq) => completes i s (fun t => (t.lane l).bank = c.next ∧ ∃ j' h', t.job j.slot = some j' ∧
        j'.hash[n] = some h' ∧ h'.reqs = h.reqs ++ [r] ∧ h'.alg = h.alg ∧ h'.msg = h.msg ∧ h'.key = h.key ∧
        (∀ n' : Fin 4, n' ≠ n → j'.hash[n'] = j.hash[n']) ∧ j' = { j with hash := j'.hash } ∧ t.mem = s.mem ∧ ∀ x, x ≠ j.slot → t.job x = s.job x)
      (0 < m → granted → h.alg ≠ 0x40 → adds (.hshAbs l d a b) (.absorb (Memory.readBytes c.window off m) off m)) ∧
      (0 < m → granted → h.alg ≠ 0x40 → (h.alg = 0x18 ∨ h.alg = 0x19 ∨ ((h.alg.toNat ≤ 0x14 ∨ (0x21 ≤ h.alg.toNat ∧ h.alg.toNat ≤ 0x26)) ∧ m = digestLen h.alg) ∨
          ((h.alg = 0x2A ∨ h.alg = 0x2B) ∧ (h.xof = true ∨ h.fixed = none ∨ h.fixed = some m))) →
        adds (.hshSqz l d a b) (.squeeze off m)) ∧
      ((h.alg = 0x2A ∨ h.alg = 0x2B) → h.xof = false → h.fixed ≠ none → h.fixed ≠ some m → c.takesTraps → refused (.hshSqz l d a b)) ∧
      (h.alg.toNat ≤ 0x14 → m ≠ digestLen h.alg → c.takesTraps → refused (.hshSqz l d a b)) ∧
      (∀ bs, 0 < m → h.alg ≠ 0x40 → m ≤ j.remains (p.extractLsb' 0 2) → j.pull (p.extractLsb' 0 2) m = .got bs →
        completes (.hshAbsp l d a b) s (fun t => (t.lane l).bank = c.next ∧ ∃ j' h', t.job j.slot = some j' ∧ j'.hash[n] = some h' ∧
          h'.reqs = h.reqs ++ [.absorb bs 0 0]))) ∧
    (∀ (n : Fin 4) (h : HashCtx), c.rg a = BitVec.ofNat 64 n.val → j.hash[n] = some h →
      (h.reqs = [] → retires (.hshWait l a) s l c.next) ∧
      (h.reqs ≠ [] → (s.lane l).slotNow ≤ (s.lane l).slotLast → completes (.hshWait l a) s (fun t => (t.lane l).run = none ∧ (j.slot, c) ∈ (t.lane l).resident ∧
        ∃ j', t.job j.slot = some j' ∧ j'.st = .waiting (.hash n) ∧ j' = { j with st := j'.st, used := j'.used })) ∧
      completes (.hshFree l a) s (fun t => (t.lane l).bank = c.next ∧ t.job j.slot = some { j with hash := j.hash.set n.val none n.isLt } ∧
        (∀ x, x ≠ j.slot → t.job x = s.job x) ∧ t.mem = s.mem))) ∧
  (∀ (s : State) (e : Fin 16) (slot n : Nat) (i : Fin 4) (j : Job) (h : HashCtx), s.engines.chunk[e] = some (slot, i, n) → s.job slot = some j → j.hash[i] = some h →
    let after := fun (p : State → Job → HashCtx → Prop) => completes (.hashChunkDone e) s (fun t => ∃ j' h', t.job slot = some j' ∧ j'.hash[i] = some h' ∧
      h'.alg = h.alg ∧ h'.key = h.key ∧ (∀ k : Fin 4, k ≠ i → j'.hash[k] = j.hash[k]) ∧ p t j' h')
    let wakes := fun (j' : Job) (rs : List HashReq) => (rs = [] → j.st = .waiting (.hash i) → j'.st = .runnable) ∧ (rs ≠ [] ∨ j.st ≠ .waiting (.hash i) → j'.st = j.st)
    (∀ bytes off len rs, h.reqs = .absorb bytes off len :: rs → h.wantS = false → after (fun t j' h' => h'.msg = h.msg ++ bytes.take n ∧ t.lanes = s.lanes ∧
      (bytes.length ≤ n → h'.reqs = rs ∧ wakes j' rs) ∧ (n < bytes.length → h'.reqs = .absorb (bytes.drop n) off len :: rs ∧ j'.st = j.st))) ∧
    (∀ off m rs, h.reqs = .squeeze off m :: rs → after (fun t j' h' => h'.msg = h.msg ∧ h'.reqs = rs ∧ h'.squeezed = h.squeezed + m ∧ wakes j' rs ∧
      ∀ l : LaneId, (s.lane l).run = some slot → ∃ bs, bs.length = m ∧ bs = h.squeeze (s.hashKey j h) m ∧
        storedAt (s.lane l).bank.window (t.lane l).bank.window off bs))) ∧
  (∀ (s : State) (e : Fin 16), s.engines.chunk[e] = none → exec (.hashChunkDone e) s = .next s)

/-- Table 04-12 but for the window instructions. -/
def Obligations.DecimalInstructionsAreExact : Prop :=
  ∀ (s : State) (l : LaneId) (j : Job) (c : Ctx) (d a b : VReg) (g : GReg), s.issues l j c → s.clearOf j [d, a, b] →
    let nib := fun (v : Blk) (i : Nat) => v.toNat / 2 ^ (8 * (i / 2) + 4 * (1 - i % 2)) % 16
    let val := fun (v : Blk) (n : Nat) => (List.range n).foldl (fun (acc : Nat) i => 10 * acc + nib v i) 0
    let digits := fun (v : Blk) (n : Nat) => ∀ i, i < n → nib v i ≤ 9
    let minus := fun (v : Blk) => nib v 31 = 0xB ∨ nib v 31 = 0xD
    let holds := fun (v : Blk) (x : Int) => digits v 31 ∧ 0xA ≤ nib v 31 ∧ x = if minus v then -(val v 31 : Int) else (val v 31 : Int)
    let canon := fun (v : Blk) (x : Int) => holds v x ∧ nib v 31 = if x < 0 then 0xD else 0xC
    let bad := fun (v : Blk) => ¬ digits v 31 ∨ nib v 31 < 0xA
    let byte := fun (v : Blk) (i : Nat) => v.toNat / 2 ^ (8 * i) % 256
    let traps := fun (i : Instr) (info : BitVec 16) => c.takesTraps → trapsAt i s l c 0x0D c.pc (fun t => fsynInfo t.fsyn = info)
    (∀ x y, holds (c.rv a) x → holds (c.rv b) y →
      (∀ p ∈ ([(Instr.dadd l d a b, x + y), (.dsub l d a b, x - y)] : List (Instr × Int)),
        (p.2.natAbs < 10 ^ 31 → ∃ v, canon v p.2 ∧ retires p.1 s l (c.wv d v).next) ∧ (10 ^ 31 ≤ p.2.natAbs → traps p.1 0x4140)) ∧
      retires (.dcmp l g a b) s l (c.wg g (if x < y then 0xFFFFFFFFFFFFFFFF else if x = y then 0 else 1)).next) ∧
    (bad (c.rv a) ∨ bad (c.rv b) → traps (.dadd l d a b) 0x4010 ∧ traps (.dsub l d a b) 0x4010 ∧ traps (.dcmp l g a b) 0x4010) ∧
    (bad (c.rv a) → traps (.dcvb l g a) 0x4010 ∧ traps (.dunpkE l d a) 0x4010 ∧ traps (.dunpkA l d a) 0x4010) ∧
    (∀ x, holds (c.rv a) x →
      (-(2 ^ 63) ≤ x → x < 2 ^ 63 → retires (.dcvb l g a) s l (c.wg g (BitVec.ofInt 64 x)).next) ∧
      ((x < -(2 ^ 63) ∨ 2 ^ 63 ≤ x) → traps (.dcvb l g a) 0x4140) ∧
      (∀ p ∈ ([(Instr.dunpkE l d a, 0xF, if x < 0 then 0xD else 0xC), (.dunpkA l d a, 0x3, if x < 0 then 0x7 else 0x3)] : List (Instr × Nat × Nat)),
        (x.natAbs < 10 ^ 16 → ∃ v, retires p.1 s l (c.wv d v).next ∧
          ∀ i, i < 16 → byte v i = 16 * (if i = 15 then p.2.2 else p.2.1) + x.natAbs / 10 ^ (15 - i) % 10) ∧
        (10 ^ 16 ≤ x.natAbs → traps p.1 0x4140))) ∧
    (∃ v, canon v (c.rg g).toInt ∧ retires (.dcvd l d g) s l (c.wv d v).next) ∧
    (∀ p ∈ ([(Instr.dpackE l d a, Instr.dpackEu l d a, 0xF, 0x40, 0xC, 0xD), (.dpackA l d a, .dpackAu l d a, 0x3, 0x20, 0x3, 0x7)] :
        List (Instr × Instr × Nat × Nat × Nat × Nat)),
      ∀ k, k < 16 → (∀ i, i < k → byte (c.rv a) i = 0 ∨ byte (c.rv a) i = p.2.2.2.1) →
        (∀ i, k ≤ i → i < 15 → byte (c.rv a) i / 16 = p.2.2.1 ∧ byte (c.rv a) i % 16 ≤ 9) → byte (c.rv a) 15 % 16 ≤ 9 →
        let n := (List.range (16 - k)).foldl (fun (acc : Nat) i => 10 * acc + byte (c.rv a) (k + i) % 16) 0
        (byte (c.rv a) 15 / 16 = p.2.2.2.2.1 → ∃ v, canon v n ∧ retires p.1 s l (c.wv d v).next) ∧
        (byte (c.rv a) 15 / 16 = p.2.2.2.2.2 → ∃ v, canon v (-(n : Int)) ∧ retires p.1 s l (c.wv d v).next) ∧
        (byte (c.rv a) 15 / 16 = p.2.2.1 → ∃ v, digits v 32 ∧ val v 32 = n ∧ retires p.2.1 s l (c.wv d v).next))

/-- The window instructions of Table 04-12, and Table 04-14A. -/
def Obligations.DecimalWindowTranslationAndCheckDigits : Prop :=
  ∀ (s : State) (l : LaneId) (j : Job) (c : Ctx) (d a : VReg) (g ga gb : GReg) (n : BitVec 3), s.issues l j c → s.clearOf j [d, a] →
    let p := c.rg ga
    let m := (c.rg gb).toNat
    let off := ptrVa p - 0x10000
    let inside := ptrOk p = true ∧ 0x10000 ≤ ptrVa p ∧ ptrVa p < 0x14000
    let granted := inside ∧ off + m ≤ c.winSize ∧ (∀ x ∈ parts off m, c.colourAt x = ptrColour p) ∧ j.busyAt off m = false
    let traps := fun (i : Instr) (cause : BitVec 8) (more : Ctx → Prop) => c.takesTraps → trapsAt i s l c cause c.pc more
    let nib := fun (v : Blk) (i : Nat) => v.toNat / 2 ^ (8 * (i / 2) + 4 * (1 - i % 2)) % 16
    let digits := ∀ i, i < 32 → nib (c.rv a) i ≤ 9
    let x := (List.range 32).foldl (fun (acc : Nat) i => 10 * acc + nib (c.rv a) i) 0
    let luhn := fun (odd : Nat) => ((List.range 32).map (fun i =>
      let v := nib (c.rv a) (31 - i)
      if i % 2 = odd then (if 9 < 2 * v then 2 * v - 9 else 2 * v) else v)).sum
    (1 ≤ m → m ≤ 16 → granted →
      (∃ v : Blk, (∀ i, i < 16 → v.extractLsb' (8 * i) 8 = if i < 16 - m then 0 else Memory.read c.window (off + (i - (16 - m)))) ∧
        retires (.dld l d ga gb) s l (c.wv d v).next) ∧
      completes (.dstb l d ga gb) s (fun t => onlyLane s t l ∧ (t.lane l).bank = { c.next with window := (t.lane l).bank.window, unfenced := (t.lane l).bank.unfenced } ∧
        (off, m) ∈ (t.lane l).bank.unfenced ∧ storedAt c.window (t.lane l).bank.window off ((leBytes 16 (c.rv d).toNat).drop (16 - m)))) ∧
    ((m = 0 ∨ 16 < m) → traps (.dld l d ga gb) 0x0D (fun t => fsynInfo t.fsyn = 0x4212) ∧ traps (.dstb l d ga gb) 0x0D (fun t => fsynInfo t.fsyn = 0x4212)) ∧
    (1 ≤ m → m ≤ 16 → inside → c.winSize < off + m →
      traps (.dld l d ga gb) 0x08 (fun t => t.v = c.v) ∧ traps (.dstb l d ga gb) 0x08 (fun t => t.window = c.window)) ∧
    (1 ≤ m → m ≤ 16 → inside → off + m ≤ c.winSize → c.colourAt off ≠ ptrColour p →
      traps (.dld l d ga gb) 0x09 (fun t => t.v = c.v ∧ t.faddr = p) ∧ traps (.dstb l d ga gb) 0x09 (fun t => t.window = c.window ∧ t.faddr = p)) ∧
    (let tr := fun (k : Byte) => if n = 0 then toAscii k else if n = 1 then toEbcdic k
        else match (c.xlt.toList.getD (n.toNat - 2) none) with
          | none => k
          | some t => match tget j.tables t with | some u => u.getD k.toNat k | none => k
     (∃ w : Word, (∀ i, i < 8 → w.extractLsb' (8 * i) 8 = tr ((c.rg ga).extractLsb' (8 * i) 8)) ∧ retires (.xlat l g ga n) s l (c.wg g w).next) ∧
     (∃ w : Blk, (∀ i, i < 16 → w.extractLsb' (8 * i) 8 = tr ((c.rv a).extractLsb' (8 * i) 8)) ∧ retires (.xlatv l d a n) s l (c.wv d w).next)) ∧
    (toAscii 0xC1 = 0x41 ∧ toEbcdic 0x41 = 0xC1 ∧ toAscii 0xF9 = 0x39 ∧ toEbcdic 0x7A = 0xA9 ∧ toAscii 0x00 = 0x1A ∧ toEbcdic 0x00 = 0x3F) ∧
    (∀ (k : Fin 6), n.toNat = k.val + 2 → ∀ u, tget j.tables ((c.rg ga).toNat % 65536) = some u →
      retires (.xltSel l n ga) s l { c with xlt := c.xlt.set k.val (some ((c.rg ga).toNat % 65536)) k.isLt }.next) ∧
    ((n.toNat < 2 ∨ tget j.tables ((c.rg ga).toNat % 65536) = none) → traps (.xltSel l n ga) 0x0D (fun t => fsynInfo t.fsyn = 0x5012)) ∧
    (digits →
      retires (.luhnGen l g a) s l (c.wg g (BitVec.ofNat 64 ((10 - luhn 0 % 10) % 10))).next ∧
      retires (.luhnChk l g a) s l (c.wg g (if luhn 1 % 10 = 0 then 1 else 0)).next ∧
      ((c.rg gb).toNat < 97 → retires (.m97Step l g a gb) s l (c.wg g (BitVec.ofNat 64 (((c.rg gb).toNat * 10 ^ 32 + x) % 97))).next) ∧
      retires (.m97Gen l g a) s l (c.wg g (BitVec.ofNat 64 (98 - (x * 100) % 97))).next ∧
      retires (.m97Chk l g a) s l (c.wg g (if x % 97 = 1 then 1 else 0)).next) ∧
    (¬ digits → ∀ i ∈ [Instr.luhnGen l g a, .luhnChk l g a, .m97Gen l g a, .m97Chk l g a], traps i 0x0D (fun t => fsynInfo t.fsyn = 0x4010)) ∧
    (97 ≤ (c.rg gb).toNat → traps (.m97Step l g a gb) 0x0D (fun t => fsynInfo t.fsyn = 0x6012))

/-- Table 04-11A. -/
def Obligations.PublicKeyCallsFromALane : Prop :=
  ∀ (s : State) (l : LaneId) (j : Job) (c : Ctx) (d a : GReg), s.issues l j c →
    let p := c.rg a
    let off := ptrVa p - 0x10000
    let block := Memory.readBytes c.window off 64
    let read := ptrOk p = true ∧ 0x10000 ≤ ptrVa p ∧ ptrVa p < 0x14000 ∧ off + 64 ≤ c.winSize ∧ ∀ x ∈ parts off 64, c.colourAt x = ptrColour p
    let op : BitVec 16 := BitVec.ofNat 16 (leNat (block.take 2))
    let free := j.pke = none ∨ ∃ q, j.pke = some q ∧ (q.phase = .latched ∨ q.phase = .aborted)
    (c.takesTraps → ptrOk p = true → 0x10000 ≤ ptrVa p → ptrVa p < 0x14000 → c.winSize < off + 64 → trapsAt (.pkeCall l d a) s l c 0x08 c.pc (fun _ => True)) ∧
    (read → c.takesTraps → (opSpec op = none ∨ ¬ free) → trapsAt (.pkeCall l d a) s l c 0x0D c.pc (fun t => fsynInfo t.fsyn = 0x3012)) ∧
    (read → free → ∀ sp call, opSpec op = some sp → sp.key = none → blockReserved block = true →
      call = parseCall block off s.pke.nextOrder none → c.callRange p (call.ins.map (fun r => (false, r.1, r.2)) ++ call.outs.map (fun r => (true, r.1, r.2))) = none →
      (call.chain = true → j.region ≠ none) → s.callFormed j call sp = true →
      completes (.pkeCall l d a) s (fun t => (t.lane l).bank = (c.wg d 0).next ∧ t.mem = s.mem ∧
        ((∀ e : Fin 16, s.frame.assigned[e] = none ∨ s.pkeIdle e = false) → t.job j.slot = some { j with pke := some call } ∧
          t.pke.nextOrder = s.pke.nextOrder + 1 ∧ call.op = op ∧ call.phase = .queued ∧ ∀ x, x ≠ j.slot → t.job x = s.job x))) ∧
    (∀ q, j.pke = some q → q.phase = .latched → (q.status = 0x00 ∨ q.status = 0x33) →
      retiresJob (.pkeWait l d) s l (c.wg d (q.status.setWidth 64)).next j.slot { j with pke := none }) ∧
    (∀ q, j.pke = some q → q.phase = .aborted → retiresJob (.pkeWait l d) s l (c.wg d 0x02).next j.slot { j with pke := none }) ∧
    (∀ q, j.pke = some q → q.phase = .latched → q.status ≠ 0x00 → q.status ≠ 0x33 → c.takesTraps →
      trapsAt (.pkeWait l d) s l c 0x0D c.pc (fun t => fsynInfo t.fsyn = (0x31 : BitVec 8) ++ (q.status.setWidth 8 : BitVec 8))) ∧
    (∀ q, j.pke = some q → q.phase ≠ .latched → q.phase ≠ .aborted → (s.lane l).slotNow ≤ (s.lane l).slotLast →
      completes (.pkeWait l d) s (fun t => (t.lane l).run = none ∧ (j.slot, c) ∈ (t.lane l).resident ∧
        ∃ j', t.job j.slot = some j' ∧ j'.st = .waiting .pke ∧ j' = { j with st := j'.st, used := j'.used })) ∧
    (j.pke = none → completes (.pkeWait l d) s (fun t => ∃ w, (t.lane l).bank = (c.wg d w).next ∧ onlyLane s t l)) ∧
    (∀ q, j.pke = some q → (q.phase = .aborted ∨ q.phase = .aborting) → retires (.pkeAbort l d) s l (c.wg d 1).next) ∧
    (j.pke = none → retires (.pkeAbort l d) s l (c.wg d 2).next) ∧
    (∀ q, j.pke = some q → q.phase = .latched → retires (.pkeAbort l d) s l (c.wg d 0).next) ∧
    (∀ q, j.pke = some q → q.phase = .queued → retiresJob (.pkeAbort l d) s l (c.wg d 1).next j.slot { j with pke := some { q with phase := .aborted }, region := none }) ∧
    (∀ q, j.pke = some q → (q.phase = .running ∨ q.phase = .computed ∨ q.phase = .written) →
      retiresJob (.pkeAbort l d) s l (c.wg d 1).next j.slot { j with pke := some { q with phase := .aborting } })

/-- Tables 06-1 and 06-2: the operations. -/
def Obligations.EnginesComputeTheirOperation : Prop :=
  ∀ (s : State) (e : Fin 16) (slot : Nat) (j : Job) (q : PkeCall), s.pke.running[e] = some slot → s.job slot = some j → j.pke = some q →
    q.phase = .running → q.status = 0x00 →
    let fam := q.op.toNat / 256
    let kind := q.op.toNat / 16 % 16
    let x := q.inputs
    let a := beNat (x.getD 0 [])
    let b := beNat (x.getD 1 [])
    let m := beNat (x.getD 2 [])
    let key := match q.key with | some h => some (s.keyValue j.bound h) | none => q.chainKey
    let holds := fun (i : Instr) (st : BitVec 7) (outs : List Bytes) (secret : Option Bytes) => completes i s (fun t =>
      t.job slot = some { j with pke := some { q with phase := .computed, status := st, results := outs, secret := secret } } ∧
      (∀ k, k ≠ slot → t.job k = s.job k) ∧ t.lanes = s.lanes ∧ t.mem = s.mem ∧ t.insts = s.insts)
    let good := m % 2 = 1 ∧ 2 ^ 63 ≤ m ∧ (x.getD 2 []).headD 0 ≠ 0
    let value := fun (v : Nat) => [beBytes (x.getD 2 []).length v]
    (∀ p ∈ ([(Instr.modmul e, 1, a * b % m), (.modadd e, 2, (a + b) % m), (.modsub e, 3, (a + m - b) % m)] : List (Instr × Nat × Nat)),
      fam = 1 → kind = p.2.1 →
        (good → a < m → b < m → holds p.1 0x00 (value p.2.2) none) ∧ (¬ good → holds p.1 0x44 [] none) ∧ (good → (m ≤ a ∨ m ≤ b) → holds p.1 0x40 [] none)) ∧
    (∀ p ∈ [(Instr.modexp e, 4), (.modexpPub e, 5)], fam = 1 → kind = p.2 →
      (good → a < m → b < 2 ^ (8 * (x.getD 1 []).length) → holds p.1 0x00 (value (a ^ b % m)) none) ∧ (¬ good → holds p.1 0x44 [] none)) ∧
    (fam = 1 → kind = 6 → (¬ good → holds (.modinv e) 0x44 [] none) ∧
      (good → a < m → (∃ st outs, holds (.modinv e) st outs none ∧ (st = 0x00 → ∃ v, outs = value v ∧ v < m ∧ a * v % m = 1)))) ∧
    (q.op = 0x0010 → completes (.pkeFree e) s (fun t => t.job slot = some { j with pke := some { q with phase := .computed }, region := none } ∧
      ∀ k, k ≠ slot → t.job k = s.job k)) ∧
    (q.op = 0x0020 → completes (.pkeStage e) s (fun t => (∀ k, k ≠ slot → t.job k = s.job k) ∧
      t.job slot = some { j with pke := some { q with phase := .computed }, region := j.region.map (fun r => { r with
        retained := (List.range 6).map (fun i => (if q.chain then r.retained.getD i [] else []) ++ x.getD i []), stale := false }) })) ∧
    (q.op = 0x0030 → ∃ y : Bytes, y.length = (q.outs.getD 0 (0, 0)).2 ∧ holds (.pkeNonce e) 0x00 [y] none) ∧
    (∀ p ∈ ([(Instr.rsaSign e, 2, 1, rsaSign q.op key x q.seed), (.rsaVerify e, 2, 2, rsaVerify x), (.rsaDecrypt e, 2, 3, rsaDecrypt key x),
        (.rsaEncrypt e, 2, 4, rsaEncrypt q.op x q.seed), (.rsaKeygen e, 2, 5, rsaKeygen q.op x q.seed),
        (.ecdsaSign e, 3, 1, ecdsaSign q.op key x q.seed), (.ecdsaVerify e, 3, 2, ecdsaVerify q.op x), (.ecdh e, 3, 3, ecdh q.op key x),
        (.ecKeygen e, 3, 4, ecKeygen q.op q.seed), (.validate e, 3, 5, validatePoint q.op x), (.eddsaSign e, 4, 1, eddsaSign q.op key x),
        (.eddsaVerify e, 4, 2, eddsaVerify q.op x), (.xdh e, 4, 3, xdh q.op key x), (.eddsaKeygen e, 4, 4, eddsaKeygen q.op q.seed),
        (.xdhKeygen e, 4, 5, xdhKeygen q.op q.seed), (.mlKemKeygen e, 5, 1, mlKemKeygen q.op q.seed),
        (.mlKemEncaps e, 5, 2, mlKemEncaps q.op x q.seed), (.mlKemDecaps e, 5, 3, mlKemDecaps q.op key x),
        (.mlDsaKeygen e, 6, 1, mlDsaKeygen q.op q.seed), (.mlDsaSign e, 6, 2, mlDsaSign q.op key x q.seed),
        (.mlDsaVerify e, 6, 3, mlDsaVerify q.op x), (.xmssKeygen e, 7, 1, xmssKeygen q.op q.seed), (.xmssVerify e, 7, 3, xmssVerify q.op x),
        (.slhDsaVerify e, 8, 3, slhVerify q.op x)] : List (Instr × Nat × Nat × Config.PkeOut)),
      fam = p.2.1 → kind = p.2.2.1 → holds p.1 p.2.2.2.status p.2.2.2.outs p.2.2.2.secret) ∧
    (fam = 2 → kind = 2 → ((x.getD 1 []).getD 0 0) = 0 → m % 2 = 1 → 2 ^ 1023 ≤ m → (x.getD 2 []).headD 0 ≠ 0 →
      let ex := beNat (x.getD 3 [])
      let sig := beNat (x.getD 4 [])
      ex % 2 = 1 → 3 ≤ ex → sig < m → holds (.rsaVerify e) (if sig ^ ex % m = a then 0x00 else 0x33) [] none) ∧
    (fam = 7 → kind = 2 → ∀ h n, q.key = some h → s.node (hInst h) (hNode h) = some n →
      (n.leaf.1 < n.leaf.2 → completes (.xmssSign e) s (fun t => (∃ j' q', t.job slot = some j' ∧ j'.pke = some q' ∧ q'.phase = .computed ∧
        q'.results = (xmssSignLeaf key x n.leaf.1).outs ∧ q'.status = 0x00) ∧
        (t.node (hInst h) (hNode h)).map (·.leaf) = some (n.leaf.1 + 1, n.leaf.2))) ∧
      (n.leaf.2 ≤ n.leaf.1 → n.asked = none → n.numbers ≤ n.invBlk * n.blockSize → holds (.xmssSign e) 0x23 [] none) ∧
      (n.leaf.2 ≤ n.leaf.1 → (n.asked ≠ none ∨ n.invBlk * n.blockSize < n.numbers) → completes (.xmssSign e) s (fun t =>
        t.jobs = s.jobs ∧ t.mem = s.mem ∧ ∃ n', t.node (hInst h) (hNode h) = some n' ∧ n'.asked.isSome = true ∧ n'.leaf = n.leaf))) ∧
    ((fam ≠ 2 ∨ kind ≠ 1) → (∀ r ∈ s.pke.twinRepeats, r.engine ≠ some e) → completes (.rsaSign e) s (fun t => t.jobs = s.jobs ∧ t.mem = s.mem))

/-- R218, R238, R239 and R241. -/
def Obligations.EndOfPublicKeyOperation : Prop :=
  (∀ (s : State) (e : Fin 16) (slot : Nat) (j : Job) (q : PkeCall), s.pke.running[e] = some slot → s.job slot = some j → j.pke = some q →
    (s.frame.cycle < 192 ∨ ∀ x : Fin 16, s.frame.assigned[x] = none) →
    (q.phase ≠ .computed → ∀ k, exec (.pkeOperationDone e k) s = .next s) ∧
    (q.phase = .computed → (repeats q.op = false ∨ q.localRepeat = true) → q.status ≠ 0x00 → completes (.pkeOperationDone e .good) s (fun t =>
      (∃ reg, t.job slot = some { j with pke := some { q with phase := .written, results := [], secret := none }, region := reg } ∧
        reg.isSome = j.region.isSome ∧ (q.op ≠ 0x0010 → q.op ≠ 0x0020 → ∀ r, reg = some r → r.retained = [])) ∧
      (∀ x : Fin 16, t.pke.running[x] ≠ some slot) ∧ ∀ k, k ≠ slot → t.job k = s.job k)) ∧
    (q.phase = .computed → (repeats q.op = false ∨ q.localRepeat = true) → q.status = 0x00 → q.creates = false → q.fits q.results = true →
      completes (.pkeOperationDone e .good) s (fun t =>
        (∃ reg, t.job slot = some { j with
            pke := some { q with phase := .written, made := none, results := [], secret := none, inputs := [], chainKey := none, wrote := q.results.map List.length }
            region := reg
            block := (t.job slot).elim {} (·.block) } ∧
          (q.op ≠ 0x0010 → q.op ≠ 0x0020 → ∀ r, reg = some r → r.retained = q.results)) ∧
        (∀ l, (s.lane l).run = some slot → (t.lane l).bank =
          (s.lane l).bank.putOuts q q.results ((q.results.getD 0 []).length, (q.results.getD 1 []).length)) ∧
        (∀ x : Fin 16, t.pke.running[x] ≠ some slot) ∧ ∀ k, k ≠ slot → t.job k = s.job k)) ∧
    (q.phase = .computed → (repeats q.op = true ∨ signs q.op = true) → completes (.pkeOperationDone e .failed) s (fun t => (∃ j' q', t.job slot = some j' ∧ j'.pke = some q' ∧ j'.region = none ∧
      q'.phase = .written ∧ q'.status = 0x43 ∧ q'.results = [] ∧ q'.secret = none) ∧ t.fenced (46 + e.val) = true ∧
      ∀ x : Fin 16, s.pke.running[x] = some slot → t.fenced (46 + x.val) = true))) ∧
  (∀ (s : State) (slot : Nat),
    (s.job slot = none → exec (.pkeAbortComplete slot) s = .next s) ∧
    (∀ j q, s.job slot = some j → j.pke = some q → q.phase ≠ .aborting → exec (.pkeAbortComplete slot) s = .next s) ∧
    (∀ j q, s.job slot = some j → j.pke = some q → q.phase = .aborting → (s.frame.cycle < 192 ∨ ∀ x : Fin 16, s.frame.assigned[x] = none) → completes (.pkeAbortComplete slot) s (fun t =>
      (∃ j', t.job slot = some j' ∧ j'.region = none ∧ (j.finished = true → j'.pke = none) ∧
        (j.finished = false → ∃ q', j'.pke = some q' ∧ q'.phase = .aborted ∧ q'.results = [] ∧ q'.secret = none) ∧
        (j.st = .waiting .pke → j'.st = .runnable)) ∧
      (q.wrote ≠ [] → ∀ l, (s.lane l).run = some slot → (t.lane l).bank = (s.lane l).bank.putOuts q (q.wrote.map zeros) (0, 0)) ∧
      (∀ x : Fin 16, t.pke.running[x] ≠ some slot) ∧ ∀ k, k ≠ slot → t.job k = s.job k))) ∧
  (∀ (s : State) (slot : Nat),
    (s.repeatDue slot = none → exec (.xcheckRepeatStart slot) s = .next s) ∧ (s.crossChecks = false → exec (.xcheckRepeatStart slot) s = .next s) ∧
    (∀ c f e, s.repeatDue slot = some (c, f) → s.crossChecks = true → (∀ r ∈ s.pke.twinRepeats, ¬ (r.call.slot = slot ∧ r.ckpt = f)) →
      s.repeatEngine c.inst = some e → s.regionsOfOthers e 16384 + s.repeatSize c ≤ 16 → completes (.xcheckRepeatStart slot) s (fun t =>
        ∃ r, t.pke.twinRepeats = s.pke.twinRepeats ++ [r] ∧ r.call = c ∧ r.ckpt = f ∧ r.engine = some e ∧ t = { s with pke := t.pke } ∧
          t.frame.assigned[e] = some c.inst)))

/-- R198 to R204. -/
def Obligations.EntropyPoolAndReseeds : Prop :=
  (∀ (s : State) (src : Fin 4) (raw : BitVec 1536),
    let fails := fun (code : BitVec 16) (t : State) => t.fenced (42 + src.val) = true ∧ t.engines.pool = s.engines.pool ∧ t.jobs = s.jobs ∧ t.mem = s.mem ∧
      (s.strata.frozen = none → s.strata.buffer.length < 2047 → ∃ e ∈ t.strata.buffer, e.code = code ∧ e.p1.toNat = src.val)
    (s.fenced (42 + src.val) = true → exec (.seedConditioned src raw) s = .next s) ∧
    (s.fenced (42 + src.val) = false → s.engines.health[src] = {} → (∀ k, k < 41 → raw.getLsbD k = raw.getLsbD 0) →
      completes (.seedConditioned src raw) s (fails 0x5010)) ∧
    (s.fenced (42 + src.val) = false → ∀ prop n, (s.engines.health[src]).bits (rawBits 1536 raw) = .inr (prop, n) →
      completes (.seedConditioned src raw) s (fails (if prop then 0x5011 else 0x5010))) ∧
    (s.fenced (42 + src.val) = false → ∀ h, (s.engines.health[src]).bits (rawBits 1536 raw) = .inl h →
      (s.turnOf = some src.val → s.engines.pool.length < 64 → completes (.seedConditioned src raw) s (fun t =>
        let seed := Config.sha3_384 (leBytes 192 raw.toNat)
        (∃ k, t.engines.pool = (s.engines.pool ++ [seed]).drop k) ∧ t.jobs = s.jobs ∧ t.mem = s.mem ∧
        t.engines.health[src] = h ∧ t.engines.nextSource = src.val + 1 ∧
        ((∀ j ∈ s.jobs, ∀ n : Fin 4, ∀ h, j.hash[n] = some h → h.alg ≠ 0x40) → t.engines.pool = s.engines.pool ++ [seed]))) ∧
      ((s.turnOf ≠ some src.val ∨ 64 ≤ s.engines.pool.length) → completes (.seedConditioned src raw) s (fun t =>
        t = { s with engines := { s.engines with health := s.engines.health.set src.val h src.isLt } })))) ∧
  (∀ (s : State) (i : Fin 8),
    let d := s.engines.drbg[i]
    let due := d.reseededAt + 1000 ≤ s.frame.num ∨ 65536 ≤ d.calls
    (¬ due → exec (.drbgReseed i) s = .next s) ∧
    (due → s.engines.pool = [] → completes (.drbgReseed i) s (fun t => t.engines.drbg[i] = { d with stopped := true } ∧
      ∀ k : Fin 8, k ≠ i → t.engines.drbg[k] = s.engines.drbg[k])) ∧
    (∀ seed rest, due → s.engines.pool = seed :: rest → (∀ k : Fin 8, (s.engines.drbg[k]).busy = none) → (∀ j ∈ s.jobs, ∀ n : Fin 4, ∀ h, j.hash[n] = some h → h.alg ≠ 0x40) →
      completes (.drbgReseed i) s (fun t => t.engines.pool = rest ∧
        t.engines.drbg[i] = { d with work := some (match d.work with | some w => Config.drbgReseed w seed | none => Config.drbgInstantiate seed [BitVec.ofNat 8 i.val]), calls := 0, reseededAt := s.frame.num, stopped := false })) ∧
    (d.busy = none → exec (.drbgCallDone i) s = .next s) ∧
    (∀ slot k j h off len rest w, d.busy = some (slot, k) → d.work = some w → s.job slot = some j → j.hash[k] = some h → h.reqs = .squeeze off len :: rest →
      d.held = false →
      (len ≤ d.done + 4096 → completes (.drbgCallDone i) s (fun t => ∃ j' h', t.job slot = some j' ∧ j'.hash[k] = some h' ∧ h'.squeezed = h.squeezed + len ∧
        (rest = [] → h'.reqs = [] ∧ (j.st = .waiting (.hash k) → j'.st = .runnable)))) ∧
      (d.done + 4096 < len → completes (.drbgCallDone i) s (fun t => (t.engines.drbg[i]).calls = d.calls + 1 ∧ (t.engines.drbg[i]).done = d.done + 4096 ∧
        (∀ l, (s.lane l).run = some slot → ∃ bs : Bytes, bs.length = 4096 ∧
          storedAt (s.lane l).bank.window (t.lane l).bank.window (off + d.done) bs))))) ∧
  (∀ (s : State) (src : Fin 4) (prop : Bool) (n : Nat), completes (.entropyTestFail src prop n) s (fun t => t.fenced (42 + src.val) = true ∧
    (s.strata.frozen = none → s.strata.buffer.length < 2047 → ∃ e ∈ t.strata.buffer, e.code = (if prop then 0x5011 else 0x5010) ∧ e.p1.toNat = src.val) ∧
    t.jobs = s.jobs ∧ t.mem = s.mem))

/-- FRAME_START, THERMAL_FALLBACK, FRAME_SYNC_IN_EDGE, ALIGN_WARN, GRANT_COMPUTE. That ALIGN_WARN starts its count afresh is the model's choice. -/
def Obligations.FramesThermalLevelsAndGrants : Prop :=
  ∀ (s : State), s.ticks = true →
    (∀ p ∈ ([(Instr.stagedCommit, 0, 1), (.grantCompute, 1, 32), (.admission, 32, 64), (.sliceArbitration, 64, 192), (.tailStart, 192, 11200),
        (.carryBlockRequests, 11200, 11372), (.contextSave, 11200, 11380), (.checkpointSeal, 11200, 11560), (.twinExchange, 11200, 11640),
        (.completionRelease, 11200, 11800), (.strataFlush, 11800, 11920)] : List (Instr × Nat × Nat)),
      (s.frame.cycle < p.2.1 ∨ p.2.2 ≤ s.frame.cycle) → exec p.1 s = .next s) ∧
    (∀ (tj : Int), s.frame.cycle < 11920 → exec (.frameStart tj) s = .next s) ∧
    (∀ (tj : Int), 11920 ≤ s.frame.cycle → s.power.fail = none → s.prot.restartDue = none →
      let f := s.frame
      let reached := if (f.thresh : Int) + 4 < tj then 3 else if (f.thresh : Int) + 2 < tj then 2 else if (f.thresh : Int) < tj then 1 else 0
      completes (.frameStart tj) s (fun t =>
        t.frame.num = s.twin.jump.getD (f.num + 1) ∧ t.frame.cycle = 0 ∧ t.frame.tj = tj ∧ t.frame.level = max f.level reached ∧
        t.frame.cool = (if f.level < reached then 0 else if 0 < f.level ∧ tj ≤ f.thresh + 2 * ((f.level : Int) - 1) - 2 then f.cool + 1 else 0) ∧
        (f.level < reached → t.frame.shedSeen = true ∧ t.frame.changed = true) ∧ t.frame.admitted = 0 ∧ t.mail.consumed = 0 ∧
        (s.works = true → ∀ (i : Nat) (x : Inst), s.inst i = some x → ∃ y : Inst, t.inst i = some y ∧
          let served := x.state ≠ .resetting ∧ x.state ≠ .removing ∧ x.state ≠ .dormant
          y.reqLatched = (if served ∧ x.state ≠ .frozen then x.reqTail else x.reqLatched) ∧
          ∀ q : Fin 4,
            (¬ served → y.qs[q].sqLatched = x.qs[q].sqLatched ∧ y.qs[q].cancels = x.qs[q].cancels) ∧
            (served → x.qs[q].en = false → y.qs[q].active = false ∧ y.qs[q].cancels = [] ∧ y.qs[q].cancelsNow = x.qs[q].cancels) ∧
            (served → x.qs[q].en = true → y.qs[q].active = true ∧ y.qs[q].sqLatched = x.qs[q].sqTail ∧ y.qs[q].ready = x.qs[q].fetched.length ∧
              y.qs[q].cancelsNow = x.qs[q].cancels ∧ y.qs[q].cancels = [] ∧
              (x.qs[q].active = false → y.qs[q].sqHead = 0 ∧ y.qs[q].taken = 0 ∧ y.qs[q].cqTail = 0 ∧ y.qs[q].phase = true))))) ∧
    (s.frame.cycle = 0 → 100 ≤ s.frame.cool → 0 < s.frame.level → completes .thermalFallback s (fun t =>
      t.frame.level = s.frame.level - 1 ∧ t.frame.cool = 0 ∧ t.frame.changed = true ∧
      t.strata = s.strata.gather (s.event 0x1001 false (s.frame.level - 1) s.frame.level (tc32 s.frame.tj)) ∧
      t = { s with frame := t.frame, strata := t.strata })) ∧
    (∀ (offset : Int), s.inPair = true → completes (.frameSyncInEdge offset) s (fun t =>
      t.twin.partnerSync = true ∧ t = { s with frame := t.frame, twin := t.twin } ∧
      (s.frame.leader = true → t.frame = s.frame ∧ t.twin.heartbeat = s.twin.heartbeat) ∧
      (s.frame.leader = false → t.frame.offset = offset ∧ t.frame.syncSeen = true ∧
        t.frame.badAlign = (if 50 < offset.natAbs then s.frame.badAlign + 1 else 0) ∧
        t.twin.heartbeat = (s.twin.heartbeat && decide (offset.natAbs ≤ 1000))))) ∧
    (16 ≤ s.frame.badAlign → completes .alignWarn s (fun t =>
      t = { s with frame := t.frame, strata := t.strata } ∧ t.frame = { s.frame with alignWarn := true, badAlign := 0 } ∧
      t.strata = s.strata.gather (s.event 0x1002 false (tc32 s.frame.offset) (if s.frame.syncMarker then 1 else 0) 0))) ∧
    (s.works = true → 1 ≤ s.frame.cycle → s.frame.cycle < 32 → completes .grantCompute s (fun t =>
      t = { s with frame := { s.frame with cycle := 32, grants := t.frame.grants } } ∧
      ∀ r, r < 5 →
        let d := fun (i : Nat) => s.demandNow i r
        let floor := fun (i : Nat) => min (d i) (s.floorOf i r)
        (∀ (i : Nat) (x : Inst), s.inst i = some x → floor i ≤ t.granted i r ∧ t.granted i r ≤ d i ∧
          t.granted i r ≤ max (s.floorOf i r) (s.ceilOf i r) ∧ (s.frame.lendEn = false → t.granted i r = floor i)) ∧
        ((s.insts.map (·.1)).Nodup → ((s.insts.map (·.1)).map floor).sum ≤ s.capacity r →
          ((s.insts.map (·.1)).map (fun i => t.granted i r)).sum ≤ s.capacity r ∧
          (s.frame.lendEn = true → ((s.insts.map (·.1)).map (fun i => t.granted i r)).sum < s.capacity r →
            ∀ (i : Nat) (x : Inst), s.inst i = some x → t.granted i r = d i ∨ s.ceilOf i r ≤ t.granted i r))))

/-- ADMISSION, STAGED_COMMIT, RESERVATION_COMMIT. -/
def Obligations.AdmissionCommitAndReservations : Prop :=
  ∀ (s : State), s.works = true →
    let s0 := { s with frame := { s.frame with cycle := 64 } }
    let picked := if s.drains then [] else s0.toAdmit
    (32 ≤ s.frame.cycle → s.frame.cycle < 64 → completes .admission s (fun t => t.frame.cycle = 64 ∧ t.jobs.length = s.jobs.length + picked.length ∧
      picked.length ≤ 2048 ∧ (picked = [] ∨ t.jobs.length ≤ 16384) ∧
      ((s.jobs.map (·.slot)).Nodup → (∀ j ∈ s.jobs, j.slot < 16384) → (t.jobs.map (·.slot)).Nodup ∧ ∀ j ∈ t.jobs, j.slot < 16384) ∧
      ((∀ e ∈ s.insts, ∀ q : Fin 4, e.2.qs[q].cancelsNow = []) → ∀ c : Candidate, picked = [c] → ∃ j : Job, t.jobs.getLast? = some j ∧
        j.desc = c.desc ∧ j.inst = c.inst ∧ j.q = c.q ∧ j.order = s.nextJob ∧ j.admittedAt = s.frame.num ∧ j.slot ∉ s.jobs.map (·.slot) ∧
        (∀ (st : BitVec 7) (d : BitVec 16), s0.refusal c = some (st, d) → j.st = .finished ∧ j.status = st ∧ j.detail = d) ∧
        (s0.refusal c = none → s.keysOf c = [] → j.st = .runnable)))) ∧
    (s.atCommit → s.staged = [] → s.prot.log = [] → completes .stagedCommit s (fun t =>
      t.frame.cycle = 1 ∧ (t.frame.lendEn, t.frame.shedIrq, t.frame.thresh) = s.frame.stagedCtrl.getD (s.frame.lendEn, s.frame.shedIrq, s.frame.thresh) ∧
      t.frame.horizon = s.frame.stagedLend.getD s.frame.horizon ∧ t.frame.stagedCtrl = none ∧ t.frame.stagedLend = none ∧
      t.passes.revert = s.passes.revertStaged.getD s.passes.revert ∧ t.passes.period = s.passes.periodStaged.getD s.passes.period ∧
      t.passes.revertStaged = none ∧ t.passes.periodStaged = none ∧
      t.net.udp = s.net.regStaged.2.1.getD s.net.udp ∧ t.net.replay = s.net.regStaged.2.2.getD s.net.replay ∧ t.net.regStaged = (none, none, none))) ∧
    (∀ (cfg : TamperCfg) (d : Dest) (tag : BitVec 16), s.atCommit → s.staged = [.tamperCfg cfg d tag] → completes .stagedCommit s (fun t =>
      t.life.cfg = cfg ∧ ∃ r ∈ t.mail.replies, r.dest = d ∧ r.tag = tag ∧ r.mtype = 0xDC ∧ r.status = 0)) ∧
    (∀ (base : Word) (k : Nat) (en : Bool) (d : Dest) (tag : BitVec 16), s.atCommit → s.staged = [.jrnlSet base k en d tag] →
      let moves := base ≠ s.quarry.ring.1 ∨ k ≠ s.quarry.ring.2.1
      completes .stagedCommit s (fun t => ∃ r ∈ t.mail.replies, r.dest = d ∧ r.tag = tag ∧ r.mtype = 0xA0 ∧
        ((s.quarry.written = [] ∨ ¬ moves) → t.quarry.ring = (base, k, en) ∧ r.status = 0) ∧
        (s.quarry.written ≠ [] → moves → t.quarry.ring = s.quarry.ring ∧ r.status = 0x10))) ∧
    (∀ (i k : Nat), (s.node i k = none ∨ 32 ≤ s.frame.cycle ∨ ∃ n, s.node i k = some n ∧ n.askedUse = none ∧ n.asked = none) →
      exec (.reservationCommit i k) s = .next s) ∧
    (∀ (i k : Nat) (n : Node) (f b : Nat), s.node i k = some n → s.frame.cycle < 32 →
      let quiet := ∀ j ∈ s.jobs, j.inst = i → j.st ≠ .waiting .reservation
      (n.asked = some (f, b) → n.askedUse = none →
        ((s.frame.num < f + 2 ∨ s.blockSafe i k false = false) → exec (.reservationCommit i k) s = .next s) ∧
        (f + 2 ≤ s.frame.num → s.blockSafe i k false = true → quiet → completes (.reservationCommit i k) s (fun t => ∃ m : Node, t.node i k = some m ∧
          m = { n with asked := none, leaf := m.leaf, invCur := m.invCur } ∧
          (n.ktype = 0x81 → m.leaf = (16 * b, min (16 * (b + 1)) 65536) ∧ m.invCur = n.invCur) ∧
          (n.ktype ≠ 0x81 → m.leaf = n.leaf ∧ ∃ a, m.invCur = some (a, min (65536 * (b + 1)) n.invLimit) ∧
            (a = 65536 * b ∨ ∃ e, n.invCur = some (a, e) ∧ e = 65536 * b))))) ∧
      (n.askedUse = some (f, b) → n.asked = none →
        ((s.frame.num < f + 2 ∨ s.blockSafe i k true = false) → exec (.reservationCommit i k) s = .next s) ∧
        (f + 2 ≤ s.frame.num → s.blockSafe i k true = true → quiet → completes (.reservationCommit i k) s (fun t =>
          t.node i k = some { n with askedUse := none, useBlk := n.useBlk + b }))))

/-- SLICE_ARBITRATION, SLICE_START, SLICE_END, CARRY_BLOCK_REQUESTS, CONTEXT_SAVE. -/
def Obligations.SlicesAreGrantedStartedAndEnded : Prop :=
  ∀ (s : State), s.works = true →
    (64 ≤ s.frame.cycle → s.frame.cycle < 192 → completes .sliceArbitration s (fun t => t.frame.cycle = 192 ∧
      (∀ l : LaneId, ((t.lane l).grants.Pairwise (fun (a b : Grant) => a.last < b.first)) ∧
        ∀ g ∈ (t.lane l).grants, g.first ≤ g.last ∧ g.last < s.slotCap ∧ s.laneUp l.val = true) ∧
      ((s.jobs.map (·.slot)).Nodup → (t.lanes.toList.flatMap (fun (x : Lane) => x.grants.map (·.job))).Nodup) ∧
      ((s.jobs.map (·.slot)).Nodup → ∀ i : Nat,
        (t.lanes.toList.flatMap (fun (x : Lane) => x.grants.map (fun (g : Grant) =>
          if (s.job g.job).any (fun (j : Job) => j.inst == i) then g.last + 1 - g.first else 0))).sum ≤ s.granted i 0))) ∧
    (∀ (l : LaneId) (g : Grant) (j : Job), (s.lane l).run = none → s.laneUp l.val = true → 192 ≤ s.frame.cycle → s.frame.cycle < 11200 →
      s.nextGrant l = some (g, j) → j.started = true → (s.ctxOf j).held = none →
      completes (.sliceStart l) s (fun t => (t.lane l).run = some j.slot ∧ (t.lane l).slotNow = g.first ∧ (t.lane l).slotLast = g.last ∧
        (t.lane l).bank = { s.ctxOf j with bankBit := (s.lane l).second } ∧
        (let vmid := (if j.hollow then 1024 else 0) + j.inst
         let root := (tget s.prot.s2roots vmid).getD 0
         ∀ i, i < 64 → (t.lane l).ttb2.getLsbD i = if i = 0 ∨ (12 ≤ i ∧ i < 40) then root.getLsbD i else decide (40 ≤ i) && vmid.testBit (i - 40)) ∧
        (t.lane l).tlb = (s.lane l).tlb ∧ (t.lane l).hollow = (s.lane l).hollow ∧
        (∀ k : LaneId, k ≠ l → t.lane k = { s.lane k with resident := (s.lane k).resident.filter (fun e => e.1 != j.slot) }) ∧
        (t.job j.slot).any (fun (x : Job) => x.st == .running && x.lastRun == some s.frame.num) = true ∧
        t = { s with lanes := t.lanes, jobs := t.jobs, frame := { s.frame with cycle := max s.frame.cycle (256 + 342 * g.first) } })) ∧
    (∀ (l : LaneId) (j : Job), (s.lane l).run = some j.slot → s.job j.slot = some j → (s.lane l).stopped = false → (s.lane l).entry = none →
      completes (.sliceEnd l) s (fun t => 
        t.lane l = { s.lane l with
          run := none, bank := (s.lane l).idle, idle := (s.lane l).bank, second := !(s.lane l).second
          resident := (s.lane l).resident.filter (fun e => e.1 != j.slot) ++ [(j.slot, (s.lane l).bank)] } ∧
        (∀ k : LaneId, k ≠ l → t.lane k = s.lane k) ∧
        t.job j.slot = some { j with st := .runnable, used := j.used + ((s.lane l).slotLast + 1 - (s.lane l).slotNow) } ∧
        t = { s with lanes := t.lanes, jobs := t.jobs })) ∧
    (let left := s.cipher.reqs.filter (fun r => r.core.isNone)
     11200 ≤ s.frame.cycle → s.frame.cycle < 11372 → completes .carryBlockRequests s (fun t => t.frame.cycle = 11372 ∧
       t.cipher.reqs = s.cipher.reqs.map (fun (r : BlkReq) => { r with carried := r.carried || r.core.isNone }) ∧
       (left = [] → t.strata = s.strata ∧ t.pmc = s.pmc) ∧
       (left ≠ [] → t.strata = s.strata.gather { s.event 0x5002 false left.length ((left.map (·.lane)).eraseDups.length) 0 with cycle := 11372 } ∧
         t.pmc = (s.countGlob 60 left.length).pmc) ∧
       t = { s with frame := t.frame, cipher := t.cipher, strata := t.strata, pmc := t.pmc })) ∧
    (11200 ≤ s.frame.cycle → s.frame.cycle < 11380 → completes .contextSave s (fun t => t.frame.cycle = 11380 ∧ t.cipher.reqs = s.cipher.reqs ∧
      t.cipher.kss.map (fun e => { e with pinned := false }) = s.cipher.kss.map (fun e => { e with pinned := false }) ∧
      (∀ e ∈ t.cipher.kss, e.pinned = true → ∃ r ∈ s.cipher.reqs, r.carried = true ∧ r.inst = e.inst ∧ hNode r.key = e.node) ∧
      t.jobs = s.jobs.map (fun (j : Job) => if j.lastRun = some s.frame.num then { j with saved := some (s.ctxOf j) } else j) ∧
      t = { s with frame := t.frame, cipher := t.cipher, jobs := t.jobs }))

/-- TAIL_START, DEADLINE_REACHED, STEP_LIMIT, CHECKPOINT_SEAL, TWIN_EXCHANGE, COMPLETION_RELEASE, STRATA_FLUSH. -/
def Obligations.TailEndsDeadlinesSealAndRelease : Prop :=
  ∀ (s : State), s.ticks = true →
    (s.prot.hollow ≠ .halted → 192 ≤ s.frame.cycle → s.frame.cycle < 11200 → completes .tailStart s (fun t => t.frame.cycle = 11200 ∧ t.prot.fence = [] ∧
      (∀ l : LaneId, (s.lane l).stopped = false → (t.lane l).run = none) ∧
      (∀ l : LaneId, (s.lane l).run = none → t.lane l = s.lane l) ∧
      t.jobs.map (·.slot) = s.jobs.map (·.slot) ∧
      ∀ (j : Job) (q : PkeCall), s.job j.slot = some j → j.pke = some q → q.phase = .written → (∀ l : LaneId, (s.lane l).run ≠ some j.slot) →
        t.job j.slot = some { j with pke := some { q with phase := .latched }, st := if j.st = .waiting .pke then .runnable else j.st })) ∧
    (11200 ≤ s.frame.cycle → s.prot.hollow = .running → (s.jobs.map (·.slot)).Nodup →
      completes .deadlineReached s (fun t => ∀ j ∈ s.jobs,
        let due := j.st ≠ .finished ∧ ∃ d, j.deadlineFrame = some d ∧ d ≤ s.frame.num
        (¬ due → t.job j.slot = some j) ∧
        (due → j.desc.flags.getLsbD 2 = false → t.job j.slot = some { j with missed := true }) ∧
        (due → j.desc.flags.getLsbD 2 = true → ∃ k : Job, t.job j.slot = some k ∧ k.missed = true ∧
          (j.squashed = none → k.st = .finished ∧ k.status = 0x03 ∧ k.squashed = some (s.frame.num + 1))))) ∧
    (11200 ≤ s.frame.cycle → s.prot.hollow = .running → (s.jobs.map (·.slot)).Nodup →
      completes .stepLimit s (fun t => ∀ j ∈ s.jobs, j.st ≠ .finished → (∀ d, j.deadlineFrame = some d → s.frame.num < d) →
        let last := j.admittedAt + (if j.desc.stepBudget = 0 then 100000 else j.desc.stepBudget.toNat) - 1
        (s.frame.num < last → t.job j.slot = some j) ∧
        (last ≤ s.frame.num → j.squashed = none →
          ∃ k : Job, t.job j.slot = some k ∧ k.st = .finished ∧ k.status = 0x52 ∧ k.squashed = some (s.frame.num + 1)))) ∧
    (s.isPaired = false → s.copiesLive = false → 11200 ≤ s.frame.cycle → s.frame.cycle < 11560 → exec .checkpointSeal s = .next { s with frame := { s.frame with cycle := 11560 } }) ∧
    (s.isPaired = true → 11200 ≤ s.frame.cycle → s.frame.cycle < 11560 → completes .checkpointSeal s (fun t => t.frame.cycle = 11560 ∧
      ∃ c : Checkpoint, t.twin.sent = s.twin.sent ++ [c] ∧ c.frame = s.frame.num ∧ c.digest = t.twin.lastDigest ∧
        (∀ n ∈ c.finished, ∃ j ∈ s.jobs, j.slot = n ∧ j.st = .finished ∧ j.finishCkpt = none) ∧
        (∀ n ∈ c.admitted, ∃ j ∈ s.jobs, j.slot = n ∧ j.admittedAt = s.frame.num) ∧
        ∀ j ∈ t.jobs, j.slot ∈ c.finished → j.finishCkpt = some s.frame.num)) ∧
    (s.inPair = false → 11200 ≤ s.frame.cycle → s.frame.cycle < 11640 → exec .twinExchange s = .next { s with frame := { s.frame with cycle := 11640 } }) ∧
    (s.inPair = true → s.twin.up = true → s.twin.keyed = true → 11200 ≤ s.frame.cycle → s.frame.cycle < 11640 → completes .twinExchange s (fun t => t.frame.cycle = 11640 ∧
      ∃ (x : Exchange) (k : LinkFrame) (bytes : Bytes), .twin k (.exchange x) bytes ∈ t.out ∧ k.frame = s.frame.num ∧ x.frame = s.frame.num ∧ x.heartbeat = true ∧
        ((s.isPaired = false ∨ s.twin.got = []) → k.seq = s.twin.txSeq ∧ x.digest = s.twin.lastDigest ∧ x.confirm = none ∧
          x.reservations = (s.twin.resOut.take 256).map resOf))) ∧
    (11200 ≤ s.frame.cycle → s.frame.cycle < 11800 → completes .completionRelease s (fun t => t.frame.cycle = 11800 ∧ (∀ j ∈ t.jobs, ∃ k ∈ s.jobs, j.slot = k.slot) ∧
      ((s.jobs.map (·.slot)).Nodup → ∀ j ∈ s.jobs, j.st ≠ .finished → j ∈ t.jobs))) ∧
    (∀ (j : Job) (x : Inst) (q : Fin 4), 11200 ≤ s.frame.cycle → s.frame.cycle < 11800 → s.isPaired = false → s.jobs = [j] → s.inst j.inst = some x → j.q = some q → s.quarry.staging = [] →
      s.life.treeGen = [] → j.st = .finished → j.zeroing = false → j.pke = none → x.state = .active → x.reset = none → s.functionUp j.inst = true →
      max (j.lastRun.getD j.admittedAt + 1) (j.squashed.getD 0) ≤ s.frame.num →
      let full := (x.qs[q].cqTail - x.qs[q].cqHead).toNat = 2 ^ x.qs[q].cqLog
      let good := j.status = 0 ∧ j.tagValid = true
      let bytes : Bytes := leBytes 4 j.desc.seq.toNat ++ leBytes 1 (j.status.toNat + if j.missed then 0x80 else 0) ++
        leBytes 1 ((if x.qs[q].phase then 1 else 0) + if good then 2 else 0) ++ leBytes 2 j.detail.toNat ++
        leBytes 5 (if j.status = 0 then j.ports.written[0] else 0) ++ leBytes 3 (min (s.frame.num + 1 - j.admittedAt) 0xFFFFFF) ++
        leBytes 16 (if good then j.tag.toNat else 0)
      (¬ full → completes .completionRelease s (fun t => t.jobs = [] ∧ .completion j.inst q.val x.qs[q].cqTail bytes ∈ t.out ∧
        ∃ y : Inst, t.inst j.inst = some y ∧ y.qs[q].cqTail = x.qs[q].cqTail + 1 ∧ y.qs[q].inflight = 0)) ∧
      (full → completes .completionRelease s (fun t => t.jobs = [j] ∧ ∃ y : Inst, t.inst j.inst = some y ∧ y.qs[q].cqTail = x.qs[q].cqTail ∧
        y.qs[q].cqFull = true ∧ y.qs[q].fullSince = some (x.qs[q].fullSince.getD s.frame.num)))) ∧
    (s.strata.frozen = none → s.pke.singleRepeats = 0 → 11800 ≤ s.frame.cycle → s.frame.cycle < 11920 → completes .strataFlush s (fun t => t.frame.cycle = 11920 ∧
      (s.strata.lostNow.1 = 0 → t.strata.buffer = s.strata.buffer.drop 256) ∧
      let n := min 256 s.strata.buffer.length
      t.strata.seq = s.strata.seq + BitVec.ofNat 32 n ∧
      (∀ (i : Nat) (h : i < s.strata.buffer.length), i < 256 →
        let seq := s.strata.seq + BitVec.ofNat 32 i
        ∃ c, tget t.strata.ring (seq.toNat % 65536) = some { s.strata.buffer[i] with seq := seq, check := c }) ∧
      (∀ (k : Nat) (c : Ctr), tget s.pmc.glob k = some c → tget t.pmc.glob k =
        some (if s.pmc.clrGlobal then { c with snap := (c.live, c.sat), live := 0, sat := false } else { c with snap := (c.live, c.sat) })) ∧
      (∀ (k : Nat) (c : Ctr), tget s.pmc.inst k = some c → tget t.pmc.inst k = some { c with snap := (c.live, c.sat) })))

/-- The eleven commands of the family of timeouts. That masters 104 to 107 fence a free one of their channels is the model's choice and not stated. -/
def Obligations.TimeoutsFencesAndHollowRestarts : Prop :=
  ∀ (s : State),
    (∀ (i : Nat) (q : Fin 4) (x : Inst) (f : Nat), s.inst i = some x → x.state = .active → s.pairHeld i q = true → x.qs[q].fullSince = some f →
      (f + 100000 ≤ s.frame.num → completes (.stallStart i q) s (fun t => (∃ y : Inst, t.inst i = some y ∧ y.state = .stalled ∧ y.stall = some (q.val, s.frame.num)) ∧
        t.strata = s.strata.gather (s.event 0x1005 false i q.val 0) ∧ (∃ r ∈ t.mail.replies, r.notice = true ∧ r.mtype = 0xF3 ∧ r.dest = .mailbox i) ∧
        ∃ r ∈ t.mail.replies, r.notice = true ∧ r.mtype = 0xF3 ∧ r.dest = .mailbox 0)) ∧
      (s.frame.num < f + 100000 → exec (.stallStart i q) s = .next s)) ∧
    (∀ (i : Nat) (q : Fin 4) (x : Inst) (f : Nat), s.inst i = some x → x.state = .stalled → x.stall = some (q.val, f) →
      let ends := (∃ g, x.qs[q].headMoved = some g ∧ f ≤ g ∧ g < s.frame.num) ∨ (s.functionUp i = true ∧ x.qs[q].cqFull = false)
      (¬ ends → exec (.stallEnd i q) s = .next s) ∧
      (ends → completes (.stallEnd i q) s (fun t => (∃ y : Inst, t.inst i = some y ∧ y.state = .active ∧ y.stall = none ∧ y.qs = x.qs) ∧
        t.strata = s.strata.gather (s.event 0x1006 false i (min (s.frame.num - f) 0xFFFFFFFF) 0)))) ∧
    (∀ (n : Nat) (f : Forward), s.mail.forwards.find? (fun (f : Forward) => f.num == n) = some f →
      (s.frame.num < f.latched + 1000 → exec (.mbxTimeout n) s = .next s) ∧
      (f.latched + 1000 ≤ s.frame.num → completes (.mbxTimeout n) s (fun t => (∀ g ∈ t.mail.forwards, g.num ≠ n) ∧
        (∃ r, t.mail.replies = s.mail.replies ++ [r] ∧ r.dest = .mailbox f.inst ∧ r.mtype = 3 ∧ r.status = 0x53 ∧ r.tag = f.tag ∧ r.notice = false) ∧
        t.strata = s.strata.gather (s.event 0x6001 false f.inst f.tag.toNat f.num)))) ∧
    (∀ (rq : Req) (m : BitVec 8) (w : Src × BitVec 16 × Nat × Nat), s.hollowUp = false →
      s.mail.hollowWait.find? (fun w => w.1 == rq.src && w.2.1 == rq.tag && w.2.2.1 == m.toNat) = some w →
      (s.frame.num < w.2.2.2 + 1000 → exec (.mailboxHollowTimeout rq m) s = .next s) ∧
      (w.2.2.2 + 1000 ≤ s.frame.num → completes (.mailboxHollowTimeout rq m) s (fun t =>
        t = { s with mail := t.mail } ∧ t.mail.hollowWait.length + 1 = s.mail.hollowWait.length ∧
        ∃ r, t.mail.replies = s.mail.replies ++ [r] ∧ r.dest = replyTo rq ∧ r.mtype = m.toNat ∧ r.status = 0x61 ∧ r.tag = rq.tag ∧ r.notice = false))) ∧
    (s.ticks = true →
      (∀ e : Fin 158, (elemKind e.val).1 ∈ [1, 2, 3, 4, 7, 8, 9] → s.fenced e.val = false →
        (s.overdue e.val = false → exec (.engineTimeout e) s = .next s) ∧
        (e.val < 20 → (s.overdue e.val = true ↔ ∃ r ∈ s.cipher.reqs, r.core.map (·.val) = some e.val ∧ r.takenAt + 2 ≤ s.frame.num)) ∧
        (s.overdue e.val = true → completes (.engineTimeout e) s (fun t =>
        t.fenced e.val = true ∧ (t.elem e.val).cause = 4 ∧ (t.elem e.val).since = s.frame.num ∧ t.frame.fenceSeen = true ∧
        (∀ k, k ≠ e.val → t.elem k = s.elem k) ∧
        (s.hasSibling e.val = true → (elemKind e.val).1 ≠ 7 → t.power = s.power ∧ t.twin.silent = s.twin.silent) ∧
        (s.hasSibling e.val = false → (s.inPair = false → t.power.run = .halted) ∧ (s.inPair = true → t.twin.silent = true ∧ t.jobs = []))))) ∧
      (∀ (e : Fin 16) (j : Job) (q : PkeCall), s.pke.running[e] = some j.slot → s.job j.slot = some j → j.pke = some q → q.phase = .running →
        completes (.pkeMicrostepWatchdog e) s (fun t => t.fenced (46 + e.val) = true ∧
          ∃ (k : Job) (p : PkeCall), t.job j.slot = some k ∧ k.pke = some p ∧ p.op = q.op ∧ p.restarted = true ∧
            (q.restarted = true → p.phase = .written ∧ p.status = 0x43 ∧ p.results = []))) ∧
      (∀ m : Nat, m ∈ s.prot.fence → completes (.fenceLate m) s (fun t => t.prot.fence = s.prot.fence.filter (fun k => k != m) ∧
        (m < 64 → t.fenced (90 + m) = true) ∧ (64 ≤ m → m < 80 → t.fenced (46 + (m - 64)) = true) ∧
        (80 ≤ m → m < 96 → t.fenced (74 + (m - 80)) = true))) ∧
      (s.prot.hollow = .running →
        (500 ≤ s.prot.watchdog → s.prot.restartDue = none → exec .hollowWatchdogExpiry s = .next { s with prot := { s.prot with restartDue := some 1 } }) ∧
        (s.prot.watchdog < 500 → exec .hollowWatchdogExpiry s = .next s) ∧
        exec .hollowWatchdogServe s = .next { s with prot := { s.prot with watchdog := 0 } } ∧
        (∀ c : Fin 2, s.prot.restartDue = none → exec (.hollowCoreFault c) s = .next { s with prot := { s.prot with restartDue := some 2 } })) ∧
      (∀ (w : Nat) (image : FwImage), s.prot.hollow = .restarting → s.prot.restartAt = some w → w < s.frame.num → s.frame.num ≤ w + 5000 →
        let good := s.imageFault image 1 = none ∧ s.prot.bootHash = some image.hash
        completes (.hollowRestartComplete image) s (fun t =>
          (good → t.prot.hollow = .running ∧ t.prot.restartAt = none ∧ t.prot.watchdog = 0 ∧
            t.prot.restartFrames = s.frame.num - w ∧ t.strata = s.strata.gather (s.event 0x2005 true (s.frame.num - w) 0 0)) ∧
          (¬ good → t.prot.hollow = .halted ∧ (s.inPair = true → t.twin.silent = true)))))

/-- The families of the mailbox's own messages and of the rings. -/
def Obligations.MailboxMessagesAndDoorbells : Prop :=
  ∀ (s : State),
    (∀ (rq : Req) (body : Bytes),
      (s.consume rq 0x01 = none → exec (.ping rq body) s = .next s) ∧
      (∀ (t : State) (st : BitVec 7), s.consume rq 0x01 = some t → t.turnedAway rq 0x01 = some st → t.ticks = true →
        exec (.ping rq body) s = .next (t.reply (replyTo rq) 0x01 st rq.tag [])) ∧
      (∀ (t : State) (n : Nat) (x : Inst), s.consume rq 0x01 = some t → rq.src = .fn n → s.inst n = some x → s.heldHollow rq 0x01 = false →
        x.outstanding < 16 ∧ s.mail.consumed < 4096 ∧ x.reqHead ≠ x.reqLatched ∧ x.mbErr = false ∧ t.mail.consumed = s.mail.consumed + 1 ∧
        ∃ y : Inst, t.inst n = some y ∧ y.reqHead = x.reqHead + 1 ∧ y.outstanding = x.outstanding + 1)) ∧
    (∀ (rq : Req) (body : Bytes) (t : State), s.takesUp rq 0x01 t →
      exec (.ping rq body) s = .next (t.reply (replyTo rq) 0x01 0x00 rq.tag (padTo 48 body))) ∧
    (∀ (rq : Req) (i : Nat) (t : State) (x : Inst), s.takesUp rq 0x02 t →
      (srcInst rq.src ≠ 0 → t.inst (srcInst rq.src) = some x → exec (.instInfo rq i) s = .next (t.reply (replyTo rq) 0x02 0x00 rq.tag (shareBytes x.share))) ∧
      (srcInst rq.src = 0 → t.inst i = some x → exec (.instInfo rq i) s = .next (t.reply (replyTo rq) 0x02 0x00 rq.tag (shareBytes x.share))) ∧
      (srcInst rq.src = 0 → t.inst i = none → exec (.instInfo rq i) s = .next (t.reply (replyTo rq) 0x02 0x10 rq.tag []))) ∧
    (∀ (rq : Req) (k : Fin 16) (body : Bytes) (t : State), s.takesUp rq 0x03 t → s.slotHolds rq k.val body = true → srcInst rq.src ≠ 0 →
      let n := t.mail.nextForward
      completes (.mgrMsg rq k body) s (fun u => u = { t with mail := u.mail } ∧ u.mail.nextForward = (n + 1) % 2 ^ 32 ∧
        u.mail.forwards = t.mail.forwards ++ [{ num := n, inst := srcInst rq.src, slot := k.val, tag := rq.tag, latched := t.frame.num }] ∧
        ∃ r, u.mail.replies = t.mail.replies ++ [r] ∧ r.dest = .mailbox 0 ∧ r.mtype = 0xF0 ∧ r.notice = true ∧
          r.body = leBytes 6 (n + srcInst rq.src * 2 ^ 32 + k.val * 2 ^ 42))) ∧
    (∀ (rq : Req) (n : Nat) (st : BitVec 8) (body : Bytes) (t : State) (f : Forward), s.takesUp rq 0x84 t →
      t.mail.forwards.find? (fun (f : Forward) => f.num == n) = some f →
      (t.frame.num < f.latched + 1000 → completes (.fwdReply rq n st body) s (fun u => u = { t with mail := u.mail } ∧
        u.mail.forwards = t.mail.forwards.filter (fun (f : Forward) => f.num != n) ∧ ∃ r1 r2, u.mail.replies = t.mail.replies ++ [r1, r2] ∧
          r1.dest = .mailbox f.inst ∧ r1.mtype = 3 ∧ r1.status = st ∧ r1.tag = f.tag ∧ r1.body = zeros 8 ++ padTo 40 body ∧
          r2.dest = replyTo rq ∧ r2.mtype = 0x84 ∧ r2.status = 0 ∧ r2.tag = rq.tag)) ∧
      (f.latched + 1000 ≤ t.frame.num → exec (.fwdReply rq n st body) s = .next (t.reply (replyTo rq) 0x84 0x10 rq.tag []))) ∧
    (∀ (rq : Req) (i : Nat) (body : Bytes) (t : State) (x : Inst), s.takesUp rq 0x85 t → t.inst i = some x →
      (x.state = .exported → exec (.notify rq i body) s = .next (t.reply (replyTo rq) 0x85 0x10 rq.tag [])) ∧
      (x.state ≠ .exported → exec (.notify rq i body) s = .next ((t.notice (.mailbox i) 0xF4 (zeros 8 ++ padTo 40 body)).reply (replyTo rq) 0x85 0x00 rq.tag []))) ∧
    (∀ (rq : Req) (m : BitVec 8) (t : State), s.takesUp rq m.toNat t → assignedTypes.contains m.toNat = false →
      exec (.mailboxTypeUnassigned rq m) s = .next (t.reply (replyTo rq) m.toNat 0x10 rq.tag [])) ∧
    (s.frame.ticking = true → ∀ (i : Nat) (x : Inst), s.inst i = some x → x.state ≠ .dormant →
      (∀ (q : Fin 4) (v : BitVec 16), x.qs[q].en = true →
        completes (.dbSqTail i q v) s (fun t => ∃ y : Inst, t.inst i = some y ∧ y.qs[q].sqTail = v ∧ y.qs[q].sqLatched = x.qs[q].sqLatched ∧
          ((v - x.qs[q].sqHead).toNat ≤ 2 ^ x.qs[q].sqLog → (x.qs[q].cqTail - x.qs[q].cqHead).toNat ≤ 2 ^ x.qs[q].cqLog → y.qs[q].ringErr = x.qs[q].ringErr) ∧
          (x.qs[q].active = true → 2 ^ x.qs[q].sqLog < (v - x.qs[q].sqHead).toNat → y.qs[q].ringErr = true)) ∧
        completes (.dbCqHead i q v) s (fun t => ∃ y : Inst, t.inst i = some y ∧ y.qs[q].cqHead = v ∧ y.qs[q].cqTail = x.qs[q].cqTail ∧
          (x.qs[q].active = true → 2 ^ x.qs[q].cqLog < (x.qs[q].cqTail - v).toNat → y.qs[q].ringErr = true))) ∧
      (∀ (q : Fin 4) (v : Reg32), x.qs[q].en = true →
        (x.qs[q].cancels.length < 16 → completes (.dbCancel i q v) s (fun t => ∃ y : Inst, t.inst i = some y ∧ y.qs[q].cancels = x.qs[q].cancels ++ [v])) ∧
        (16 ≤ x.qs[q].cancels.length → exec (.dbCancel i q v) s = .next (s.countInst i 13 1))) ∧
      (∀ (q : Fin 4) (ds : List Descriptor), ds.length ≤ x.qs[q].fetching → 0 < x.qs[q].fetching →
        completes (.descriptorFetchDone i q (.got ds)) s (fun t => ∃ y : Inst, t.inst i = some y ∧ y.qs[q].fetched = x.qs[q].fetched ++ ds ∧
          y.qs[q].fetching = x.qs[q].fetching - ds.length)) ∧
      (∀ v : BitVec 8,
        completes (.mbReqTail i v) s (fun t => ∃ y : Inst, t.inst i = some y ∧ y.reqTail = v ∧ y.mbErr = (x.mbErr || decide (16 < (v - x.reqHead).toNat))) ∧
        completes (.mbRspHead i v) s (fun t => ∃ y : Inst, t.inst i = some y ∧ y.rspHead = v ∧ y.mbErr = (x.mbErr || decide (16 < (x.rspTail - v).toNat)))))

/-- The family of register commands. That PASS_MAC is one register for both passes is the model's choice. -/
def Obligations.HostRegistersReadStageAndClear : Prop :=
  ∀ (s : State),
    exec .frmNumLo s = .next { s with frame := { s.frame with numHi := BitVec.ofNat 32 (s.frame.num / 2 ^ 32) }, out := s.out ++ [.regData (BitVec.ofNat 64 (s.frame.num % 2 ^ 32))] } ∧
    exec .twnConfLo s = .next { s with twin := { s.twin with confHi := BitVec.ofNat 32 (s.twin.confLatch / 2 ^ 32) },
                                       out := s.out ++ [.regData (BitVec.ofNat 64 (s.twin.confLatch % 2 ^ 32))] } ∧
    (s.frame.ticking = true →
      (∀ v : Reg32,
        completes (.frmCtrl v) s (fun t => t = { s with frame := { s.frame with stagedCtrl := t.frame.stagedCtrl } } ∧ ∃ n, t.frame.stagedCtrl = some (v.getLsbD 0, v.getLsbD 1, n) ∧
          85 ≤ n ∧ n ≤ 100 ∧ (85 ≤ v.toNat / 4 % 128 → v.toNat / 4 % 128 ≤ 100 → n = v.toNat / 4 % 128)) ∧
        exec (.frmLend v) s = .next { s with frame := { s.frame with stagedLend := some (v.toNat % 65536) } } ∧
        exec (.twnCtrl v) s = .next { s with twin := { s.twin with stagedCtrl := some (v.getLsbD 0, v.getLsbD 1) } } ∧
        exec (.fnCtrl v) s = .next { s with host := { s.host with pfStaged := some (v.getLsbD 0) } } ∧
        completes (.passSwapPeriod v) s (fun t => t = { s with passes := { s.passes with periodStaged := t.passes.periodStaged } } ∧
          (v = 0 → t.passes.periodStaged = some 0) ∧ (v ≠ 0 → ∃ n, t.passes.periodStaged = some n ∧ 3600 ≤ n ∧ n ≤ 2592000 ∧
            (3600 ≤ v.toNat → v.toNat ≤ 2592000 → n = v.toNat)))) ∧
      (∀ m : BitVec 48, exec (.passMac m) s = .next { s with net := { s.net with regStaged := (some m, s.net.regStaged.2) } }) ∧
      exec .swapNow s = .next { s with passes := { s.passes with swapNow := true } } ∧
      (s.strata.frozen = none → exec .freeze s = .next { s with strata := { s.strata with frozen := some (s.frame.num, 0) } }) ∧
      (∀ z n : Nat, s.strata.frozen = some (z, n) → exec .freeze s = .next s ∧ exec .thaw s = .next { s with strata := { s.strata with thaw := true } } ∧
        (11800 ≤ s.frame.cycle → s.strata.thaw = false → s.strata.sideFull = [] →
          (z + 10000 ≤ s.frame.num → exec .freezeExpiry s = .next { s with strata := { s.strata with
            frozen := none, side := [], buffer := s.strata.buffer ++ s.strata.side ++ [s.event 0x0002 false n (s.frame.num - z + 1) 2], thaw := false } }) ∧
          (s.frame.num < z + 10000 → exec .freezeExpiry s = .next s))) ∧
      (∀ (g : Fin 64) (v w : Reg32),
        let c : Ctr := (tget s.pmc.glob g.val).getD {}
        completes (.pmcCounterLoWrite (.glob g) v) s (fun t => t = { s with pmc := t.pmc } ∧ tget t.pmc.glob g.val = some { c with loHeld := some v } ∧
          completes (.pmcCounterHiWrite (.glob g) w) t (fun u => u = { s with pmc := u.pmc } ∧
            ∃ d : Ctr, tget u.pmc.glob g.val = some d ∧ d.sat = false ∧ d.loHeld = none ∧ d.live.toNat = v.toNat + w.toNat % 65536 * 2 ^ 32)) ∧
        (c.loHeld = none → completes (.pmcCounterHiWrite (.glob g) w) s (fun t => ∃ d : Ctr, tget t.pmc.glob g.val = some d ∧ d.sat = false ∧
          d.live.toNat = c.live.toNat % 2 ^ 32 + w.toNat % 65536 * 2 ^ 32)) ∧
        completes (.pmcCounterLoRead (.glob g)) s (fun t => t = { s with pmc := t.pmc, out := s.out ++ [.regData (BitVec.ofNat 64 (c.snap.1.toNat % 2 ^ 32))] } ∧
          ∃ d : Ctr, tget t.pmc.glob g.val = some d ∧ d = { c with hiLatch := d.hiLatch } ∧
            d.hiLatch.toNat = c.snap.1.toNat / 2 ^ 32 + (if c.snap.2 then 2 ^ 31 else 0))) ∧
      exec .clrLane s = .next { s with pmc := { s.pmc with clrLane := true } } ∧
      exec .clrGlobal s = .next { s with pmc := { s.pmc with clrGlobal := true } } ∧
      (∀ v : BitVec 16, exec (.pmcSmpHead v) s = .next { s with pmc := { s.pmc with smpHead := v } }) ∧
      (∀ v : Word, completes (.registerWrite none 0x18 32 v) s (fun t => t = { s with frame := t.frame } ∧
        t.frame = { s.frame with
          shedSeen := s.frame.shedSeen && !v.getLsbD 0, alignWarn := s.frame.alignWarn && !v.getLsbD 1, admitFull := s.frame.admitFull && !v.getLsbD 2
          inflightFull := s.frame.inflightFull && !v.getLsbD 3, fenceSeen := s.frame.fenceSeen && !v.getLsbD 4 })) ∧
      (∀ v : Word, completes (.registerWrite none 0x200000 32 v) s (fun t => t = { s with strata := { s.strata with checkErr := s.strata.checkErr && !v.getLsbD 7 } })) ∧
      (∀ (i : Nat) (x : Inst) (q : Fin 4) (v : Word), i ≠ 0 → s.inst i = some x → x.state ≠ .dormant →
        let base := 0x1000 + 0x40 * q.val
        completes (.registerWrite (some i) (base + 0x20) 32 v) s (fun t => ∃ y : Inst, t.inst i = some y ∧
          y.qs[q] = { x.qs[q] with ringErr := x.qs[q].ringErr && !v.getLsbD 2 }) ∧
        completes (.registerWrite (some i) (base + 0x10) 32 v) s (fun t => ∃ y : Inst, t.inst i = some y ∧
          (x.qs[q].en = true ∨ x.qs[q].quiesced = false → y.qs[q] = x.qs[q]) ∧
          (x.qs[q].en = false → x.qs[q].quiesced = true → y.qs[q] = { x.qs[q] with sqLog := y.qs[q].sqLog, cqLog := y.qs[q].cqLog } ∧
            6 ≤ y.qs[q].sqLog ∧ y.qs[q].sqLog ≤ 15 ∧ 6 ≤ y.qs[q].cqLog ∧ y.qs[q].cqLog ≤ 15 ∧ (6 ≤ v.toNat % 16 → y.qs[q].sqLog = v.toNat % 16))) ∧
        completes (.registerWrite (some i) base 32 v) s (fun t => ∃ y : Inst, t.inst i = some y ∧
          (x.qs[q].en = false → x.qs[q].quiesced = true → y.qs[q] = { x.qs[q] with sqBase := y.qs[q].sqBase } ∧
            y.qs[q].sqBase.toNat % 2 ^ 32 = v.toNat % 2 ^ 32 / 4096 * 4096 ∧ y.qs[q].sqBase.toNat / 2 ^ 32 = x.qs[q].sqBase.toNat / 2 ^ 32)) ∧
        completes (.registerWrite (some i) (base + 0x14) 32 v) s (fun t => ∃ y : Inst, t.inst i = some y ∧ y.qs[q].en = v.getLsbD 0 ∧ y.qs[q].irqEn = v.getLsbD 1 ∧
          y.qs[q].active = x.qs[q].active) ∧
        (∀ (k : Fin 16) (o : Fin 16), completes (.registerWrite (some i) (0x2000 + 64 * k.val + 4 * o.val) 32 v) s (fun t => ∃ y : Inst, t.inst i = some y ∧
          ∀ b, b < 64 → (y.req[k]).getD b 0 = if 4 * o.val ≤ b ∧ b < 4 * o.val + 4 then v.extractLsb' (8 * (b - 4 * o.val)) 8 else (x.req[k]).getD b 0))) ∧
      (∀ (p : Nat) (v : Word), p < 64 → v.getLsbD 0 = true → completes (.registerWrite none (0x900000 + 16 * p + 12) 32 v) s (fun t =>
        t.host.ports[s.inUse] = { s.host.ports[s.inUse] with mask := s.host.ports[s.inUse].mask ||| ((1 : BitVec 64) <<< p) }))) ∧
    (∀ (fn : Option Nat) (off w : Nat) (v : Word), 0x2400 ≤ off → off < 0x800000 → (w ≠ 32 ∧ w ≠ 64) ∨ off % 4 ≠ 0 →
      exec (.registerWrite fn off w v) s = .next { s with out := s.out ++ [.discarded] })

/-- The family of the passes. -/
def Obligations.PassesLinkTestSwapAndReturn : Prop :=
  ∀ (s : State),
    let b := !s.passes.activeB
    let standby := s.pass b
    (∀ c : Bool, s.frame.ticking = true → s.twin.silent = false → (s.pass c).mac ≠ 0 → completes (.passLinkUp c) s (fun t =>
      (t.pass c).up = true ∧ (t.pass c).healthy = !(s.pass c).lockLost ∧ (t.pass c).mac = (s.pass c).mac ∧ t.pass (!c) = s.pass (!c) ∧
      (s.passes.chosen = true → t.passes.activeB = s.passes.activeB) ∧
      (s.passes.chosen = false → (t.pass false).healthy = true → t.passes.chosen = true ∧ t.passes.activeB = false) ∧
      (s.passes.chosen = false → (t.pass false).healthy = false → (t.pass true).healthy = true → t.passes.chosen = true ∧ t.passes.activeB = true) ∧
      t = { s with passes := t.passes })) ∧
    (∀ c : Bool, completes (.pcsLockLoss c) s (fun t => (t.pass c).up = false ∧ (t.pass c).lockLost = ((s.pass c).lockLost || (s.pass c).up) ∧
      t.pass (!c) = s.pass (!c) ∧ t = { s with passes := t.passes })) ∧
    (s.works = true →
      (∀ n : Nat, s.passes.chosen = true → standby.up = true → standby.test = false → s.passes.switchDue = none → completes (.standbyTestWindow n) s (fun t =>
        (t.pass b).test = true ∧ (t.pass b).testAt = s.frame.num ∧ (t.pass b).testErrs = n ∧ (t.pass b).clean = (if n = 0 then standby.clean else 0) ∧
        t.pass (!b) = s.pass (!b) ∧ t.strata = if n = 0 then s.strata else s.strata.gather (s.event 0x7012 false (if b then 1 else 0) n 0))) ∧
      (s.passes.chosen = true → standby.healthy = true → 10000 ≤ standby.clean → s.passes.switchDue = none →
        (s.passes.period ≠ 0 → s.passes.switchedAt + 100000 * s.passes.period ≤ s.frame.num →
          exec .passSwapDue s = .next { s with passes := { s.passes with switchDue := some 2 } }) ∧
        (s.passes.revert = true → standby.lostControl = true → exec .passRevert s = .next { s with passes := { s.passes with switchDue := some 3 } })) ∧
      (standby.healthy = false ∨ standby.clean < 10000 → exec .passSwapDue s = .next s ∧ exec .passRevert s = .next s) ∧
      (∀ f : Nat, s.passes.oldUntil = some f → f ≤ s.frame.num → exec .passSwitchEnd s = .next { s with passes := { s.passes with oldUntil := none } }))

/-- KEY_CREATE, KEY_RETIRE, KEY_REVOKE, KEY_ERASE, KEY_REPLACE, KEY_NARROW. -/
def Obligations.KeysAreCreatedChangedAndEnded : Prop :=
  ∀ (s : State),
    (∀ (rq : Req) (generated : Bool) (rec : Creation) (t : State) (x : Inst) (p : Node), s.takesUp rq 0x10 t →
      let i := srcInst rq.src
      (t.keysClosed = false → t.badCreation i rec = false → derivable rec.ktype = true → t.checkHandle i rec.parent = none →
        t.node (hInst rec.parent) (hNode rec.parent) = some p → p.usage.getLsbD 8 = true → p.level < 11 → t.inst i = some x →
        x.slotsUsed + 1 ≤ x.share.ksSlots →
        completes (.keyCreate rq generated rec) s (fun u => ∃ (k : Nat) (n : Node), 1 ≤ k ∧ (t.dirOf i k).state = .free ∧
          (∀ m, 1 ≤ m → m < k → (t.dirOf i m).state ≠ .free) ∧ u.node i k = some n ∧ n.state = .pending ∧
          n.ktype = rec.ktype ∧ n.usage = rec.usage ∧ n.useCnt = rec.uses ∧ n.parent = hNode rec.parent ∧ n.level = p.level + 1 ∧
          n.gen = (t.dirOf i k).lastGen + 1 ∧ n.allocGen = n.gen ∧ n.labelDig = (Config.sha3 rec.label).setWidth 128 ∧
          n.origin = (if generated then .generated else .derived) ∧ (generated = false → n.material = []) ∧
          (generated = true → n.material.length = 64) ∧ (∀ m, m ≠ k → u.node i m = t.node i m) ∧
          u.staged = t.staged ++ [.keyCreate i k (some (replyTo rq, rq.tag, 0x10))] ∧ u.mail.replies = t.mail.replies)) ∧
      (∀ st, t.keysClosed = false → t.creationRefused i rec 1 = some st → exec (.keyCreate rq generated rec) s = .next (t.reply (replyTo rq) 0x10 st rq.tag [])) ∧
      (t.keysClosed = false → t.creationRefused i rec 1 = none → derivable rec.ktype = false →
        exec (.keyCreate rq generated rec) s = .next (t.reply (replyTo rq) 0x10 0x10 rq.tag [])) ∧
      (t.keysClosed = true → exec (.keyCreate rq generated rec) s = .next (t.reply (replyTo rq) 0x10 0x20 rq.tag []))) ∧
    (∀ (i k m : Nat) (d : Dest) (tag : BitVec 16) (n : Node), s.commitsOnly (.keyCreate i k (some (d, tag, m))) → m ≠ 0xC1 → s.node i k = some n →
      n.state = .pending → completes .stagedCommit s (fun t => t.staged = [] ∧
        t.node i k = some { n with state := if n.useLim && n.useCnt == 0 then .exhausted else .active, created := s.frame.num } ∧
        t.hasReply d m 0x00 tag (leBytes 8 (mkHandle i k n.gen n.ktype).toNat))) ∧
    (∀ (rq : Req) (h : Handle) (t : State), s.takesUp rq 0x11 t →
      let i := if srcInst rq.src = 0 then hInst h else srcInst rq.src
      (t.keysClosed = false → t.checkModeHandle i h = none → hNode h ≠ 0 →
        ∀ p ∈ ([(Instr.keyRetire rq h, 1), (.keyRevoke rq h, 2), (.keyErase rq h, 4)] : List (Instr × Nat)),
          exec p.1 s = .next { t with staged := t.staged ++ [.keyMode (hInst h) (hNode h) p.2 (replyTo rq) rq.tag] }) ∧
      (t.keysClosed = false → t.checkModeHandle i h = none → hNode h = 0 →
        ∀ c ∈ [Instr.keyRetire rq h, .keyRevoke rq h, .keyErase rq h], exec c s = .next (t.reply (replyTo rq) 0x11 0x24 rq.tag []))) ∧
    (∀ (i k m : Nat) (d : Dest) (tag : BitVec 16) (n : Node), s.commitsOnly (.keyMode i k m d tag) → m = 1 ∨ m = 2 ∨ m = 4 → s.node i k = some n →
      n.state = .active → (s.jobs.map (·.slot)).Nodup → completes .stagedCommit s (fun t =>
        (∃ n' : Node, t.node i k = some n' ∧ n'.state = (if m = 1 then .retired else if m = 2 then .revoked else .erased) ∧ n'.gen = n.gen ∧
          (m = 4 → n'.material = n.material.map (fun _ => 0)) ∧ (m ≠ 4 → n'.material = n.material)) ∧
        (m ≠ 1 → ∀ j ∈ s.jobs, j.inst = i → (∃ v, (k, v) ∈ j.bound) → j.squashed = none → ∃ j' : Job, t.job j.slot = some j' ∧ j'.st = .finished ∧ j'.status = 0x22) ∧
        (m = 4 → ∃ r ∈ t.quarry.reclaim, r.inst = i ∧ r.root = k) ∧ t.hasReply d 0x11 0x00 tag [])) ∧
    (∀ (rq : Req) (h : Handle) (rec : Creation) (w : Wrapped) (t : State) (n : Node), s.takesUp rq 0x11 t → t.node (hInst h) (hNode h) = some n →
      (t.replaceRefused rq h rec 1 = none → n.material = [] ∨ derivable rec.ktype = true →
        completes (.keyReplace rq h 0 rec w) s (fun u => ∃ n' : Node, u.staged = t.staged ++ [.keyReplace (hInst h) (hNode h) n' (replyTo rq) rq.tag] ∧
          n'.ktype = rec.ktype ∧ n'.usage = rec.usage ∧ n'.useCnt = rec.uses ∧ n'.labelDig = (Config.sha3 rec.label).setWidth 128 ∧
          n'.origin = (if n.material = [] then .derived else .generated) ∧ u.node (hInst h) (hNode h) = some n)) ∧
      (∀ st, t.replaceRefused rq h rec 1 = some st → exec (.keyReplace rq h 0 rec w) s = .next (t.reply (replyTo rq) 0x11 st rq.tag []))) ∧
    (∀ (i k : Nat) (d : Dest) (tag : BitVec 16) (n new : Node), s.commitsOnly (.keyReplace i k new d tag) → s.node i k = some n → n.state = .active →
      n.gen < 4094 → new.exportBits &&& ~~~n.exportBits = 0 →
      s.slotRoom i ((slotsOf new.material : Int) - (if s.heldVer i k n.gen then 0 else (slotsOf n.material : Int))).toNat = true → completes .stagedCommit s (fun t => ∃ n' : Node, t.node i k = some n' ∧ n'.gen = n.gen + 1 ∧ n'.state = .active ∧
        n'.ktype = new.ktype ∧ n'.usage = new.usage ∧ n'.material = new.material ∧ n'.parent = n.parent ∧ n'.invBlk = n.invBlk ∧ n'.useBlk = 0 ∧
        (t.dirOf i k).shadows = (s.dirOf i k).shadows ++ (if s.jobs.any (fun (j : Job) => j.inst == i && j.bound.contains (k, n.gen)) then [n] else []) ∧
        t.hasReply d 0x11 0x00 tag [])) ∧
    (∀ (rq : Req) (h : Handle) (bits : BitVec 4) (t : State) (n : Node), s.takesUp rq 0x13 t → t.keysClosed = false →
      t.checkModeHandle (srcInst rq.src) h = none → t.node (hInst h) (hNode h) = some n →
      (hNode h ≠ 0 → bits &&& ~~~(n.policy.setWidth 4) = 0 →
        exec (.keyNarrow rq h bits) s = .next { t with staged := t.staged ++ [.keyNarrow (hInst h) (hNode h) bits (replyTo rq) rq.tag] }) ∧
      (hNode h ≠ 0 → bits &&& ~~~(n.policy.setWidth 4) ≠ 0 → exec (.keyNarrow rq h bits) s = .next (t.reply (replyTo rq) 0x13 0x24 rq.tag []))) ∧
    (∀ (i k : Nat) (bits : BitVec 4) (d : Dest) (tag : BitVec 16) (n : Node), s.commitsOnly (.keyNarrow i k bits d tag) → s.node i k = some n →
      completes .stagedCommit s (fun t => (∃ n' : Node, t.node i k = some n' ∧ n'.policy.setWidth 4 = n.policy.setWidth 4 &&& bits ∧
        n'.policy >>> 4 = n.policy >>> 4 ∧ n' = { n with policy := n'.policy }) ∧ t.hasReply d 0x13 0x00 tag []))

/-- KEY_INFO, KEY_EXPORT, KEY_IMPORT, RECLAIM, CHALLENGE, CHALLENGE_EXPIRY. The bytes of a challenge are free. -/
def Obligations.KeysAreReadMovedReclaimedAndChallenged : Prop :=
  ∀ (s : State),
    (∀ (rq : Req) (h : Handle) (a : Word) (len : Nat) (t : State) (n : Node), s.takesUp rq 0x12 t → t.checkModeHandle (srcInst rq.src) h = none →
      t.node (hInst h) (hNode h) = some n →
      let b := recordBytes n ++ n.pub
      (b.length ≤ len → exec (.keyInfo rq h a len) s = .next ((t.hostWrite (srcInst rq.src) a b).reply (replyTo rq) 0x12 0x00 rq.tag (leBytes 4 b.length))) ∧
      (len < b.length → exec (.keyInfo rq h a len) s = .next (t.reply (replyTo rq) 0x12 0x31 rq.tag [])) ∧
      64 ≤ b.length ∧ leNat (b.take 16) = n.labelDig.toNat ∧ (b.getD 21 0) = n.ktype) ∧
    (∀ (rq : Req) (h wrap : Handle) (a : Word) (len : Nat) (t : State) (n w : Node), s.takesUp rq 0x14 t → t.keysClosed = false →
      t.checkHandle (srcInst rq.src) h = none → t.node (hInst h) (hNode h) = some n →
      (n.policy.getLsbD 1 = false → exec (.keyExport rq h a len wrap) s = .next (t.reply (replyTo rq) 0x14 0x24 rq.tag [])) ∧
      (n.policy.getLsbD 1 = true → t.isBound (hInst h) (hNode h) = false → t.wrapRefused (srcInst rq.src) wrap 2 = none →
        t.node (hInst wrap) (hNode wrap) = some w → wrapStrong (hType wrap) n.ktype = true →
        let plain := wrapHeader n ++ t.storedForm h n
        (len < 8 + (plain.length + 7) / 8 * 8 → exec (.keyExport rq h a len wrap) s = .next (t.reply (replyTo rq) 0x14 0x31 rq.tag [])) ∧
        (8 + (plain.length + 7) / 8 * 8 ≤ len →
          (w.useLim = false ∨ 0 < w.useBlk → completes (.keyExport rq h a len wrap) s (fun u =>
            u.hasReply (replyTo rq) 0x14 0x00 rq.tag [] ∧ ∃ v : State, v.out = t.out ∧ v.host = t.host ∧
              u.out = (v.hostWrite (srcInst rq.src) a (Config.kwp (v.keyValue [] wrap) plain)).out ∧
              u.host = (v.hostWrite (srcInst rq.src) a (Config.kwp (v.keyValue [] wrap) plain)).host ∧
              ∀ w', v.node (hInst wrap) (hNode wrap) = some w' → w'.useBlk = (if w.useLim then w.useBlk - 1 else w.useBlk))) ∧
          (w.useLim = true → w.useBlk = 0 → completes (.keyExport rq h a len wrap) s (fun u => u.mail.replies = t.mail.replies ∧
            u.mail.hollowWait = t.mail.hollowWait ++ [(rq.src, rq.tag, 0x14, t.frame.num)] ∧ u.out = t.out))))) ∧
    (∀ (rq : Req) (parent unwrap : Handle) (bits : BitVec 4) (wrapped : Wrapped) (t : State) (w : Node), s.takesUp rq 0x15 t → t.keysClosed = false →
      t.checkHandle (srcInst rq.src) parent = none → t.wrapRefused (srcInst rq.src) unwrap 3 = none →
      t.node (hInst unwrap) (hNode unwrap) = some w → w.useLim = false →
      let i := srcInst rq.src
      let b := Config.kwpInv (t.keyValue [] unwrap) wrapped
      (b = none → completes (.keyImport rq parent unwrap bits wrapped) s (fun u => u.hasReply (replyTo rq) 0x15 0x33 rq.tag [] ∧ u.staged = t.staged)) ∧
      (∀ r : Bytes, b = some r → (parseWrap r).bad = false → t.creationRefused i (wrapCreation (parseWrap r) parent) (slotsOf (parseWrap r).form) = none →
        wrapStrong (hType unwrap) (parseWrap r).ktype = true →
        completes (.keyImport rq parent unwrap bits wrapped) s (fun u => ∃ (k : Nat) (n : Node), u.node i k = some n ∧ (t.dirOf i k).state = .free ∧
          n.state = .pending ∧ n.origin = .imported ∧ n.ktype = BitVec.ofNat 8 (leNat (r.take 1)) ∧ n.usage = BitVec.ofNat 16 (leNat ((r.drop 2).take 2)) ∧
          n.labelDig = BitVec.ofNat 128 (leNat ((r.drop 16).take 16)) ∧ n.material = r.drop 32 ∧
          n.policy.setWidth 4 = BitVec.ofNat 4 (leNat ((r.drop 4).take 2)) &&& bits ∧
          u.staged = t.staged ++ [.keyCreate i k (some (replyTo rq, rq.tag, 0x15))]))) ∧
    (∀ (i root k f : Nat) (n : Node), s.quarry.reclaim = [{ inst := i, root := root, todo := [k], freed := f }] → s.node i k = some n →
      s.quarry.staging.length + 2 ≤ 1048576 → completes (.reclaim i root) s (fun t => t.quarry.reclaim = [] ∧ t.node i k = none ∧
        (t.dirOf i k).state = (if 4094 ≤ (s.dirOf i k).lastGen then .dead else .free) ∧ (t.dirOf i k).lastGen = (s.dirOf i k).lastGen ∧
        ∃ u : State, t.strata = u.strata.gather (s.event 0x3003 false i (root % 2 ^ 32) (f + 1)))) ∧
    (∀ (rq : Req) (t : State), s.takesUp rq 0x16 t → completes (.challenge rq) s (fun u => ∃ c : Bytes, c.length = 16 ∧
      u.hasReply (replyTo rq) 0x16 0x00 rq.tag c ∧ u.quarry.challenges.length ≤ 64 ∧
      u.quarry.challenges.getLast? = some (BitVec.ofNat 128 (leNat c), t.frame.num) ∧ (t.quarry.challenges.length < 64 → ∀ e ∈ t.quarry.challenges, e ∈ u.quarry.challenges))) ∧
    completes .challengeExpiry s (fun t => t = { s with quarry := { s.quarry with challenges := t.quarry.challenges } } ∧
      ∀ e, e ∈ t.quarry.challenges ↔ e ∈ s.quarry.challenges ∧ s.frame.num < e.2 + 180000000)

/-- The family of the custodian ports. The seed, nonce and random components are free. -/
def Obligations.CustodianPortsComponentsAndRegister : Prop :=
  ∀ (s : State),
    (s.answers = true → ∀ (c : Fin 2) (seq : Nat),
      let p := s.cust.ports[c]
      (∀ ek nt : Bytes, ek.length = 1184 → nt.length = 16 → completes (.hello c seq ek nt (crcCheck (portHead 1 seq 1200) (ek ++ nt))) s (fun t => ∃ seed nu b1 b2 : Bytes, seed.length = 32 ∧ nu.length = 16 ∧
        let kem := Config.kemEncap ek seed
        let h := Config.sha3 (ek ++ nt ++ kem.1 ++ nu)
        t.cust.ports[c].session = some (h, Config.kmac true kem.2 (leBytes 32 h.toNat) 64 (ascii "WL9640 PORT") false) ∧
        t.cust.ports[c].custodian = none ∧ t.cust.ports[c].stream = [] ∧ t.cust.ports[c].rxSeq = (seq + 1) % 256 ∧
        t.cust.ports[c].rxCount = 0 ∧ t.out = s.out ++ [.portFrame c 5 p.txSeq b1, .portFrame c 2 ((p.txSeq + 1) % 256) b2]) ∧
        ∀ bad, bad ≠ crcCheck (portHead 1 seq 1200) (ek ++ nt) → completes (.hello c seq ek nt bad) s (fun t =>
          t = { s with cust := t.cust } ∧ t.cust.ports[c] = { p with errs := min (p.errs + 1) 0xFFFF })) ∧
      (∀ (i a : Nat) (sig payload : Bytes),
        let login := p.checkOf 3 seq (loginBytes i a sig)
        let data := p.checkOf 4 seq payload
        (∀ bad : Bytes, ∀ e ∈ [(Instr.login c seq i a sig bad, login), (.custData c seq payload bad, data), (.bye c seq bad, p.checkOf 6 seq []),
            (.custodianAck c seq i bad, p.checkOf 5 seq (leBytes 1 i))],
          bad ≠ e.2 → completes e.1 s (fun t => t = { s with cust := t.cust } ∧ t.cust.ports[c] = { p with errs := min (p.errs + 1) 0xFFFF })) ∧
        (seq % 256 = p.rxSeq →
          (∀ h keys, p.session = some (h, keys) →
            s.quarry.custodians.any (fun k => k.1 == i && k.2.1 == a && Config.verify a k.2.2 (ascii "WL9640 LOGIN" ++ leBytes 32 h.toNat) sig) = true →
            completes (.login c seq i a sig login) s (fun t => t.cust.ports[c].custodian = some i ∧ t.cust.ports[c].session = some (h, keys) ∧
              t.cust.ports[c].rxSeq = (p.rxSeq + 1) % 256 ∧ t.cust.ports[c].rxCount = p.rxCount + 1)) ∧
          completes (.custData c seq payload data) s (fun t => t.cust.ports[c].stream = p.stream ++ payload ∧ t.cust.ports[c].rxSeq = (p.rxSeq + 1) % 256 ∧
            t.cust.ports[c].rxCount = p.rxCount + (if p.session.isSome then 1 else 0) ∧ t.out = s.out ++ [.portFrame c 5 p.txSeq (p.seal 5 (leBytes 1 seq))]) ∧
          completes (.bye c seq (p.checkOf 6 seq [])) s (fun t => t.cust.ports[c].session = none ∧ t.cust.ports[c].custodian = none ∧ t.cust.ports[c].stream = [] ∧
            t.out = s.out ++ [.portFrame c 5 p.txSeq (p.seal 5 (leBytes 1 seq))])) ∧
        (p.rxSeq < 256 → (seq + 1) % 256 = p.rxSeq →
          completes (.custData c seq payload data) s (fun t => t.cust.ports[c].stream = p.stream ∧ t.cust.ports[c].rxSeq = p.rxSeq ∧
            t.out = s.out ++ [.portFrame c 5 p.txSeq (p.seal 5 (leBytes 1 seq))]))) ∧
      (∀ n : Nat, p.waiting = [] → completes (.custodianAck c seq n (p.checkOf 5 seq (leBytes 1 n))) s (fun t => t = { s with cust := t.cust } ∧
        t.cust.ports[c].unacked = p.unacked.filter (fun u => u.seq != n % 256) ∧ t.cust.ports[c].session = p.session)) ∧
      (∀ u : CustSent, p.unacked.find? (fun u => u.seq == seq) = some u →
        (u.tries < 8 → completes (.custodianResend c seq) s (fun t => t.out = s.out ++ [.portFrame c u.kind u.seq u.payload] ∧
          t.cust.ports[c].session = p.session ∧ ∃ v ∈ t.cust.ports[c].unacked, v = { u with tries := u.tries + 1 })) ∧
        (8 ≤ u.tries → completes (.custodianResend c seq) s (fun t => t.cust.ports[c].session = none ∧ t.out = s.out))) ∧
      (p.session.isSome = true → p.lastSeen + 30000000 ≤ s.frame.num → completes (.custodianSessionTimeout c) s (fun t => t.cust.ports[c].session = none))) ∧
    (∀ (rq : Req) (c : Fin 2) (h : Handle) (n : Nat) (ks : List Nat) (k : Token) (t : State) (node : Node), rq.src = .port c →
      s.takesUp rq 0xC0 t → n = 2 ∨ n = 3 → ks.length = n → ks.Nodup → (∀ x ∈ ks, ∃ g ∈ k.sigs, g.index = x) → t.keysClosed = false →
      t.checkHandle 0 h = none → hType h ∈ [(0x10 : BitVec 8), 0x11, 0x12, 0x18, 0x19] → t.keyNode [] h = some node → node.policy.getLsbD 2 = true →
      t.isBound (hInst h) (hNode h) = false →
      let op := opMessage 0xC0 k (leBytes 8 h.toNat ++ leBytes 1 n ++ ks.flatMap (leBytes 1)) []
      (t.tokenFault k 0xC0 3 (t.threshold 3) op = none → t.cust.exports = [] → (∀ x ∈ ks, t.portOfCustodian x = none) →
        completes (.compExport rq h n ks k) s (fun u => (∀ e ∈ u.quarry.challenges, e.1 ≠ k.challenge) ∧ u.mail.replies = t.mail.replies ∧
          ∃ e : CompExport, u.cust.exports = [e] ∧ e.port = c ∧ e.tag = rq.tag ∧ e.parts.map (fun p => (p.1, p.2.1)) = ks.zipIdx.map (fun x => (x.2 + 1, x.1)) ∧
            (e.parts.map (fun p => p.2.2)).foldl xorBytes (zeros (t.keyValue [] h).length) = t.keyValue [] h)) ∧
      (∀ st i, t.tokenFault k 0xC0 3 (t.threshold 3) op = some (st, i) → completes (.compExport rq h n ks k) s (fun u =>
        u.hasReply (replyTo rq) 0xC0 (st.setWidth 8) rq.tag [] ∧ u.cust = t.cust ∧ u.strata = t.strata.gather (t.event 0x300A true st.toNat 0xC0 i)))) ∧
    (∀ (rq : Req) (c : Fin 2) (id n k : Nat) (part : Bytes) (rec : Creation) (tok : Token) (t : State) (se : Dig × Bytes), rq.src = .port c →
      s.takesUp rq 0xC1 t → t.cust.ports[c].session = some se → t.cust.ports[c].custodian = some k → part.length = keyLen rec.ktype →
      rec.ktype ∈ [(0x10 : BitVec 8), 0x11, 0x12, 0x18, 0x19] → n = 2 ∨ n = 3 →
      (t.importOf id = none → t.keysClosed = false → t.creationRefused 0 rec 1 = none → t.tokenFault tok 0xC1 3 (t.threshold 3) (opMessage 0xC1 tok (importBody id 1 n part.length part) (creationBytes rec)) = none →
        completes (.compImport rq id 1 n part.length part rec tok) s (fun u => u.hasReply (replyTo rq) 0xC1 0x00 rq.tag (checkValue rec.ktype part) ∧
          ∃ i ∈ u.cust.imports, i.id = id ∧ i.count = n ∧ i.creation = rec ∧ i.got = [(1, k, part)])) ∧
      (∀ i : CompImport, t.importOf id = some i → t.frame.num < i.at_ + 180000000 → (∀ g ∈ i.got, g.2.1 ≠ k ∧ g.1 ≠ n) → i.count = n → i.len = part.length →
        i.got.length + 1 = n → i.creation = rec → t.creationRefused 0 rec 1 = none →
        completes (.compImport rq id n n part.length part rec tok) s (fun u => (∀ j ∈ u.cust.imports, j.id ≠ id) ∧
          ∃ (x : Nat) (m : Node), u.staged = t.staged ++ [.keyCreate 0 x (some (replyTo rq, rq.tag, 0xC1))] ∧ u.node 0 x = some m ∧ m.origin = .imported ∧
            m.ktype = rec.ktype ∧ m.material = padTo 64 (valueOf rec.ktype ((i.got.map (fun g => g.2.2) ++ [part]).foldl xorBytes (zeros part.length))))))  ∧
    (s.works = true →
      (∀ (id : Nat) (i : CompImport), s.importOf id = some i → i.at_ + 180000000 ≤ s.frame.num →
        exec (.componentExpiry true id) s = .next { s with cust := { s.cust with imports := s.cust.imports.filter (fun i => i.id != id) } }) ∧
      (∀ (e : CompExport), s.cust.exports = [e] → e.at_ + 180000000 ≤ s.frame.num → completes (.componentExpiry false e.tag.toNat) s (fun t =>
        t.cust.exports = [] ∧ t.hasReply (.port e.port) 0xC0 0x60 e.tag []))) ∧
    (∀ (rq : Req) (n q3 q4 : Nat) (keys : List (Nat × Nat × Bytes)) (k : Token) (t : State), s.takesUp rq 0xC2 t →
      let good := 3 ≤ n ∧ n ≤ 16 ∧ 2 ≤ q3 ∧ 3 ≤ q4 ∧ q3 ≤ q4 ∧ q4 ≤ n ∧ keys.length = n ∧ (keys.map (·.1)).Nodup ∧ ∀ e ∈ keys, e.2.1 = 1 ∨ e.2.1 = 2
      (¬ good → exec (.custodianSet rq n q3 q4 keys k) s = .next (t.reply (replyTo rq) 0xC2 0x10 rq.tag [])) ∧
      (good → t.tokenFault k 0xC2 3 (max (t.threshold 3) q3) (opMessage 0xC2 k [] (registerBytes n q3 q4 keys)) = none → completes (.custodianSet rq n q3 q4 keys k) s (fun u =>
        u.staged = t.staged ++ [.custodians n q3 q4 keys (replyTo rq) rq.tag] ∧ (∀ e ∈ u.quarry.challenges, e.1 ≠ k.challenge)))) ∧
    (∀ (n q3 q4 : Nat) (keys : List (Nat × Nat × Bytes)) (d : Dest) (tag : BitVec 16), s.commitsOnly (.custodians n q3 q4 keys d tag) →
      completes .stagedCommit s (fun t => t.quarry.custodians = keys ∧ t.quarry.quorum = (q3, q4) ∧ t.hasReply d 0xC2 0x00 tag []))

/-- The family of the journal. -/
def Obligations.JournalRingDurabilitySnapshotsAndRestore : Prop :=
  ∀ (s : State),
    (∀ (rq : Req) (base : Word) (j : Nat) (en : Bool) (t : State), s.takesUp rq 0xA0 t →
      let good := 12 ≤ j ∧ j ≤ 24 ∧ base.toNat % 4096 = 0 ∧ (t.quarry.written = [] ∨ (base = t.quarry.ring.1 ∧ j = t.quarry.ring.2.1))
      (good → exec (.jrnlSet rq base j en) s = .next { t with staged := t.staged ++ [.jrnlSet base j en (replyTo rq) rq.tag] }) ∧
      (¬ good → exec (.jrnlSet rq base j en) s = .next (t.reply (replyTo rq) 0xA0 0x10 rq.tag []))) ∧
    (s.ticks = true → completes .journalWrite s (fun t => ∃ k : Nat, k ≤ 4096 ∧
      let now := s.quarry.staging.take k
      t.quarry.staging = s.quarry.staging.drop k ∧ t.quarry.written = s.quarry.written ++ now ∧
      t.out = s.out ++ now.map (fun e => .hostWrite 0 (s.quarry.ring.1 + BitVec.ofNat 64 (192 * (e.seq % 2 ^ s.quarry.ring.2.1))) e.bytes) ∧
      (∀ e ∈ now, e.seq ≤ s.quarry.durable.1 + 2 ^ s.quarry.ring.2.1) ∧
      (s.quarry.ring.2.2 = false ∨ s.functionUp 0 = false → now = []) ∧
      (s.quarry.ring.2.2 = true → s.functionUp 0 = true → k < 4096 → ∀ e, s.quarry.staging[k]? = some e → s.quarry.durable.1 + 2 ^ s.quarry.ring.2.1 < e.seq) ∧
      (∀ e, now.getLast? = some e → ∀ o ∈ s.quarry.snapOwed, o.1 ≤ e.seq → t.hasReply o.2.2.1 0xA2 0x00 o.2.2.2 (leBytes 8 o.2.1 ++ leBytes 8 o.1)))) ∧
    (∀ (rq : Req) (n : Nat) (chain : BitVec 128) (t : State), s.takesUp rq 0xA1 t →
      (t.quarry.durable.1 ≤ n → t.chainAt n = some chain → completes (.jrnlDurable rq n chain) s (fun u => u.quarry.durable = (n, chain) ∧
        u.quarry.written = t.quarry.written.filter (fun e => decide (n < e.seq)) ∧ u.quarry.staging = t.quarry.staging ∧ u.quarry.anchors.length ≤ 2 ∧
        u.hasReply (replyTo rq) 0xA1 0x00 rq.tag [])) ∧
      (n < t.quarry.durable.1 ∨ t.chainAt n ≠ some chain → exec (.jrnlDurable rq n chain) s = .next (t.reply (replyTo rq) 0xA1 0x33 rq.tag []))) ∧
    (∀ (rq : Req) (t : State), s.takesUp rq 0xA2 t →
      (t.quarry.ownerKeys = false → exec (.jrnlSnap rq) s = .next (t.reply (replyTo rq) 0xA2 0x20 rq.tag [])) ∧
      (t.quarry.ownerKeys = true → completes (.jrnlSnap rq) s (fun u => u.quarry.snapAsk = t.quarry.snapAsk ++ [(replyTo rq, rq.tag)] ∧
        (t.quarry.snap.isSome = true → u.quarry.snap = t.quarry.snap ∧ u.quarry.seq = t.quarry.seq) ∧
        (t.quarry.snap = none → (∃ work, u.quarry.snap = some (t.quarry.seq, work)) ∧
          (t.quarry.l2.isSome = true → u.quarry.seq = t.quarry.seq + 1 ∧ ∃ e, u.quarry.staging = t.quarry.staging ++ [e] ∧ e.seq = t.quarry.seq ∧ e.kind = 4))))) ∧
    (∀ b : Nat, s.ticks = true → s.quarry.snap = some (b, []) → s.quarry.l2.isSome = true → completes .snapshotWrite s (fun t => t.quarry.snap = none ∧ t.quarry.snapAsk = [] ∧
      t.quarry.snapOwed = s.quarry.snapOwed ++ s.quarry.snapAsk.map (fun a => (s.quarry.seq, b, a.1, a.2)) ∧
      ∃ e, t.quarry.staging = s.quarry.staging ++ [e] ∧ e.seq = s.quarry.seq ∧ e.kind = 5)) ∧
    (∀ (rq : Req) (t : State), s.takesUp rq 0xA3 t → completes (.jrnlStat rq) s (fun u => u = { t with mail := u.mail } ∧ ∃ n : Nat,
      n = (match t.quarry.staging with | e :: _ => e.seq | [] => t.quarry.seq) ∧
      u.hasReply (replyTo rq) 0xA3 0x00 rq.tag (leBytes 8 n ++ leBytes 8 t.quarry.durable.1 ++ leBytes 4 t.quarry.staging.length ++
        leBytes 4 ((if t.quarry.restore.isSome then 1 else 0) + (if t.quarry.ownerKeys then 2 else 0)) ++
        leBytes 8 (t.quarry.anchors.getD 0 (0, 0)).1 ++ leBytes 8 (t.quarry.anchors.getD 1 (0, 0)).1))) ∧
    (∀ (rq : Req) (first last partner : Bool) (es : List JEntry) (t : State), s.takesUp rq 0xA4 t → t.quarry.l2.isSome = true → t.quarry.ownerKeys = false →
      es ≠ [] → es.length ≤ 65536 → first = true ∨ t.quarry.restore.isSome = true →
      (∀ n chain all, t.checkRestore first partner es = some (n, chain, all) →
        (last = false → exec (.restore rq first last partner es) s =
          .next ({ t with quarry := { t.quarry with restore := some (n, chain, all) } }.reply (replyTo rq) 0xA4 0x00 rq.tag [])) ∧
        (last = true → t.reaches partner all = true → completes (.restore rq first last partner es) s (fun u => u.quarry.ownerKeys = true ∧ u.quarry.restore = none ∧
          u.quarry.seq = n + 1 ∧ u.quarry.chain = chain ∧ u.quarry.staging = [] ∧ u.hasReply (replyTo rq) 0xA4 0x00 rq.tag [] ∧
          u.strata = t.strata.gather (t.event 0x3006 false 0 (n % 2 ^ 32) 0)))) ∧
      (t.checkRestore first partner es = none → completes (.restore rq first last partner es) s (fun u => u.quarry.restore = none ∧ u.quarry.ownerKeys = false ∧
        u.insts = t.insts ∧ u.hasReply (replyTo rq) 0xA4 0x33 rq.tag [])))

/-- The family of instances. -/
def Obligations.InstancesAreCreatedResetRemovedAndShared : Prop :=
  ∀ (s : State),
    (∀ (rq : Req) (i p : Nat) (x : Share) (t : State), s.takesUp rq 0x80 t → t.isOwned = true → shareGood x = true → t.idFree i = true → p ≤ 1 →
      (t.sharesFit (tset t.shares i x) = false → exec (.instCreate rq i p x) s = .next (t.reply (replyTo rq) 0x80 0x50 rq.tag [])) ∧
      (t.sharesFit (tset t.shares i x) = true → completes (.instCreate rq i p x) s (fun u => ∃ m : Inst, u.staged = t.staged ++ [.instCreate i m (replyTo rq) rq.tag] ∧
        m.share = x ∧ m.port = p ∧ m.state = .active ∧ m.dir.map (·.1) = [0] ∧ m.label.length = 32 ∧ m.label.take 2 = leBytes 2 i ∧ u.insts = t.insts))) ∧
    (∀ (i : Nat) (m : Inst) (d : Dest) (tag : BitVec 16), s.commitsOnly (.instCreate i m d tag) → i ≠ 0 → completes .stagedCommit s (fun t =>
      (∃ y : Inst, t.inst i = some y ∧ y.share = m.share ∧ y.port = m.port ∧ y.dir = m.dir ∧ y.label = m.label ∧ y.state = m.state) ∧ t.staged = [] ∧ t.hasReply d 0x80 0x00 tag [])) ∧
    (∀ (rq : Req) (i : Nat) (t : State) (x : Inst), t.inst i = some x → x.reset = none →
      (s.takesUp rq 0x81 t → i ≠ 0 → completes (.instRemove rq i) s (fun u => u.staged = t.staged ++ [.instReset i] ∧ ∃ y : Inst, u.inst i = some y ∧
        y.state = .removing ∧ ∃ r : Reset, y.reset = some r ∧ r.remove = true ∧ r.at_ = t.frame.num ∧ r.owed = [(replyTo rq, 0x81, rq.tag)])) ∧
      (s.takesUp rq 0x81 t → exec (.instRemove rq 0) s = .next (t.reply (replyTo rq) 0x81 0x10 rq.tag [])) ∧
      (s.takesUp rq 0x82 t → x.state ≠ .exported → completes (.instReset rq i) s (fun u => u.staged = t.staged ++ [.instReset i] ∧ ∃ y : Inst, u.inst i = some y ∧
        y.state = .resetting ∧ ∃ r : Reset, y.reset = some r ∧ r.remove = false ∧ r.at_ = t.frame.num ∧ r.owed = [(replyTo rq, 0x82, rq.tag)]))) ∧
    (∀ (i : Nat) (x : Inst) (r : Reset), s.commitsOnly (.instReset i) → s.inst i = some x → x.reset = some r → (s.jobs.map (·.slot)).Nodup →
      completes .stagedCommit s (fun t => (∀ j ∈ s.jobs, j.inst = i → j.squashed = none → ∃ k : Job, t.job j.slot = some k ∧ k.st = .finished ∧ k.status = 0x51) ∧
        (∀ z ∈ t.net.sessions, z.inst ≠ i) ∧ ∃ y : Inst, t.inst i = some y ∧ y.sessions = 0 ∧ y.reset = some { r with step := 2 })) ∧
    (∀ (i : Nat) (x : Inst) (r : Reset), s.inst i = some x → x.reset = some r → 2 ≤ r.step →
      (s.frame.num < r.at_ + 3 → exec (.resetComplete i) s = .next s) ∧
      (r.at_ + 3 ≤ s.frame.num → r.remove = true → i ≠ 0 → completes (.resetComplete i) s (fun t => t.inst i = none ∧ (∀ j ∈ t.jobs, j.inst ≠ i) ∧
        (∃ c ∈ t.quarry.reclaim, c.inst = i ∧ ∀ k n, (tget x.dir k).bind (·.node) = some n → n.expIreset = false → k ∈ c.todo) ∧
        (∀ o ∈ r.owed, o.1 ≠ .mailbox i → t.hasReply o.1 o.2.1 0x00 o.2.2 []))) ∧
      (r.at_ + 3 ≤ s.frame.num → r.remove = false → r.thenRemove = [] → r.exported = false → completes (.resetComplete i) s (fun t =>
        (∀ j ∈ t.jobs, j.inst ≠ i) ∧ (∀ o ∈ r.owed, t.hasReply o.1 o.2.1 0x00 o.2.2 []) ∧
        ∃ y : Inst, t.inst i = some y ∧ y.state = .active ∧ y.reset = none ∧ y.qs = Vector.replicate 4 {} ∧ y.reqTail = 0 ∧ y.reqHead = 0 ∧ y.rspTail = 0 ∧
          y.outstanding = 0 ∧ y.share = x.share ∧ y.port = x.port ∧ y.label = x.label))) ∧
    (∀ (rq : Req) (i : Nat) (z : Share) (t : State) (x : Inst), s.takesUp rq 0x83 t → t.inst i = some x → 1 ≤ i → i ≤ 1023 → shareGood z = true → x.state ≠ .exported →
      let same := z.personality = x.share.personality ∧ z.vectors = x.share.vectors ∧ z.qpairs = x.share.qpairs
      (same → t.sharesFit (tset t.shares i z) = true → exec (.shareSet rq i z) s = .next { t with staged := t.staged ++ [.shareSet i z (replyTo rq) rq.tag] }) ∧
      (same → t.sharesFit (tset t.shares i z) = false → exec (.shareSet rq i z) s = .next (t.reply (replyTo rq) 0x83 0x50 rq.tag [])) ∧
      (¬ same → exec (.shareSet rq i z) s = .next (t.reply (replyTo rq) 0x83 0x10 rq.tag []))) ∧
    (∀ (i : Nat) (z : Share) (d : Dest) (tag : BitVec 16) (x : Inst), s.commitsOnly (.shareSet i z d tag) → s.inst i = some x → i ≠ 0 →
      let fits := s.inflightOf i ≤ z.jobSlots ∧ x.slotsUsed ≤ z.ksSlots ∧ x.sessions ≤ z.sessions
      completes .stagedCommit s (fun t => ∃ y : Inst, t.inst i = some y ∧ y.share = z ∧
        (fits → y.shrink = none ∧ t.hasReply d 0x83 0x00 tag []) ∧
        (¬ fits → y.shrink = some (d, tag) ∧ ∃ r ∈ t.mail.replies, r.dest = d ∧ r.tag = tag ∧ r.status = 0x54 ∧ r.interim = true))) ∧
    (∀ (i : Nat) (x : Inst) (d : Dest) (tag : BitVec 16), s.inst i = some x → x.shrink = some (d, tag) →
      (s.inflightOf i ≤ x.share.jobSlots → x.slotsUsed ≤ x.share.ksSlots → x.sessions ≤ x.share.sessions → completes (.shrinkComplete i) s (fun t =>
        (∃ y : Inst, t.inst i = some y ∧ y.shrink = none ∧ y.share = x.share) ∧ t.hasReply d 0x83 0x00 tag [])) ∧
      (x.share.jobSlots < s.inflightOf i → exec (.shrinkComplete i) s = .next s))

/-- The family of migration. The port an import binds to is free (the model's choice). -/
def Obligations.MigrationLogsFreezesMovesAndThaws : Prop :=
  ∀ (s : State),
    (∀ (rq : Req) (i : Nat) (en : Bool) (a b : Word) (base len : Nat) (t : State) (x : Inst), s.takesUp rq 0x88 t → t.inst i = some x →
      let good := x.state ≠ .exported ∧ a.toNat % 8 = 0 ∧ b.toNat % 8 = 0 ∧ base % 2 ^ 21 = 0 ∧ len % 2 ^ 21 = 0 ∧ len ≤ 2 ^ 40 ∧ base < 2 ^ 64
      (good → exec (.dirtySet rq i en a b base len) s =
        .next { t with staged := t.staged ++ [.dirtySet i { en := en, a := a, b := b, base := base, len := len } (replyTo rq) rq.tag] }) ∧
      (¬ good → exec (.dirtySet rq i en a b base len) s = .next (t.reply (replyTo rq) 0x88 0x10 rq.tag []))) ∧
    (∀ (i : Nat) (n : Dirty) (d : Dest) (tag : BitVec 16) (x : Inst), s.commitsOnly (.dirtySet i n d tag) → s.inst i = some x → completes .stagedCommit s (fun t =>
      t.hasReply d 0x88 0x00 tag [] ∧ ∃ y : Inst, t.inst i = some y ∧ y.dirty.en = n.en ∧ y.dirty.a = n.a ∧ y.dirty.b = n.b ∧ y.dirty.base = n.base ∧ y.dirty.len = n.len)) ∧
    (∀ (rq : Req) (i : Nat) (t : State) (x : Inst), s.takesUp rq 0x89 t → t.inst i = some x →
      (x.state ≠ .exported → x.dirty.en = true → x.dirty.swap = none → exec (.dirtySwap rq i) s = .next { t with staged := t.staged ++ [.dirtySwap i (replyTo rq) rq.tag] }) ∧
      (x.state = .exported ∨ x.dirty.en = false ∨ x.dirty.swap.isSome = true → exec (.dirtySwap rq i) s = .next (t.reply (replyTo rq) 0x89 0x10 rq.tag []))) ∧
    (∀ (i : Nat) (d : Dest) (tag : BitVec 16) (x : Inst), s.commitsOnly (.dirtySwap i d tag) → s.inst i = some x → x.dirty.en = true → x.dirty.swap = none → completes .stagedCommit s (fun t =>
      ∃ y : Inst, t.inst i = some y ∧ y.dirty.onB = !x.dirty.onB ∧ y.dirty.other = x.dirty.marks ∧ y.dirty.outsideOld = x.dirty.outside ∧ y.dirty.swap = some (d, tag))) ∧
    (∀ (i : Nat) (x : Inst) (d : Dest) (tag : BitVec 16), s.inst i = some x → x.dirty.swap = some (d, tag) →
      completes (.bitmapSwapComplete i) s (fun t => (∃ y : Inst, t.inst i = some y ∧ y.dirty.swap = none ∧ y.dirty.other = [] ∧ y.dirty.onB = x.dirty.onB) ∧
        .flush 0 ∈ t.out ∧ t.hasReply d 0x89 0x00 tag (leBytes 4 (min x.dirty.outsideOld 0xFFFFFFFF)) ∧
        (s.functionUp 0 = true → ∀ p : Nat, x.dirty.other = [p] →
          .hostWrite 0 ((if x.dirty.onB then x.dirty.a else x.dirty.b) + BitVec.ofNat 64 (8 * (p / 64))) (leBytes 8 (2 ^ (p % 64))) ∈ t.out))) ∧
    (∀ (rq : Req) (i : Nat) (t : State) (x : Inst), s.takesUp rq 0x8A t → t.inst i = some x →
      (i ≠ 0 → x.state = .active ∨ x.state = .stalled → exec (.migFreeze rq i) s = .next { t with staged := t.staged ++ [.migFreeze i (replyTo rq) rq.tag] }) ∧
      (x.state = .frozen → exec (.migFreeze rq i) s = .next (t.reply (replyTo rq) 0x8A 0x10 rq.tag []))) ∧
    (∀ (i : Nat) (d : Dest) (tag : BitVec 16) (x : Inst), s.commitsOnly (.migFreeze i d tag) → s.inst i = some x → x.state = .active ∨ x.state = .stalled →
      completes .stagedCommit s (fun t => ∃ y : Inst, t.inst i = some y ∧ y.state = .frozen ∧ y.freeze = some (d, tag))) ∧
    (∀ (i : Nat) (x : Inst) (d : Dest) (tag : BitVec 16), s.inst i = some x → x.freeze = some (d, tag) →
      (s.inflightOf i = 0 → x.outstanding = 0 → completes (.freezeComplete i) s (fun t => t.hasReply d 0x8A 0x00 tag [] ∧
        ∃ y : Inst, t.inst i = some y ∧ y = { x with freeze := none })) ∧
      (s.inflightOf i ≠ 0 ∨ x.outstanding ≠ 0 → exec (.freezeComplete i) s = .next s)) ∧
    (∀ (rq : Req) (a : Word) (len : Nat) (t : State), s.takesUp rq 0x8E t →
      (len < 4276 → exec (.targetKey rq a len) s = .next (t.reply (replyTo rq) 0x8E 0x31 rq.tag [])) ∧
      (4276 ≤ len → t.signTree.isSome = true → completes (.targetKey rq a len) s (fun u => u.hasReply (replyTo rq) 0x8E 0x00 rq.tag [] ∧ u.mail.targets.length ≤ 4 ∧
        ∃ seed : Bytes, seed.length = 64 ∧ u.mail.targets.getLast? = some { encap := (Config.kemKeygen seed).1, decap := (Config.kemKeygen seed).2 }))) ∧
    (∀ (rq : Req) (i : Nat) (a : Word) (len : Nat) (g : TargetStatement) (c : OwnerCert) (t : State) (x : Inst), s.takesUp rq 0x8B t → t.inst i = some x →
      (∀ st, t.exportRefused x g c = some st → exec (.migExport rq i a len g c) s = .next (t.reply (replyTo rq) 0x8B st rq.tag [])) ∧
      (∀ parts u, t.exportRefused x g c = none → t.makePackage i x g.encapKey = some (parts, u) → (parts.map (·.length)).sum ≤ len →
        completes (.migExport rq i a len g c) s (fun v => ∃ y : Inst, v.inst i = some y ∧
          y.export_ = some { dest := replyTo rq, tag := rq.tag, addr := a, parts := parts } ∧ y.state = x.state))) ∧
    (∀ (i : Nat) (x : Inst) (e : Export), s.inst i = some x → x.export_ = some e → s.functionUp (destInst e.dest) = true → i ≠ destInst e.dest → (∀ p ∈ e.parts, p ≠ []) →
      completes (.migExportChunk i) s (fun t => ∃ as : List Word, as.length = min 64 e.parts.length ∧ (as ≠ [] → as.head? = some e.addr) ∧
        t.out = s.out ++ (as.zip e.parts).map (fun p => .hostWrite (destInst e.dest) p.1 p.2) ∧
        ∃ y : Inst, t.inst i = some y ∧
          (e.parts.length ≤ 64 → y.export_ = none ∧ y.state = .exported ∧ t.hasReply e.dest 0x8B 0x00 e.tag []) ∧
          (64 < e.parts.length → y.state = x.state ∧ ∃ f : Export, y.export_ = some f ∧ f.parts = e.parts.drop 64 ∧
            f.addr = e.addr + BitVec.ofNat 64 ((e.parts.take 64).map (·.length)).sum))) ∧
    (∀ (rq : Req) (i : Nat) (z : Share) (pack : Bytes) (t : State) (x : Inst) (k : TargetKey), s.takesUp rq 0x8C t → t.isOwned = true → shareGood z = true →
      t.idFree i = true → t.sharesFit (tset t.shares i z) = true →
      (t.openPackage pack = none → exec (.migImport rq i z pack) s = .next (t.reply (replyTo rq) 0x8C 0x33 rq.tag [])) ∧
      (t.openPackage pack = some (x, k) → x.slotsUsed ≤ z.ksSlots → completes (.migImport rq i z pack) s (fun u => u.mail.targets = t.mail.targets.erase k ∧
        ∃ m : Inst, u.staged = t.staged ++ [.migImport i m (replyTo rq) rq.tag] ∧ m.state = .frozen ∧ m.share = z ∧ m.port ≤ 1 ∧ m.dir = x.dir ∧ m.label = x.label ∧ m.qs = x.qs))) ∧
    (∀ (i : Nat) (m : Inst) (d : Dest) (tag : BitVec 16), s.commitsOnly (.migImport i m d tag) → i ≠ 0 → completes .stagedCommit s (fun t =>
      t.hasReply d 0x8C 0x00 tag [] ∧ ∃ y : Inst, t.inst i = some y ∧ y.state = m.state ∧ y.share = m.share ∧ y.dir = m.dir)) ∧
    (∀ (rq : Req) (i : Nat) (t : State) (x : Inst), s.takesUp rq 0x8D t → t.inst i = some x →
      (x.state = .frozen → exec (.migThaw rq i) s = .next { t with staged := t.staged ++ [.migThaw i (replyTo rq) rq.tag] }) ∧
      (x.state ≠ .frozen → exec (.migThaw rq i) s = .next (t.reply (replyTo rq) 0x8D 0x10 rq.tag []))) ∧
    (∀ (i : Nat) (d : Dest) (tag : BitVec 16) (x : Inst), s.commitsOnly (.migThaw i d tag) → s.inst i = some x → x.state = .frozen →
      completes .stagedCommit s (fun t => t.hasReply d 0x8D 0x00 tag [] ∧ ∃ y : Inst, t.inst i = some y ∧ y.state = .active ∧ y.freeze = none ∧ y.export_ = none))

/-- The family of programs. The layout of PROG_LIST's output is free. -/
def Obligations.ProgramsBindingsAndRecordMaps : Prop :=
  ∀ (s : State),
    (∀ (rq : Req) (id : Nat) (p : ProgImage) (t : State) (x : Inst),
      let i := srcInst rq.src
      let h := parseHeader p.file
      let b := p.file.take (128 + h.imageLen + h.constLen)
      let signed := ∃ g, progSig p = some g ∧ t.quarry.progKeys.any (fun k => k.1 == g.index && k.2.1 == g.alg && Config.verify g.alg k.2.2 b g.sig) = true
      let size := (h.imageLen + h.constLen + 127) / 128
      let made : Program := { header := h, measure := Config.sha3 b, slots := size, version := h.version.toNat, image := b.drop 128 }
      t.inst i = some x → headerBad h id = false → (progSig p).any (·.rsv) = false →
      (s.takesUp rq 0x20 t → (¬ signed → exec (.progLoad rq id p) s = .next (t.reply (replyTo rq) 0x20 0x33 rq.tag [])) ∧
        (signed → tget x.progs id = none → x.slotsUsed + size ≤ x.share.ksSlots → x.progs.length < 256 →
          exec (.progLoad rq id p) s = .next { t with staged := t.staged ++ [.progSet i id made (replyTo rq) rq.tag 0x20] })) ∧
      (s.takesUp rq 0x21 t → ∀ old, signed → tget x.progs id = some old → x.slotsUsed + (size - old.slots) ≤ x.share.ksSlots →
          exec (.progReplace rq id p) s = .next { t with staged := t.staged ++ [.progSet i id made (replyTo rq) rq.tag 0x21] }) ∧
      (s.takesUp rq 0x22 t → (∀ old, tget x.progs id = some old → exec (.progRemove rq id) s = .next { t with staged := t.staged ++ [.progRemove i id (replyTo rq) rq.tag] }) ∧
        (tget x.progs id = none → exec (.progRemove rq id) s = .next (t.reply (replyTo rq) 0x22 0x10 rq.tag [])))) ∧
    (∀ (i id m : Nat) (p : Program) (d : Dest) (tag : BitVec 16) (x : Inst), s.inst i = some x →
      (s.commitsOnly (.progSet i id p d tag m) → s.progFits i id p = false → completes .stagedCommit s (fun t => t.hasReply d m 0x50 tag [] ∧ ∃ y : Inst, t.inst i = some y ∧ y.progs = x.progs ∧ y.slotsUsed = x.slotsUsed)) ∧
      (s.commitsOnly (.progSet i id p d tag m) → s.progFits i id p = true → completes .stagedCommit s (fun t => t.hasReply d m 0x00 tag [] ∧ ∃ y : Inst, t.inst i = some y ∧ tget y.progs id = some p ∧
        (y.slotsUsed : Int) = max 0 ((x.slotsUsed : Int) + p.slots - (tget x.progs id).elim 0 (fun o => (o.slots : Int))))) ∧
      (s.commitsOnly (.progRemove i id d tag) → completes .stagedCommit s (fun t => t.hasReply d 0x22 0x00 tag [] ∧ ∃ y : Inst, t.inst i = some y ∧ tget y.progs id = none))) ∧
    (∀ (rq : Req) (a : Word) (len : Nat) (t : State), s.takesUp rq 0x23 t →
      let b := Config.progList (romIds.map (fun i => (i, 0, Config.romMeasure i)) ++ ((t.inst (srcInst rq.src)).elim [] (fun x => x.progs.map (fun e => (e.1, e.2.version, e.2.measure)))))
      (b.length ≤ len → exec (.progList rq a len) s = .next ((t.hostWrite (srcInst rq.src) a b).reply (replyTo rq) 0x23 0x00 rq.tag [])) ∧
      (len < b.length → exec (.progList rq a len) s = .next (t.reply (replyTo rq) 0x23 0x31 rq.tag []))) ∧
    (∀ (rq : Req) (p k : Nat) (m : Dig) (t : State) (x : Inst), s.takesUp rq 0x24 t → t.inst (srcInst rq.src) = some x → t.staged = [] → 1 ≤ k → k ≤ 255 →
      tget x.binds k = none → (∀ n, 1 ≤ n → n < k → (tget x.binds n).isSome = true) →
      exec (.bindAdd rq true p m) s = .next { t with staged := [.bindAdd (srcInst rq.src) k m (replyTo rq) rq.tag] }) ∧
    (∀ (i k : Nat) (m : Dig) (d : Dest) (tag : BitVec 16) (x : Inst), s.commitsOnly (.bindAdd i k m d tag) → s.inst i = some x → completes .stagedCommit s (fun t =>
      t.hasReply d 0x24 0x00 tag (leBytes 1 k) ∧ ∃ y : Inst, t.inst i = some y ∧ tget y.binds k = some m)) ∧
    (∀ (rq : Req) (ext : Bytes) (k : Token) (t : State) (x : Inst), s.takesUp rq 0x28 t →
      let i := srcInst rq.src
      let m := parseMap ext
      let ts := parseTables ext m.fields.length
      let faults := shapeFaults ext m ++ t.mapFaults i m ts
      t.inst i = some x →
      (x.share.personality ≠ 2 → exec (.mapInstall rq ext k) s = .next (t.reply (replyTo rq) 0x28 0x10 rq.tag [])) ∧
      (x.share.personality = 2 →
        (∀ o, some o ∈ faults → (∀ q, some q ∈ faults → o ≤ q) →
          exec (.mapInstall rq ext k) s = .next (t.reply (replyTo rq) 0x28 0x10 rq.tag (leBytes 4 o))) ∧
        (faults = [] → 64 < (addTables x.tables ts).length → exec (.mapInstall rq ext k) s = .next (t.reply (replyTo rq) 0x28 0x50 rq.tag [])) ∧
        (faults = [] → (addTables x.tables ts).length ≤ 64 → t.tokenFault k 0x28 3 t.quarry.quorum.1 (opMessage 0x28 k [] ext) = none → completes (.mapInstall rq ext k) s (fun u =>
          u.staged = t.staged ++ [.mapInstall i m ts (replyTo rq) rq.tag] ∧ ∀ e ∈ u.quarry.challenges, e.1 ≠ k.challenge)))) ∧
    (∀ (i : Nat) (m : RecMap) (id : Nat) (b : Bytes) (d : Dest) (tag : BitVec 16) (x : Inst), s.commitsOnly (.mapInstall i m [(id, b)] d tag) → s.inst i = some x →
      (addTables x.tables [(id, b)]).length ≤ 64 →
      completes .stagedCommit s (fun t => t.hasReply d 0x28 0x00 tag [] ∧ ∃ y : Inst, t.inst i = some y ∧ tget y.maps m.mapId = some m ∧ tget y.tables id = some b)) ∧
    (∀ (rq : Req) (id : Nat) (t : State) (x : Inst), s.takesUp rq 0x29 t → t.inst (srcInst rq.src) = some x → x.share.personality = 2 →
      (tget x.maps id).isSome = true → exec (.mapRemove rq id) s = .next { t with staged := t.staged ++ [.mapRemove (srcInst rq.src) id (replyTo rq) rq.tag] }) ∧
    (∀ (i id : Nat) (d : Dest) (tag : BitVec 16) (x : Inst), s.commitsOnly (.mapRemove i id d tag) → s.inst i = some x → completes .stagedCommit s (fun t =>
      t.hasReply d 0x29 0x00 tag [] ∧ ∃ y : Inst, t.inst i = some y ∧ tget y.maps id = none))

/-- REGION_SET, POT_SET, TAG_SET, RULE_SET, S2_SET, S2_ROOT, WORLD_SET and orders 2 and 3 of the commit. -/
def Obligations.ProtectionChangesAreStagedAndCommit : Prop :=
  ∀ (s : State), s.works = true →
    (s.hollowUp = true →
      let v := s.stagedView
      let put := fun (c : ProtChange) => (Host.Outcome.next { s with prot := { s.prot with log := s.prot.log ++ [c] } } : Host.Outcome State Fault Refusal)
      (∀ (p : Bool) (c : Fin 4) (i : Fin 16) (r : Region),
        let formed := (r.en = true → r.world ≠ 0 ∧ r.base.toNat ≤ r.limit.toNat) ∧ (r.paged = true → c.val < 2) ∧ (r.tagged = true → c = 0 ∨ c = 2)
        let unlocked := ∀ old, tget v.prot.regions (16 * c.val + i.val) = some old → old.lock = true → old = r
        let clear := r.en = true → ∀ (j : Nat) (q : Region), j < 16 → j ≠ i.val → (16 * c.val + j, q) ∈ v.prot.regions → q.en = true →
          r.limit.toNat < q.base.toNat ∨ q.limit.toNat < r.base.toNat
        (formed → unlocked → clear → exec (.regionSet (.core true p) c i r) s = put (.region c i r)) ∧
        (formed → unlocked → ¬ clear → exec (.regionSet (.core true p) c i r) s = .next (s.raise 0x2002 true c.val 1 i.val)) ∧
        (¬ (formed ∧ unlocked) → exec (.regionSet (.core true p) c i r) s = .next s)) ∧
      (∀ (p : Bool) (page n : Nat) (o : PageOwner), 1 ≤ n → n ≤ 65536 → s.hasEntry page = true → s.hasEntry (page + n - 1) = true →
        (page + n ≤ 0x8000000 → exec (.potSet (.core true p) page n o) s = put (.pot page n o)) ∧
        (0x8000000 ≤ page → page + n ≤ 0x8004000 → exec (.potSet (.core true p) page n o) s = if p = true ∧ o.tagged = false then put (.pot page n o) else .next s)) ∧
      (∀ (p : Bool) (page : Nat) (cs : List (BitVec 4)), s.hasEntry page = true → page < 0x8000000 → cs.length = 64 →
        exec (.tagSet (.core true p) page cs) s = put (.tag page cs)) ∧
      (∀ (p : Bool) (k : Ctxt) (i : Fin 32) (r : Rule),
        let clear := r.en = true → ∀ (j : Nat) (q : Rule), j ≠ i.val → (k, j, q) ∈ v.prot.rules → q.en = true →
          r.limit.toNat < q.base.toNat ∨ q.limit.toNat < r.base.toNat
        (clear → exec (.ruleSet (.core true p) k i r) s = put (.rule k i r)) ∧
        (¬ clear → exec (.ruleSet (.core true p) k i r) s = .next (s.raise 0x2002 true 0xFF 1 i.val))) ∧
      (∀ (by_ : Ctxt) (addr : Nat) (e : Word), addr % 8 = 0 → (v.owner (addr / 4096)).kind = 2 →
        ((v.owner (addr / 4096)).world = 1 ∧ by_ = .core false true ∨ (v.owner (addr / 4096)).world = 2 ∧ (∃ p, by_ = .core true p)) →
        exec (.s2Set by_ addr e) s = put (.s2 addr e)) ∧
      (∀ (by_ : Ctxt) (vmid : Nat) (r : Word), vmid < 2048 → (vmid < 1024 ∧ by_ = .core false true ∨ 1024 ≤ vmid ∧ (∃ p, by_ = .core true p)) →
        exec (.s2Root by_ vmid r) s = put (.s2root vmid r)) ∧
      (∀ (m : BitVec 64), ((List.range 64).filter (fun n => m.getLsbD n)).length ≤ 32 →
        exec (.worldSet (.core true true) m) s = .next { s with prot := { s.prot with worldStaged := some m } })) ∧
    (∀ (p : Bool) (c : Fin 4) (i : Fin 16) (r : Region) (page n : Nat) (o : PageOwner) (cs : List (BitVec 4)) (k : Ctxt) (j : Fin 32) (u : Rule) (m : BitVec 64)
      (cmd : Instr), cmd ∈ [Instr.regionSet (.core false p) c i r, .potSet (.core false p) page n o, .tagSet (.core false p) page cs,
        .ruleSet (.core false p) k j u, .worldSet (.core false p) m] → exec cmd s = .next s) ∧
    (s.quietCommit → s.prot.gates = [] → s.prot.ungates = [] →
      (∀ (c : ProtChange), s.prot.fence = [] → s.prot.worldStaged = none → s.prot.log = [c] → completes .stagedCommit s (fun t =>
        t.prot.log = [] ∧ t.prot.epoch = s.prot.epoch + 1 ∧ t.prot.fence = (List.range 45).map (fun k => 64 + k) ∧
        (∀ (l : LaneId), (t.lane l).walks = [] ∧ (t.lane l).dcache = [] ∧ ∀ e, e ∈ (t.lane l).tlb ↔ e ∈ (s.lane l).tlb ∧ s.affects c e = false) ∧
        (∀ (k : Fin 4) (i : Fin 16) (r : Region), c = .region k i r → tget t.prot.regions (16 * k.val + i.val) = some r ∧
          ∀ (l : LaneId), ∀ e ∈ (t.lane l).tlb, e.big = false → e.out / 4096 < r.base.toNat ∨ r.limit.toNat < e.out / 4096) ∧
        (∀ (page n : Nat) (o : PageOwner), c = .pot page n o → ∀ x, page ≤ x → x < page + n → t.owner x = o) ∧
        (∀ (page : Nat) (cs : List (BitVec 4)), c = .tag page cs → tget t.prot.tags page = some cs) ∧
        (∀ (k : Ctxt) (i : Fin 32) (r : Rule), c = .rule k i r → ∀ q, (k, i.val, q) ∈ t.prot.rules ↔ q = r ∧ r.en = true) ∧
        (∀ (addr : Nat) (e : Word), c = .s2 addr e → storedAt s.mem t.mem addr (leBytes 8 e.toNat)) ∧
        (∀ (vmid : Nat) (r : Word), c = .s2root vmid r → tget t.prot.s2roots vmid = some r))) ∧
      (s.prot.fence ≠ [] → completes .stagedCommit s (fun t =>
        t.prot.log = s.prot.log ∧ t.prot.worldStaged = s.prot.worldStaged ∧ t.prot.epoch = s.prot.epoch ∧ t.prot.fence = s.prot.fence)) ∧
      (∀ (m : BitVec 64), s.prot.fence = [] → s.prot.worldStaged = some m → s.prot.log = [] → completes .stagedCommit s (fun t =>
        t.prot.worldStaged = none ∧ t.prot.epoch = s.prot.epoch + 1 ∧ ∀ (l : LaneId), (t.lane l).hollow = m.getLsbD l.val ∧
          ((s.lane l).hollow = m.getLsbD l.val → t.lane l = s.lane l) ∧
          ((s.lane l).hollow ≠ m.getLsbD l.val → (t.lane l).tlb = [] ∧ (t.lane l).resident = [] ∧ (t.lane l).run = none ∧ (t.lane l).changed = true ∧
            (∀ o, o < 0x33000 → Memory.read t.mem (0xC000000000 + 0x40000 * l.val + o) = 0) ∧
            ∀ o, o < 0xD000 → Memory.read t.mem (0xC000000000 + 0x40000 * l.val + 0x33000 + o) =
              (Config.laneKernel (s.life.hollowHash.getD 0) (m.getLsbD l.val)).getD o 0))))

/-- GATE_REQ, GATE_STATE, DOMAIN_GATED, POWER_UNGATE_DONE, GATE_DENY and order 7 of the commit. -/
def Obligations.GatingRunsFromRequestToBoundary : Prop :=
  ∀ (s : State),
    (∀ (rq : Req) (d a v : Nat) (t : State), s.takesUp rq 0xC8 t → a < 4 → v < 4 →
      let others := ([[0, 1, 2, 3, 4, 5, 6, 7], [8, 9, 10, 11, 12], [13, 14, 15], [16, 17], [18, 19, 20, 21]].filter (fun l => l.contains d)).flatMap (·.erase d)
      let gone := fun (x : Nat) => t.prot.clockGated.getLsbD x = true ∨ t.prot.powerGated.getLsbD x = true ∨
        ∃ g ∈ t.prot.gates, g.domain = x ∧ (g.action = 1 ∨ g.action = 2)
      let allowed := v < 3 ∧ (d = 22 ∧ a = 3 ∨ d < 22 ∧ (a = 0 ∨ (a = 1 ∨ a = 2) ∧ ¬ ∀ x ∈ others, gone x))
      (allowed → exec (.gateReq rq d a v) s = .next { t with prot := { t.prot with gates := t.prot.gates ++
        [{ domain := d, action := if a = 3 then 3 + v else a, tag := rq.tag, commit := t.frame.num + 1 }] } }) ∧
      (¬ allowed → exec (.gateReq rq d a v) s = .next (t.reply (replyTo rq) 0xC8 0x10 rq.tag []))) ∧
    (∀ (rq : Req) (t : State), s.takesUp rq 0xC9 t → (∀ g ∈ t.prot.gates ++ t.prot.ungates, g.domain < 23) → ∃ m : BitVec 32,
      (∀ d, m.getLsbD d = true ↔ ∃ g ∈ t.prot.gates ++ t.prot.ungates, g.domain = d) ∧
      exec (.gateState rq) s = .next (t.reply (replyTo rq) 0xC9 0x00 rq.tag
        (leBytes 4 t.prot.clockGated.toNat ++ leBytes 4 t.prot.powerGated.toNat ++ leBytes 4 m.toNat))) ∧
    (∀ (d : Nat) (g : Gate), s.works = true → s.prot.gates = [g] → g.domain = d → d < 22 → g.action = 1 ∨ g.action = 2 → g.commit < s.frame.num →
      (g.denied = false → g.busy = false → s.prot.hollow ≠ .restarting → s.domainRuns d = false → completes (.domainGated d) s (fun t =>
        t.prot.gates = [] ∧ t.hasReply (.mailbox 0) 0xC8 0x00 g.tag [] ∧
        (∀ k, t.prot.clockGated.getLsbD k = if k = d then decide (g.action = 1) else s.prot.clockGated.getLsbD k) ∧
        (∀ k, t.prot.powerGated.getLsbD k = if k = d then decide (g.action = 2) else s.prot.powerGated.getLsbD k) ∧
        ∀ (l : LaneId), laneDomain l.val = d → (t.lane l).resident = [] ∧ (t.lane l).run = none ∧ (t.lane l).tlb = [])) ∧
      (g.denied = true ∨ g.busy = true ∨ s.prot.hollow = .restarting ∨ s.domainRuns d = true → exec (.domainGated d) s = .next s)) ∧
    (∀ (d : Nat), s.works = true → s.hollowUp = true → exec (.gateDeny (.core true true) d) s = .next { s with prot := { s.prot with
      gates := s.prot.gates.map (fun (g : Gate) => if g.domain = d ∧ (g.action = 1 ∨ g.action = 2) then { g with denied := true } else g) } }) ∧
    (∀ (m : Ctxt) (d : Nat), m ≠ .core true true → exec (.gateDeny m d) s = .next s) ∧
    (∀ (d : Nat) (g : Gate), s.works = true → s.prot.ungates = [g] → g.domain = d → d < 22 → s.prot.powerGated.getLsbD d = true →
      (g.commit + 10 ≤ s.frame.num → completes (.powerUngateDone d []) s (fun t => t.prot.ungates = [] ∧ t.hasReply (.mailbox 0) 0xC8 0x00 g.tag [] ∧
        ∀ k, t.prot.powerGated.getLsbD k = (s.prot.powerGated.getLsbD k && k != d))) ∧
      (∀ failed, g.commit + 10 ≤ s.frame.num → (s.katElems d).any failed.contains = true → completes (.powerUngateDone d failed) s (fun t =>
        t.prot.ungates = s.prot.ungates ∧ t.prot.powerGated = s.prot.powerGated ∧ ∀ e ∈ s.katElems d, failed.contains e = true → t.fenced e = true)) ∧
      (∀ failed, s.frame.num < g.commit + 10 → exec (.powerUngateDone d failed) s = .next s)) ∧
    (s.quietCommit → s.prot.log = [] → s.prot.worldStaged = none →
      (∀ (g : Gate), s.prot.gates = [g] → s.prot.ungates = [] → completes .stagedCommit s (fun t =>
        (g.denied = true → t.prot.gates = [] ∧ t.hasReply (.mailbox 0) 0xC8 0x12 g.tag [1]) ∧
        (g.denied = false → g.commit = s.frame.num → g.action = 0 → t.prot.gates = [] ∧ t.prot.ungates = [g]) ∧
        (g.denied = false → g.commit = s.frame.num → g.action = 1 ∨ g.action = 2 → t.prot.gates = [g]) ∧
        (g.denied = false → g.commit = s.frame.num → 3 ≤ g.action → t.prot.gates = [] ∧ t.prot.div = g.action - 3 ∧ t.hasReply (.mailbox 0) 0xC8 0x00 g.tag []))) ∧
      (∀ (g : Gate), s.prot.gates = [] → s.prot.ungates = [g] → g.domain < 22 → g.commit < s.frame.num → s.prot.powerGated.getLsbD g.domain = false →
        completes .stagedCommit s (fun t => t.prot.ungates = [] ∧ t.prot.clockGated.getLsbD g.domain = false ∧ t.hasReply (.mailbox 0) 0xC8 0x00 g.tag [])))

/-- FW_UPDATE, FW_CANCEL, FW_ACTIVATE, FW_ACTIVATE_RESTART, DBG_CERT, DEBUG_EXPIRY, DEBUGGER_ACCESS, TAMPER_CONFIG. -/
def Obligations.FirmwareUpdateActivationAndDebug : Prop :=
  ∀ (s : State),
    (∀ (rq : Req) (x : FwImage) (k : Token) (t : State), s.takesUp rq 0xD6 t → t.tokenFault k 0xD6 3 t.quarry.quorum.1 (opMessage 0xD6 k [] x.file) = none →
      x.kind = 1 ∨ x.kind = 2 →
      (t.imageFault x x.kind = none → completes (.fwUpdate rq x k) s (fun u =>
        u.life.slots x.kind = ((t.life.slots x.kind).1, some { image := x, valid := true }) ∧ (∀ e ∈ u.quarry.challenges, e.1 ≠ k.challenge) ∧
        (x.kind = 2 → u.hasReply (replyTo rq) 0xD6 0x00 rq.tag [] ∧ u.quarry.forward = t.quarry.forward) ∧
        (x.kind = 1 → ∀ l2, t.quarry.l2 = some l2 → u.staged = t.staged ++ [.imageReady 1 (replyTo rq) rq.tag] ∧
          u.quarry.forward = some ((t.wrapFor l2 x.hash 0).1, x.hash, false)))) ∧
      (∀ c, t.imageFault x x.kind = some c → completes (.fwUpdate rq x k) s (fun u => u.hasReply (replyTo rq) 0xD6 0x33 rq.tag [] ∧
        u.life.slots x.kind = ((t.life.slots x.kind).1, some { image := x, valid := false })))) ∧
    (∀ (d : Dest) (tag : BitVec 16) (w : Bytes) (h : Dig), s.commitsOnly (.imageReady 1 d tag) → s.quarry.forward = some (w, h, false) →
      completes .stagedCommit s (fun t => t.quarry.forward = some (w, h, true) ∧ t.hasReply d 0xD6 0x00 tag [])) ∧
    (∀ (rq : Req) (kind : Nat) (k : Token) (t : State), s.takesUp rq 0xD8 t → t.tokenFault k 0xD8 3 t.quarry.quorum.1 (opMessage 0xD8 k (leBytes 1 kind) []) = none →
      kind = 1 ∨ kind = 2 → completes (.fwCancel rq kind k) s (fun u => u.staged = t.staged ++ [.fwCancel kind (replyTo rq) rq.tag] ∧ u.life = t.life)) ∧
    (∀ (kind : Nat) (d : Dest) (tag : BitVec 16), s.commitsOnly (.fwCancel kind d tag) → kind = 1 ∨ kind = 2 → completes .stagedCommit s (fun t =>
      t.hasReply d 0xD8 0x00 tag [] ∧ t.life.slots kind = ((s.life.slots kind).1, none) ∧ (kind = 1 → t.quarry.forward = none))) ∧
    (∀ (rq : Req) (t : State), s.takesUp rq 0xD7 t →
      (t.life.activate = none → (∀ d g, Change.fwActivate d g ∉ t.staged) →
        exec (.fwActivate rq) s = .next { t with staged := t.staged ++ [.fwActivate (replyTo rq) rq.tag] }) ∧
      (t.life.activate.isSome = true → exec (.fwActivate rq) s = .next (t.reply (replyTo rq) 0xD7 0x10 rq.tag []))) ∧
    (∀ (d : Dest) (tag : BitVec 16), s.commitsOnly (.fwActivate d tag) → completes .stagedCommit s (fun t =>
      t.life.activate = some (s.frame.num, tag) ∧ t.drains = true ∧ (s.twin.record.isSome = true → t.hasReply d 0xD7 0x00 tag []))) ∧
    (∀ (n : Nat) (tag : BitVec 16), s.works = true → s.life.activate = some (n, tag) →
      (s.twin.record = none → s.jobs = [] → ∀ (f g : FwImage) (x : Inst), s.bootsWith f g → s.inst 0 = some x → (x.rspTail - x.rspHead).toNat < 16 →
        completes .fwActivateRestart s (fun t => t.readyWith f g ∧
          ∃ (i : Nat) (b : Bytes), .mailbox 0 i b ∈ t.out ∧ b.take 4 = [0xD7, 0x00] ++ leBytes 2 tag.toNat)) ∧
      (s.twin.record = none → s.jobs ≠ [] → s.frame.num < n + 100000 → exec .fwActivateRestart s = .next s) ∧
      (s.twin.record.isSome = true → n < s.frame.num → s.twin.up = true → completes .fwActivateRestart s (fun t =>
        t.life.activate = none ∧ t.jobs = [] ∧ ∃ l c p, .twin l (.silent c) p ∈ t.out))) ∧
    (∀ (rq : Req) (c : DebugCert) (v : Option VendorBlock) (k : Option Token) (t : State), s.takesUp rq 0xD9 t →
      let formed := c.shaped = true ∧ (∀ w, v = some w → w.rsv = false) ∧ c.rights ≠ 0 ∧
        (c.limitKind = 0 ∧ c.frames = 0 ∨ c.limitKind = 1 ∧ 1 ≤ c.frames ∧ c.frames ≤ 0xFFFFFFFE)
      let granted := t.twin.record = none ∨ c.rights &&& 0x1F = 0
      let current := c.lcs = lcsCode t.life.otp.lcs ∧ c.epoch = t.certEpoch ∧ t.challengeLive c.challenge = true
      let signed := t.quarry.custodians = [] ∨ ∃ q, k = some q ∧ q.challenge = c.challenge ∧ t.tokenFault q 0xD9 3 t.quarry.quorum.1 c.body = none
      let vendor := match v with
        | some w => t.vendorKey w.slot 2 w.pub = true ∧ Config.verify 4 w.pub (ascii "WL9640 DEBUG" ++ c.body) w.sig = true
        | none => c.rights.getLsbD 0 = false ∧ t.life.otp.lcs ≠ .returned ∧ t.quarry.custodians ≠ []
      let refuses := fun (st : BitVec 8) => completes (.dbgCert rq c v k) s (fun u => u.hasReply (replyTo rq) 0xD9 st rq.tag [] ∧
        u.life.dbgLast = st ∧ u.staged = t.staged)
      (¬ formed → refuses 0x10) ∧ (formed → ¬ granted → refuses 0x10) ∧ (formed → granted → ¬ current → refuses 0x33) ∧
      (formed → granted → current → t.quarry.custodians ≠ [] → k = none → refuses 0x60) ∧
      (formed → granted → current → signed → ¬ vendor → refuses (if v = none then 0x60 else 0x33)) ∧
      (formed → granted → current → signed → vendor → completes (.dbgCert rq c v k) s (fun u =>
        u.staged = t.staged ++ [.debugRights c.rights (if c.limitKind = 1 then some c.frames else none) (replyTo rq) rq.tag] ∧
        u.life.dbgLast = 0 ∧ u.life.dbgAccepted = min (t.life.dbgAccepted + 1) 0xFFFF ∧ ∀ e ∈ u.quarry.challenges, e.1 ≠ c.challenge))) ∧
    (∀ (r : BitVec 7) (n : Option Nat) (d : Dest) (tag : BitVec 16), s.commitsOnly (.debugRights r n d tag) → completes .stagedCommit s (fun t =>
      t.hasReply d 0xD9 0x00 tag [] ∧ t.prot.dbg = r ∧ t.prot.dbgLeft = n ∧
      (debugByte r ≠ debugByte 0 → t.quarry.l1 = none ∧ t.quarry.l2 = none ∧ t.quarry.ownerKeys = false) ∧
      (debugByte r = debugByte 0 → t.quarry.l1 = s.quarry.l1 ∧ t.quarry.l2 = s.quarry.l2))) ∧
    (s.prot.dbg ≠ 0 → s.prot.dbgLeft = some 0 → exec .debugExpiry s = .next { s with prot := { s.prot with dbgEnding := true } }) ∧
    (∀ r : BitVec 7, s.quietCommit → s.prot.log = [] → s.prot.worldStaged = none → s.prot.gates = [] → s.prot.ungates = [] →
      completes .stagedCommit { s with prot := { s.prot with dbg := r, dbgLeft := some 0, dbgEnding := true } } (fun t => t.prot.dbg = 0 ∧ t.prot.dbgEnding = false)) ∧
    (∀ (l : LaneId), let x := s.lane l
      (s.invasive x.hollow = false → ∀ r v a w, ∀ op ∈ [DebugOp.haltLane l, .stepLane l, .resumeLane l, .readReg l r, .writeReg l r v, .readLane l a, .writeLane l a w],
        exec (.debuggerAccess op) s = .next s) ∧
      (s.invasive x.hollow = true →
        exec (.debuggerAccess (.haltLane l)) s = .next (s.setLane l { x with stopped := true }) ∧
        exec (.debuggerAccess (.stepLane l)) s = .next (s.setLane l { x with stepping := x.stopped }) ∧
        exec (.debuggerAccess (.resumeLane l)) s = .next (s.setLane l { x with stopped := false, stepping := false }) ∧
        (x.stopped = true → ∀ (m : Nat) (j : Job), x.run = some m → s.job m = some j →
          (∀ r, exec (.debuggerAccess (.readReg l (.g r))) s = .next { s with out := s.out ++ [.debug (x.bank.rg r)] }) ∧
          (∀ r v, exec (.debuggerAccess (.writeReg l (.v r) v)) s = .next (s.setLane l { x with bank := x.bank.wv r v })) ∧
          (∀ v, exec (.debuggerAccess (.writeReg l .pc v)) s = .next (s.setLane l { x with bank := { x.bank with pc := v.setWidth 64 } }))))) ∧
    (∀ (c a : Nat) (v : Word), 96 ≤ c → c ≤ 103 → s.invasive (decide (c < 98)) = true →
      completes (.debuggerAccess (.haltCore c)) s (fun t => c ∈ t.prot.haltedCores) ∧
      completes (.debuggerAccess (.resumeCore c)) s (fun t => c ∉ t.prot.haltedCores) ∧
      exec (.debuggerAccess (.stepCore c)) s = .next s ∧
      (c ∈ s.prot.haltedCores → s.checkAccess (coreAcc c .read) a 8 = none →
        exec (.debuggerAccess (.readCore c a)) s = .next { s with out := s.out ++ [.debug (BitVec.ofNat 64 (leNat (Memory.readBytes s.mem a 8)))] }) ∧
      (c ∈ s.prot.haltedCores → s.checkAccess (coreAcc c .write) a 8 = none → completes (.debuggerAccess (.writeCore c a v)) s (fun t =>
        storedAt s.mem t.mem a (leBytes 8 v.toNat) ∧ t = { s with mem := t.mem }))) ∧
    (∀ (rq : Req) (cfg : BitVec 8 × BitVec 8 × BitVec 2) (k : Token) (t : State), s.takesUp rq 0xDC t →
      t.tokenFault k 0xDC 3 t.quarry.quorum.1 (opMessage 0xDC k (leBytes 1 cfg.1.toNat ++ leBytes 1 cfg.2.1.toNat ++ leBytes 1 cfg.2.2.toNat) []) = none →
      completes (.tamperConfig rq cfg k) s (fun u =>
        u.staged = t.staged ++ [.tamperCfg { inputEn := cfg.1, polarity := cfg.2.1, meshEn := cfg.2.2 } (replyTo rq) rq.tag] ∧
        ∀ e ∈ u.quarry.challenges, e.1 ≠ k.challenge))

/-- COMMISSION, DECOMMISSION, RECOVER, RETURN, ATTEST, ATTEST_CERT, ATTEST_TREE, LC_STATUS. -/
def Obligations.LifeCycleRequestsAndAttestation : Prop :=
  ∀ (s : State),
    (∀ (rq : Req) (t : State), t.twin.record = none → t.life.trans = none →
      let free := ∃ n, n < 63 ∧ (t.tlog n).1 = 0
      let stages := fun (cmd : Instr) (code e : Nat) (rec : Option CommRecord) (spent : BitVec 128) => completes cmd s (fun u =>
        u.staged = t.staged ++ [.transition] ∧ (∀ c ∈ u.quarry.challenges, c.1 ≠ spent) ∧ ∃ tr : Transition, u.life.trans = some tr ∧ tr.code = code ∧ tr.epoch = e ∧
        tr.record = rec ∧ tr.dest = some (replyTo rq, rq.tag) ∧ tr.committed = false)
      (∀ (r : CommRecord) (ps : List SigEntry) (c : BitVec 128) (n e : Nat), s.takesUp rq 0xD1 t →
        (t.life.otp.lcs = .sealed ∧ e = t.epoch ∨ (∃ k, t.life.otp.lcs = .released k ∧ k < 15 ∧ e = k + 1) → free →
          r.rsv = false → r.magic = 0x434D5231 → r.n = n → 3 ≤ n → n ≤ 16 → 2 ≤ r.q3 → r.q3 ≤ r.q4 → 3 ≤ r.q4 → r.q4 ≤ n → r.custodians.length = n →
          r.ockAlg = 1 ∨ r.ockAlg = 2 → (∀ k ∈ r.custodians, k.1 = 1 ∨ k.1 = 2) →
          (t.liveChallenges.find? (fun c => proved r ps c.1)).map (·.1) = some c → stages (.commission rq r ps) 3 e (some r) c) ∧
        ((∃ k, t.life.otp.lcs = .owned k) → exec (.commission rq r ps) s = .next (t.reply (replyTo rq) 0xD1 0x10 rq.tag []))) ∧
      (∀ (k : Token) (e : Nat), s.takesUp rq 0xD2 t → t.tokenFault k 0xD2 4 t.quarry.quorum.2 (opMessage 0xD2 k [] []) = none →
        (t.life.otp.lcs = .owned e → free → stages (.decommission rq k) 4 t.epoch none k.challenge) ∧
        (t.life.otp.lcs = .sealed → exec (.decommission rq k) s = .next (t.reply (replyTo rq) 0xD2 0x10 rq.tag []))) ∧
      (∀ (k : Token), s.takesUp rq 0xD3 t → t.tokenFault k 0xD3 4 t.quarry.quorum.2 (opMessage 0xD3 k [] []) = none →
        (t.tampered = true → free → stages (.recover rq k) 5 t.epoch none k.challenge) ∧
        (t.tampered = false → exec (.recover rq k) s = .next (t.reply (replyTo rq) 0xD3 0x10 rq.tag []))) ∧
      (∀ (v : VendorBlock) (c : BitVec 128) (k : Option Token), s.takesUp rq 0xD4 t → v.rsv = false → t.life.otp.lcs = .sealed ∨ (∃ e, t.life.otp.lcs = .released e) → free →
        t.quarry.custodians = [] → t.challengeLive c = true →
        (t.vendorKey v.slot 2 v.pub = true → Config.verify 4 v.pub (ascii "WL9640 RETURN" ++ leBytes 16 c.toNat) v.sig = true →
          stages (.returnUnit rq v c k) 6 t.epoch none c) ∧
        (t.vendorKey v.slot 2 v.pub = false → completes (.returnUnit rq v c k) s (fun u => u.hasReply (replyTo rq) 0xD4 0x33 rq.tag [] ∧ u.life = t.life)))) ∧
    (∀ (tr : Transition) (n : Nat), s.commitsOnly .transition → s.life.trans = some tr → tr.committed = false → n < 63 → (s.tlog n).1 = 0 →
      (∀ m, m < n → (s.tlog m).1 ≠ 0) → tr.code < 256 → tr.epoch < 16 → completes .stagedCommit s (fun t =>
        t.life.trans = some { tr with committed := true } ∧ t.drains = true ∧ (∀ j ∈ t.jobs, j.finished = true) ∧
        t.tlog n = (BitVec.ofNat 32 (tr.code + tr.epoch * 256 + lcsCode s.life.otp.lcs * 4096 + 0xA5000000), 0, 0) ∧ ∀ m, m ≠ n → t.tlog m = s.tlog m)) ∧
    (∀ (rq : Req) (user : Bytes) (a : Word) (len : Nat) (t : State), s.takesUp rq 0x30 t → leNat (user.take 2) = 0 →
      (len < 2884 → exec (.attest rq user a len) s = .next (t.reply (replyTo rq) 0x30 0x31 rq.tag [])) ∧
      (2884 ≤ len → t.signTree = none → exec (.attest rq user a len) s = .next (t.reply (replyTo rq) 0x30 0x23 rq.tag [])) ∧
      (2884 ≤ len → ∀ (n : Nat) (x : Tree), t.signTree = some (n, x) →
        let b := t.statement n (srcInst rq.src) 0 ((user.drop 4).take 24) 0
        completes (.attest rq user a len) s (fun u => u.hasReply (replyTo rq) 0x30 0x00 rq.tag [] ∧ b.length = 192 ∧
          (t.functionUp (srcInst rq.src) = true → .hostWrite (srcInst rq.src) a (b ++ padTo 2692 (Config.treeSign x.secret x.next b)) ∈ u.out) ∧
          ∃ y : Tree, u.life.trees[n]? = some y ∧ y.next = x.next + 1 ∧ (x.next ≤ x.reserved → y.next ≤ y.reserved) ∧ y.pub = x.pub ∧ y.secret = x.secret))) ∧
    (∀ (rq : Req) (c : OwnerCert) (t : State) (x : Tree), s.takesUp rq 0xDA t → t.life.trees[c.tree]? = some x →
      let good := c.epoch = t.epoch ∧ padTo 68 c.pub = padTo 68 x.pub ∧ t.ownerSigned c = true
      (good → completes (.attestCert rq c) s (fun u => u.hasReply (replyTo rq) 0xDA 0x00 rq.tag [] ∧
        u.life.trees[c.tree]? = some { x with cert := some (ownerCertBytes c ++ c.sig) })) ∧
      (¬ good → exec (.attestCert rq c) s = .next (t.reply (replyTo rq) 0xDA 0x33 rq.tag []))) ∧
    (∀ (rq : Req) (a : Word) (len : Nat) (t : State) (e : Nat), s.takesUp rq 0xDB t → t.life.otp.lcs = .owned e →
      (len < 68 → exec (.attestTree rq a len) s = .next (t.reply (replyTo rq) 0xDB 0x31 rq.tag [])) ∧
      (68 ≤ len → 16 ≤ t.life.trees.length + t.life.treeGen.length → exec (.attestTree rq a len) s = .next (t.reply (replyTo rq) 0xDB 0x50 rq.tag [])) ∧
      (68 ≤ len → t.life.treeGen = [] → t.life.trees.length < 16 →
        exec (.attestTree rq a len) s = .next { t with life := { t.life with treeGen := [(replyTo rq, rq.tag, a, t.frame.num + 18000)] } })) ∧
    (∀ (rq : Req) (t : State), s.takesUp rq 0xD0 t → exec (.lcStatus rq) s = .next (t.reply (replyTo rq) 0xD0 0x00 rq.tag
      (leBytes 4 (t.reg 0x500000).toNat ++ leBytes 4 (t.reg 0x500008).toNat ++ leBytes 4 (t.reg 0x50001C).toNat)))

/-- TRANSITION_RUN, SCRAP, TEST, SEAL. The content of what is drawn is free. -/
def Obligations.TransitionsBurnTheLifeCycle : Prop :=
  ∀ (s : State),
    (∀ (tr : Transition) (n : Nat), s.life.trans = some tr → n < 64 → (s.tlog n).1 ≠ 0 → (s.tlog n).2 = (0, 0) →
      s.recordOf n = (tr.code, tr.epoch) → (∀ m, m < 64 → m ≠ n → (s.tlog m).1 = 0 ∨ (s.tlog m).2.2 ≠ 0) →
      (tr.committed = false ∨ s.jobs ≠ [] → exec .transitionRun s = .next s) ∧
      (tr.committed = true → s.jobs = [] → s.life.otp.faultOf = none → s.life.latch = none → s.life.check ≠ .invalid →
        let runs := fun (p : State → Prop) => completes .transitionRun s (fun t => t.life.trans = none ∧ (t.tlog n).1 = (s.tlog n).1 ∧ (t.tlog n).2.2 = 0xFFFF ∧
          t.openRecord = none ∧ p t)
        (∀ r : CommRecord, tr.code = 3 → tr.record = some r → s.life.otp.lcs = .sealed ∨ (∃ k, s.life.otp.lcs = .released k ∧ k < 15) → runs (fun t =>
          (s.life.otp.lcs = .sealed → t.life.otp.lcs = .owned 0) ∧ (∀ k, s.life.otp.lcs = .released k → t.life.otp.lcs = .owned (k + 1)) ∧
          t.quarry.custodians.map (·.2) = r.custodians ∧ t.quarry.quorum = (r.q3, r.q4) ∧ t.life.ock = some (r.ockAlg, r.ock) ∧ t.life.check = .valid ∧
          (∃ x : Tree, t.life.trees = [x] ∧ x.cert = none) ∧ t.life.cfg = { inputEn := r.inputEn, polarity := r.polarity, meshEn := r.meshEn })) ∧
        (∀ e, tr.code = 4 → s.life.otp.lcs = .owned e → s.tampered = false → runs (fun t => t.life.otp.lcs = .released e ∧ t.insts.map (·.1) = (s.insts.map (·.1)).filter (· == 0) ∧
          t.quarry.current = none ∧ t.quarry.forward = none ∧ t.quarry.progKeys = [] ∧ t.twin.record = none ∧ t.life.trees = [] ∧ t.life.bbram = 0 ∧ t.life.check = .empty)) ∧
        (∀ e, tr.code = 5 → s.life.otp.lcs = .owned e → e < 15 → (∃ m, m < 63 ∧ m ≠ n ∧ (s.tlog m).1 = 0) → runs (fun t => t.life.otp.lcs = .owned (e + 1) ∧
          t.life.otp.tamperRec = s.life.otp.tamperRec ||| (s.life.otp.tamperRec + 1) ∧ t.life.check = .valid)) ∧
        (tr.code = 6 → s.life.otp.lcs = .sealed ∨ (∃ e, s.life.otp.lcs = .released e) → runs (fun t => t.life.otp.lcs = .returned ∧ t.life.trees = [] ∧ t.life.bbram = 0)))) ∧
    (∀ (rq : Req) (c : BitVec 128) (k : Option Token) (t : State), s.takesUp rq 0xD5 t →
      (t.challengeLive c = false → exec (.scrap rq c k) s = .next (t.reply (replyTo rq) 0xD5 0x33 rq.tag [])) ∧
      (t.challengeLive c = true → t.quarry.custodians = [] → completes (.scrap rq c k) s (fun u => u.life.otp.lcs = .scrapped ∧
        u.power.run = .stopped ∧ u.power.halt = 5 ∧ u.power.ready = false ∧ u.frame.ticking = false ∧ u.jobs = [] ∧ u.life.bbram = 0 ∧ u.life.check = .empty ∧
        u.life.otp.trim = Vector.replicate 64 0xFFFFFFFF ∧ u.life.otp.l0Seed = BitVec.allOnes 256 ∧ u.insts.map (·.1) = (s.insts.map (·.1)).filter (· == 0) ∧
        u.quarry.custodians = [] ∧ u.quarry.current = none ∧ u.quarry.progKeys = [] ∧ u.life.trees = [] ∧ u.life.ock = none ∧ u.twin.record = none ∧
        u.life.hollowCur = none ∧ u.life.hollowNext = none ∧ u.life.plainCur = none ∧ u.life.plainNext = none ∧
        (∀ a, 0x8000000000 ≤ a → a < 0x8004000000 → Memory.read u.mem a = 0)))) ∧
    (∀ (ws : List (BitVec 32)), let at_ := s.power.run = .stopped ∧ s.life.fault = false ∧ s.life.otp.lcs = .raw
      (at_ → completes (.testUnit ws) s (fun t => t.life.otp.lcs = .tested ∧ t.power.testEn = true ∧
        ∀ k : Fin 64, t.life.otp.trim[k] = ws.getD k.val 0)) ∧
      (¬ at_ → exec (.testUnit ws) s = .next s)) ∧
    (∀ (ks : List (Nat × Dig × BitVec 4)), let at_ := s.power.run = .stopped ∧ s.life.fault = false ∧ s.life.otp.lcs = .tested
      (at_ → completes (.sealUnit ks) s (fun t => t.life.otp.lcs = .sealed ∧ t.life.bbram = 0 ∧ t.life.check = .empty ∧
        ((ks.map (·.1)).Nodup → ∀ k ∈ ks, ∀ h : k.1 < 8, t.life.otp.vkeyHash[k.1] = k.2.1 ∧ t.life.otp.vkeyUse[k.1] = k.2.2))) ∧
      (¬ at_ → exec (.sealUnit ks) s = .next s))

/-- TWIN_LINK_UP, TWIN_LINK_DOWN, TWIN_CODEWORD_ERROR and the seven TWIN_FRAME commands. -/
def Obligations.TwinLinkFramesAreTakenOrRefused : Prop :=
  ∀ (s : State), s.twin.silent = false → s.frame.ticking = true →
    (∀ n : Nat, completes (.twinLinkUp n) s (fun t => t.twin.up = true ∧ t.twin.keyed = false ∧ t.twin.txSeq = 1 ∧ t.twin.rxSeq = 0 ∧ t.net.latency = n ∧
      ∃ (c : BitVec 128) (l : LinkFrame), l.seq = 0 ∧ l.frame = s.frame.num ∧ t.twin.nonces = (some c, none) ∧
        let m := TwinMsg.pairing 0 (s.linkHello c)
        t.twin.kept = [(l, m, m.payload)] ∧ t.out = s.out ++ [.twin l m m.payload])) ∧
    completes .twinLinkDown s (fun t => t.twin.up = false ∧ t.twin.keyed = false ∧ t.twin.kept = [] ∧ t.twin.parts = [] ∧ t.twin.nonces = (none, none)) ∧
    (∀ (l : LinkFrame) (ch first done i step : Nat) (off : Int) (p : BodyPart) (x : Exchange) (es : List JEntry) (data b : Bytes),
      let down := fun (t : State) => t.twin.up = false ∧ t.twin.keyed = false ∧ t.twin.kept = [] ∧ t.twin.refusals = 0
      ∀ e ∈ ([(Instr.twinFrameMarker l off, 1, (TwinMsg.marker l.frame).payload), (.twinFrameBody l p, 2, Config.linkBody p),
          (.twinFrameExchange l x, 3, (TwinMsg.exchange x).payload), (.twinFrameReplication l es, 4, Config.linkEntries es),
          (.twinFrameBulk l i data done, 5, Config.linkBulk i data done), (.twinFramePairing l step b, 6, (TwinMsg.pairing step b).payload),
          (.twinFrameRetry l ch first, 7, (TwinMsg.retry ch first).payload)] : List (Instr × Nat × Bytes)),
        let good := l.seq = s.twin.rxSeq ∧ s.linkTagOk e.2.1 l e.2.2 = true ∧ (e.2.1 = 6 ∨ s.twin.keyed = true)
        (s.twin.up = false → exec e.1 s = .next s) ∧
        (s.twin.up = true → ¬ good →
          (s.twin.refusals < 2 → ∃ (m : LinkFrame) (d : Bytes), m.seq = s.twin.txSeq ∧ m.frame = s.frame.num ∧
            (d, m.tag) = s.linkSeal s.twin.offered 7 { m with tag := 0 } (TwinMsg.retry e.2.1 s.twin.rxSeq).payload ∧
            exec e.1 s = .next { s with
              twin := { s.twin with refusals := s.twin.refusals + 1, txSeq := s.twin.txSeq + 1 }
              out := s.out ++ [.twin m (.retry e.2.1 s.twin.rxSeq) d] }) ∧
          (2 ≤ s.twin.refusals → completes e.1 s down)) ∧
        (s.twin.up = true → good → completes e.1 s (fun t => t.twin.rxSeq = s.twin.rxSeq + 1 ∧ t.twin.refusals = 0))) ∧
    (s.twin.up = true →
      (∀ ch : Nat, completes (.twinCodewordError ch) s (fun t => t.twin.errs.2 = s.twin.errs.2 + 1 ∧
        (s.twin.refusals < 2 → ∃ (m : LinkFrame) (d : Bytes), m.seq = s.twin.txSeq ∧ .twin m (.retry ch s.twin.rxSeq) d ∈ t.out) ∧
        (2 ≤ s.twin.refusals → t.twin.up = false))) ∧
      ∀ l : LinkFrame, l.seq = s.twin.rxSeq →
      (∀ (b : Bytes) (own : BitVec 128), s.twin.nonces.1 = some own → s.linkTagOk 6 l (TwinMsg.pairing 0 b).payload = true →
        completes (.twinFramePairing l 0 b) s (fun t => t.twin.nonces = (some own, some (BitVec.ofNat 128 (leNat (b.take 16)))) ∧
          t.twin.keyed = (s.twin.keyed || s.knowsPartner b) ∧
          (s.knowsPartner b = true → s.twin.state = .solo ∨ s.twin.state = .unpaired → t.twin.state = .resync ∧
            ∀ e ∈ s.insts, ∃ m d q, .twin m (.bulk e.1 d) q ∈ t.out))) ∧
      (s.twin.keyed = true →
        (∀ off : Int, s.linkTagOk 1 l (TwinMsg.marker l.frame).payload = true → s.twin.record.isSome = true → s.frame.leader = false → s.twin.partnerSync = false →
          s.frame.syncSeen = false → completes (.twinFrameMarker l off) s (fun t => t.frame.offset = off ∧ t.frame.syncMarker = true ∧ t.frame.syncSeen = true ∧
            t.frame.badAlign = (if 50 < off ∨ off < -50 then s.frame.badAlign + 1 else 0))) ∧
        (∀ p : BodyPart, s.linkTagOk 2 l (Config.linkBody p) = true → s.twin.got = [] → (∀ e ∈ s.twin.parts, e.frame ≠ p.frame) →
          (l.last = false → completes (.twinFrameBody l p) s (fun t => t.twin.parts = [p] ∧ t.twin.got = [])) ∧
          (l.last = true → s.twin.digestOf p.frame = some p.digest → completes (.twinFrameBody l p) s (fun t => t.twin.parts = [] ∧
            ∃ b : Received, t.twin.got = [b] ∧ b.frame = p.frame ∧ b.digest = p.digest ∧ b.jobs = p.jobs ∧ b.calls = p.calls ∧ b.commits = p.commits ∧
              b.replies = p.replies ∧ b.confirmed = false)) ∧
          (l.last = true → s.twin.digestOf p.frame ≠ some p.digest → completes (.twinFrameBody l p) s (fun t => t.twin.got = [] ∧ t.twin.badBody = some (p.frame, 2)))) ∧
        (∀ x : Exchange, s.linkTagOk 3 l (TwinMsg.exchange x).payload = true → x.xDigests = [] → x.xAborts = [] → x.xMismatch = [] → x.cancels = [] →
          completes (.twinFrameExchange l x) s (fun t =>
          t.twin.digestOf x.frame = some x.digest ∧ t.twin.resIn.length = s.twin.resIn.length + x.reservations.length ∧
          (x.heartbeat = true → s.frame.leader = true → t.twin.heartbeat = true ∧ t.twin.lastBeat = s.frame.num) ∧
          (∀ f, x.confirm = some f → (∀ c ∈ t.twin.sent, f < c.frame) ∧ (∀ c ∈ s.twin.sent, c.frame ≤ f → f ≤ t.twin.conf)) ∧
          (∀ f (c : Checkpoint), x.confirm = none → x.refuse = some f → s.twin.sent = [c] → c.frame = f → t.twin.sent = [{ c with refusals := c.refusals + 1 }] ∧
            t.twin.refused = min (s.twin.refused + 1) 0xFFFFFFFF ∧ (c.refusals ≠ 0 → t.twin.pathTest = true)) ∧
          (x.silent = true → s.twin.state = .paired → s.twin.adoptDue = none → t.twin.adoptDue = some 2 ∧ t.twin.marker = true) ∧
          (∀ i (k : Fin 4) v y, x.doorbells = [(i, k.val, v)] → s.inst i = some y → ∃ z : Inst, t.inst i = some z ∧ z.qs[k].sqTail = v))) ∧
        (∀ es : List JEntry, s.linkTagOk 4 l (Config.linkEntries es) = true → completes (.twinFrameReplication l es) s (fun t =>
          (s.twin.state = .paired → t.twin.replica = s.twin.replica ++ s.openReplicas es ∧ t.twin.copying = s.twin.copying) ∧
          (s.twin.state ≠ .paired → t.twin.replica = s.twin.replica ∧ ∀ k y, tget s.twin.copying k = some y → tget t.twin.copying k =
            some { y with dir := ((s.openReplicas es).filter (fun e => shadowKey e.inst == k)).foldl applyEntry y.dir }))) ∧
        (∀ (i done : Nat) (data : Bytes), s.linkTagOk 5 l (Config.linkBulk i data done) = true → completes (.twinFrameBulk l i data done) s (fun t =>
          t.twin.resync = min done 1000 ∧
          let k := if i = 0 then 1024 else i
          let whole := (tget s.twin.bulkIn k).getD [] ++ data
          (l.last = false → tget t.twin.bulkIn k = some whole ∧ t.twin.copying = s.twin.copying) ∧
          (l.last = true → ∀ y, Config.migOpen whole = some y → tget t.twin.copying k = some { y with state := .dormant, shadow := false }))) ∧
        (∀ ch first : Nat, s.linkTagOk 7 l (TwinMsg.retry ch first).payload = true → completes (.twinFrameRetry l ch first) s (fun t =>
          let again := s.twin.kept.filter (fun k => decide (first ≤ k.1.seq))
          t.twin.kept = again ∧ t.net.retries = min (s.net.retries + 1) 0xFFFF ∧ t.out = s.out ++ again.map (fun k => .twin k.1 k.2.1 k.2.2)))))

/-- PAIR_OFFER, PAIR_ACCEPT, UNPAIR, SHADOW_COPY_DONE, HEARTBEAT_LOSS, ADOPTION, SPLIT_RESYNC, RESYNC_COMPLETE, TWIN_PATH_TEST_DONE, REPAIRED_UNIT_REJOIN. -/
def Obligations.PairingFailoverAndResynchronisation : Prop :=
  ∀ (s : State),
    (∀ (rq : Req) (g : TargetStatement) (c : OwnerCert) (k : Token) (t : State) (e : Nat),
      ∀ p ∈ ([(Instr.pairOffer rq g c k, 0xB0, true), (.pairAccept rq g c k, 0xB1, false)] : List (Instr × Nat × Bool)), s.takesUp rq p.2.1 t →
        t.life.otp.lcs = .owned e → t.twin.record = none → t.twin.state = .unpaired → t.twin.up = true → t.prot.dbg = 0 → (∀ i ∈ t.insts, i.1 = 0) →
        g.rsv = false → g.epoch = t.epoch → t.certGood c (targetBytes g) g.sig = true →
        t.tokenFault k p.2.1 3 t.quarry.quorum.1 (opMessage p.2.1 k [] (targetBytes g ++ g.sig ++ ownerCertBytes c ++ c.sig)) = none →
        completes p.1 s (fun u =>
          if (t.take 1).1 = 1 then u.twin.state = .pairing ∧ u.twin.ceremony = some (p.2.2, rq.tag, 3) ∧ u.frame.leader = p.2.2 ∧
            u.twin.peer = some { encap := g.encapKey, att := c.pub } ∧ (p.2.2 = false → ∃ l d, .twin l (.pairing 3 []) d ∈ u.out)
          else u.hasReply (replyTo rq) p.2.1 0x10 rq.tag [] ∧ u.twin.state = .unpaired)) ∧
    (∀ (tag : BitVec 16) (p : Peer) (l : LinkFrame) (b : Bytes), s.twin.silent = false → s.frame.ticking = true → s.twin.up = true → s.twin.peer = some p →
      l.seq = s.twin.rxSeq →
      (s.twin.ceremony = some (true, tag, 3) → s.linkTagOk 6 l (TwinMsg.pairing 3 b).payload = true → completes (.twinFramePairing l 3 b) s (fun t =>
        (s.signTree.isSome = true → t.twin.ceremony = some (true, tag, 4) ∧ ∃ m q d, .twin m (.pairing 4 q) d ∈ t.out) ∧
        (s.signTree = none → s.twin.state = .pairing → t.twin.ceremony = none ∧ t.twin.state = .unpaired ∧ t.hasReply (.mailbox 0) 0xB0 0x23 tag []))) ∧
      (s.twin.ceremony = some (false, tag, 3) → s.linkTagOk 6 l (TwinMsg.pairing 4 b).payload = true →
        (s.openPair p b = none → completes (.twinFramePairing l 4 b) s (fun t => t.twin.ceremony = s.twin.ceremony ∧ t.quarry = s.quarry)) ∧
        (∀ q k, s.openPair p b = some (q, k) → completes (.twinFramePairing l 4 b) s (fun t => t.twin.ceremony = some (false, tag, 7) ∧ t.twin.keyed = true ∧
          t.twin.record = some (BitVec.ofNat 128 (leNat ((q.drop 32).take 16)), Config.sha3 p.att, BitVec.ofNat 128 (leNat ((q.drop 57).take 16))) ∧
          t.quarry.l2 = some (BitVec.ofNat 256 (leNat (q.take 32))) ∧ t.twin.role0 = false ∧ t.twin.jump = some (max s.frame.num l.frame + 1000) ∧
          ∃ m d, .twin m (.pairing 5 (leBytes 16 t.quarry.jid.toNat)) d ∈ t.out))) ∧
      (s.twin.ceremony = some (true, tag, 4) → s.linkTagOk 6 l (TwinMsg.pairing 5 b).payload = true → completes (.twinFramePairing l 5 b) s (fun t =>
        t.twin.ceremony = some (true, tag, 7) ∧ t.twin.record = some (p.pair, Config.sha3 p.att, BitVec.ofNat 128 (leNat (b.take 16))) ∧
        t.twin.jump = some (max s.frame.num l.frame + 1000) ∧ ∀ e ∈ s.insts, ∃ m d q, .twin m (.bulk e.1 d) q ∈ t.out))) ∧
    (∀ (i : Nat) (tag : BitVec 16) (x : Inst), s.twin.state = .pairing → s.twin.copying = [] → s.inst i = some x → i ∉ s.twin.copied → i ≠ 0 →
      s.twin.ceremony = some (true, tag, 7) → (∀ e ∈ s.insts, e.1 = i ∨ e.1 ∈ s.twin.copied) → completes (.shadowCopyDone i) s (fun t =>
        t.twin.state = .paired ∧ t.twin.ceremony = none ∧ t.hasReply (.mailbox 0) 0xB0 0x00 tag [])) ∧
    (∀ (rq : Req) (k : Token) (t : State), s.takesUp rq 0xB2 t →
      (t.twin.record = none → exec (.unpair rq k) s = .next (t.reply (replyTo rq) 0xB2 0x10 rq.tag [])) ∧
      (t.twin.record.isSome = true → t.tokenFault k 0xB2 3 t.quarry.quorum.1 (opMessage 0xB2 k [] []) = none →
        completes (.unpair rq k) s (fun u => u.staged = t.staged ++ [.unpair (replyTo rq) rq.tag]))) ∧
    (∀ (d : Dest) (tag : BitVec 16), s.commitsOnly (.unpair d tag) → completes .stagedCommit s (fun t => t.hasReply d 0xB2 0x00 tag [] ∧
      t.twin.record = none ∧ t.twin.shadows = [] ∧ t.twin.state = .unpaired ∧ t.quarry.l2 = s.quarry.l2)) ∧
    (s.ticks = true →
      (s.twin.state = .paired → s.twin.adoptDue = none →
        (s.twin.heartbeat = false → 1 ≤ s.twin.missed → s.twin.partnerSync = false → 1 ≤ s.twin.syncMissed → completes .heartbeatLoss s (fun t =>
          t.twin.adoptDue = some 1 ∧ t.twin.state = .paired)) ∧
        (s.twin.heartbeat = false → 1 ≤ s.twin.missed → s.twin.partnerSync = true ∨ s.twin.syncMissed = 0 → completes .heartbeatLoss s (fun t =>
          t.twin.state = .split ∧ t.twin.adoptDue = none)) ∧
        (s.twin.heartbeat = true ∨ s.twin.missed = 0 → exec .heartbeatLoss s = .next s)) ∧
      (s.twin.adoptDue = none → exec .adoption s = .next s) ∧
      (s.twin.adoptDue.isSome = true → s.twin.got = [] → (s.twin.shadows.map (·.1)).Nodup → completes .adoption s (fun t =>
        t.twin.state = .solo ∧ t.frame.leader = true ∧ t.twin.adoptDue = none ∧ t.twin.shadows = [] ∧ t.twin.failovers = min (s.twin.failovers + 1) 0xFFFF ∧
        t.twin.adopted = s.twin.adopted ++ s.twin.shadows.map (·.1) ∧ t.jobs.length = s.jobs.length + s.twin.jobs.length ∧
        ∀ e ∈ s.twin.shadows, ∃ y : Inst, t.inst e.1 = some y ∧ y.state = .active ∧ y.shadow = true ∧ y.share = e.2.share)) ∧
      (s.twin.state = .split →
        (s.twin.beats < 10000 → exec .splitResync s = .next s) ∧
        (10000 ≤ s.twin.beats → completes .splitResync s (fun t => t.twin.state = .resync ∧ t.twin.resyncAt = s.frame.num ∧
          (s.twin.up = true → ∀ e ∈ s.insts, ∃ m d q, .twin m (.bulk e.1 d) q ∈ t.out)))) ∧
      (s.twin.state = .resync → (s.twin.copying.map (·.1)).Nodup → completes .resyncComplete s (fun t => t.twin.state = .paired ∧ t.twin.copying = [] ∧ t.twin.resync = 1000 ∧
        (∀ e ∈ s.twin.copying, tget t.twin.shadows e.1 = some e.2) ∧ (t.twin.partnerBack = true ↔ s.twin.adopted ≠ []))) ∧
      (s.twin.pathTest = false → ∀ b : Bool, exec (.twinPathTestDone b) s = .next s) ∧
      (s.twin.pathTest = true → s.twin.state = .paired → s.twin.record.isSome = true →
        completes (.twinPathTestDone true) s (fun t => t.twin.silent = true ∧ t.twin.state = .silent ∧ t.jobs = [] ∧ t.quarry.l2 = none) ∧
        completes (.twinPathTestDone false) s (fun t => t.twin.silent = false ∧ t.twin.state = .split ∧ t.twin.pathTest = false))) ∧
    (∀ b : Bool, s.twin.silent = false ∨ s.twin.stuck = true ∨ b = false → exec (.repairedUnitRejoin b) s = .next s) ∧
    (s.twin.silent = true → s.twin.stuck = false → completes (.repairedUnitRejoin true) s (fun t => t.twin.silent = false ∧
      t.twin.state = (if s.twin.unserved then .split else .resync) ∧ t.quarry.l1.isSome = true ∧
      (s.twin.unserved = false → t.insts = [] ∧ t.frame.leader = false ∧ t.twin.homes = s.insts.map (·.1) ∧
        t.twin.shadows.map (·.1) = s.insts.map (·.1) ∧ ∀ e ∈ t.twin.shadows, e.2.state = .dormant)))

/-- NET_ENDPOINT, NET_MKA, ETHERNET_FRAME_RX, MKPDU_RX, MKA_HELLO, NEIGHBOUR_SOLICITATION, ECHO_REQUEST. -/
def Obligations.NetworkFramesAndEndpoints : Prop :=
  ∀ (s : State),
    (∀ (rq : Req) (i : Nat) (en ve : Bool) (v : BitVec 12) (a : BitVec 128) (t : State) (x : Inst), s.takesUp rq 0xB8 t → t.inst i = some x →
      let bad := x.state = .exported ∨ en = true ∧ (a.toNat / 2 ^ 125 ≠ 1 ∨ ∃ e ∈ t.net.endpoints, e.inst ≠ i ∧ e.addr = a)
      (bad → exec (.netEndpoint rq i en ve v a) s = .next (t.reply (replyTo rq) 0xB8 0x10 rq.tag [])) ∧
      (¬ bad → exec (.netEndpoint rq i en ve v a) s = .next { t with staged := t.staged ++ [.netEndpoint
        { inst := i, ep := if en then some { inst := i, vlan := if ve then some v.toNat else none, addr := a } else none, dest := replyTo rq, tag := rq.tag }] })) ∧
    (∀ (e : EndpointSet), s.commitsOnly (.netEndpoint e) → (∀ p, e.ep = some p → p.inst = e.inst) → completes .stagedCommit s (fun t => t.hasReply e.dest 0xB8 0x00 e.tag [] ∧
      t.net.endpoints = s.net.endpoints.filter (fun (x : Endpoint) => x.inst != e.inst) ++ e.ep.toList ∧
      (s.net.endpoints.filter (fun (x : Endpoint) => x.inst == e.inst) ≠ e.ep.toList → ∀ x ∈ t.net.sessions, x.inst ≠ e.inst) ∧
      (∀ x ∈ s.net.sessions, x.inst ≠ e.inst → x ∈ t.net.sessions))) ∧
    (∀ (rq : Req) (h : Handle) (n : Bytes) (p : Nat) (pa pb x : Bool) (t : State), s.takesUp rq 0xB9 t →
      (n.length = 0 ∨ 32 < n.length → exec (.netMka rq h n p pa pb x) s = .next (t.reply (replyTo rq) 0xB9 0x10 rq.tag [])) ∧
      (1 ≤ n.length → n.length ≤ 32 → t.checkHandle 0 h = none → ∀ k : Node, t.keyNode [] h = some k →
        let fits := k.ktype = 0x12 ∧ k.usage.getLsbD 2 = true ∧ k.usage.getLsbD 4 = true ∧ k.usage.getLsbD 5 = true
        (fits → exec (.netMka rq h n p pa pb x) s = .next { t with staged := t.staged ++ [.netMka
          { cak := h, ckn := n, priority := p, passA := pa, passB := pb, xpn := x, dest := replyTo rq, tag := rq.tag }] }) ∧
        (¬ fits → exec (.netMka rq h n p pa pb x) s = .next (t.reply (replyTo rq) 0xB9 0x24 rq.tag [])))) ∧
    (∀ (m : MkaSet), s.commitsOnly (.netMka m) → completes .stagedCommit s (fun t => t.hasReply m.dest 0xB9 0x00 m.tag [] ∧ t.net.priority = m.priority ∧
      ∀ b : Bool, if (if b then m.passB else m.passA) = true then (t.pass b).cak.map (·.2) = some m.ckn ∧ (t.pass b).xpn = m.xpn ∧ (t.pass b).peers = []
        else (t.pass b).cak = (s.pass b).cak)) ∧
    (∀ (b ms : Bool) (c an pn : Nat) (header cipher : Bytes) (icv : BitVec 128) (dst : BitVec 48), s.works = true →
      let rx := exec (.ethernetFrameRx b ms c an pn header cipher icv dst) s
      let p := s.pass b
      let dropped := fun (t : State) => (t.pass b).rxDrop = p.rxDrop + 1 ∧ (t.pass b).rx = p.rx ∧ t.net.drops = min (s.net.drops + 1) 0xFFFFFFFF
      (p.up = false → rx = .next s) ∧
      (p.up = true → s.passes.chosen = false ∨ (b ≠ s.passes.activeB ∧ s.passes.oldUntil = none) ∨ ms = false ∨ p.rxFor c an = none →
        ∃ t, rx = .next t ∧ dropped t ∧ (t.pass b).macFail = p.macFail) ∧
      (p.up = true → s.passes.chosen = true → b = s.passes.activeB ∨ s.passes.oldUntil.isSome = true → ms = true → ∀ a, p.rxFor c an = some a →
        let text := Config.gcmInv a.key.sak (macsecIv p.xpn a.key a.sci pn) header cipher icv
        (pn < a.low ∨ text = none → ∃ t, rx = .next t ∧ dropped t ∧ (t.pass b).macFail = p.macFail ++ [s.frame.num] ∧
          (t.pass b).rxFor c an = some { a with fails := a.fails + 1 }) ∧
        (∀ x, a.low ≤ pn → text = some x → ∃ t, rx = .next t ∧ (t.pass b).rxFor c an = some { a with low := max a.low (pn + 1 - s.net.replay) } ∧
          (t.pass b).macFail = p.macFail ∧
          ((dst = p.mac ∨ dst.getLsbD 40 = true) → servedPacket (etherPacket x) = true → (t.pass b).rx = p.rx + 1 ∧ (t.pass b).rxDrop = p.rxDrop) ∧
          (dst ≠ p.mac ∧ dst.getLsbD 40 = false ∨ servedPacket (etherPacket x) = false → dropped t)))) ∧
    (∀ (b : Bool) (icv : BitVec 128) (n : Bytes) (peer latest : Nat) (sak : Option SakMsg), s.works = true → (s.pass b).up = true →
      ((∀ k, (s.pass b).cak = some (k, n) → icv ≠ Config.mkaIcv k n peer sak latest) → completes (.mkpduRx b icv n peer sak latest) s (fun t =>
        (t.pass b).rxDrop = (s.pass b).rxDrop + 1 ∧ (t.pass b).peers = (s.pass b).peers ∧ (t.pass b).staged = (s.pass b).staged)) ∧
      (∀ k, (s.pass b).cak = some (k, n) → icv = Config.mkaIcv k n peer sak latest → (s.pass b).peers.length < 16 →
        completes (.mkpduRx b icv n peer sak latest) s (fun t =>
        (peer, s.frame.num) ∈ (t.pass b).peers ∧ (t.pass b).mkaPeer = true ∧ (t.pass b).mkaSeen = s.frame.num ∧
        (t.pass b).staged = (s.pass b).staged ++ sak.elim [] (fun m => match Config.kwInv (Config.mkaKek k n) m.wrapped with
          | none => []
          | some key => [{ key := some { sak := key, ssci := m.ssci, salt := m.salt }, tx := false, sci := peer, an := Fin.ofNat 4 m.an }] ++
              (if m.tx then [{ key := some { sak := key, ssci := m.own, salt := m.salt }, tx := true, sci := 0, an := Fin.ofNat 4 m.an }] else [])) ∧
        ∀ a, (s.pass b).rxSa = [a] → a.sci = peer → (t.pass b).rxSa = [{ a with low := max a.low latest }]))) ∧
    (∀ (b : Bool) (k n : Bytes), s.works = true → s.hollowUp = true → (s.pass b).up = true → (s.pass b).cak = some (k, n) → completes (.mkaHello b) s (fun t =>
      let p := s.pass b
      (t.pass b).mkaMn = p.mkaMn + 1 ∧ ∃ sak, t.out = s.out ++ [.ether b 0x888E (Config.mkpdu k n (p.mkaMn + 1) sak)] ∧
        (sak = none ∧ (t.pass b).staged = p.staged ∨
          p.wantsSak = true ∧ ∃ (key : Bytes) (salt : BitVec 96), key.length = 32 ∧ sak = some (p.nextAn.val, Config.kw (Config.mkaKek k n) key) ∧
            (t.pass b).staged = p.staged ++ p.served key salt p.nextAn ((livePeers p s.frame.num).map (·.1))))) ∧
    (∀ b : Bool, (s.pass b).cak = none → exec (.mkaHello b) s = .next s) ∧
    (∀ (b : Bool) (a : BitVec 128) (src data : Bytes), s.works = true → (s.pass b).up = true → b = s.passes.activeB → s.canSend →
      let held := a = linkLocal (s.pass b).mac ∨ ∃ e ∈ s.net.endpoints, e.addr = a
      (held → completes (.neighbourSolicitation b a src) s (fun t => s.sends t (.ether b 0x86DD (Config.neighbourReply (s.pass b).mac a src))) ∧
        completes (.echoRequest b a data) s (fun t => s.sends t (.ether b 0x86DD (Config.echoReply (s.pass b).mac a data)))) ∧
      (¬ held → exec (.neighbourSolicitation b a src) s = .next s ∧ exec (.echoRequest b a data) s = .next s))

/-- NERNAOSH_OPEN, _REQUEST, _ACK, _CLOSE, _PING, _RETRANSMIT, SESSION_IDLE_TIMEOUT. The session ID and the unit's nonce are free. -/
def Obligations.NernaoshSessions : Prop :=
  ∀ (s : State),
    (∀ (d : Datagram) (a : BitVec 128), s.works = true → s.passes.chosen = true →
      let h := openKey d
      let mss := min (openMss d) 8192
      let key := s.keyValue [] h
      let good := d.version = 1 ∧ d.rsv = false ∧ d.payload.length = 32 ∧ d.payload.drop 26 = zeros 6 ∧ d.session = 0 ∧ (∃ e ∈ s.net.endpoints, e.inst = d.inst ∧ e.addr = a) ∧
        hInst h = d.inst ∧ (s.keyNode [] h).isSome = true ∧ netTag key (headerOf 1 d) d.payload "NERNAOSH O" = leBytes 16 d.tag.toNat
      (¬ good → exec (.nernaoshOpen d a) s = .next { s with net := { s.net with drops := min (s.net.drops + 1) 0xFFFFFFFF } }) ∧
      (good → s.net.sessions.length < 2 ^ 31 → ∀ (k : Node) (x : Inst), s.checkHandle d.inst h = none → s.keyNode [] h = some k → s.inst d.inst = some x →
        let fits := k.ktype = 0x2B ∧ k.usage.getLsbD 4 = true ∧ k.usage.getLsbD 5 = true ∧ x.sessions < x.share.sessions ∧ 1024 ≤ mss ∧ mss % 16 = 0
        (fits → completes (.nernaoshOpen d a) s (fun t => ∃ y : Session, t.net.sessions = s.net.sessions ++ [y] ∧ y.id ≠ 0 ∧ y.inst = d.inst ∧
          (∀ z ∈ s.net.sessions, z.inst = d.inst → z.id ≠ y.id) ∧ y.mss = mss ∧ y.peer = d.peer ∧ y.node = hNode h ∧ y.rxNext = 1 ∧ y.txSeq = 1 ∧ y.limit = d.ack + d.window ∧
          (∃ m : Inst, t.inst d.inst = some m ∧ m.sessions = x.sessions + 1) ∧
          (∃ nu : BitVec 128, y.ks = BitVec.ofNat 256 (leNat (kmac256 key (leBytes 16 (openNonce d).toNat ++ leBytes 16 nu.toNat ++ beBytes 4 y.id.toNat) 32 (ascii "NERNAOSH S")))) ∧
          (s.canSend → ∃ b, s.sends t (.nernaosh d.inst d.peer b)))) ∧
        (¬ fits → completes (.nernaoshOpen d a) s (fun t => t.net = s.net ∧ (s.canSend → ∃ b, s.sends t (.nernaosh d.inst d.peer b)))))) ∧
    (∀ (d : Datagram), s.works = true → s.passes.chosen = true →
      ∀ p ∈ ([(Instr.nernaoshRequest d, 4), (.nernaoshAck d, 6), (.nernaoshClose d, 7), (.nernaoshPing d, 8)] : List (Instr × Nat)),
        (∀ x, ¬ s.validIn p.2 d x) → exec p.1 s = .next { s with net := { s.net with drops := min (s.net.drops + 1) 0xFFFFFFFF } }) ∧
    (∀ (d : Datagram) (x : Session), x.queue = [] → x.msgs = [] → x.held = [] → x.arrivals = [] →
      let ack := fun (y : Session) => { y with unacked := x.unacked.filter (fun u => decide (d.ack < u.seq)), limit := max x.limit (d.ack + d.window), lastSeen := s.frame.num, peer := d.peer }
      let own := fun (t : State) (y : Session) => t.session d.inst d.session = some y
      (s.validIn 6 d x → completes (.nernaoshAck d) s (fun t => own t (ack x))) ∧
      (s.validIn 8 d x → completes (.nernaoshPing d) s (fun t => own t (ack x) ∧ (s.canSend → s.sends t (.nernaosh d.inst d.peer ((ack x).datagram 6 false false 0 0 0 []))))) ∧
      (s.validIn 4 d x →
        (x.acked + 64 ≤ d.seq → completes (.nernaoshRequest d) s (fun t => own t (ack x) ∧ t.net.drops = min (s.net.drops + 1) 0xFFFFFFFF)) ∧
        (d.seq ≤ x.acked → completes (.nernaoshRequest d) s (fun t => own t (ack x) ∧
          (s.canSend → s.sends t (.nernaosh d.inst d.peer ((ack x).datagram 6 false false 0 0 0 []))))) ∧
        (x.acked < d.seq → d.seq < x.rxNext → d.seq < x.acked + 64 → completes (.nernaoshRequest d) s (fun t => own t (ack x) ∧ t.out = s.out ∧ t.net.drops = s.net.drops)) ∧
        (x.acked < d.seq → d.seq < x.acked + 64 → s.poolUsed + d.payload.length ≤ 2 ^ 30 →
          (d.seq = x.rxNext → completes (.nernaoshRequest d) s (fun t => ∃ m : NetMsg, m.msg = d.msg ∧ m.parts = [(d.offset, d.payload)] ∧
            (d.last = true → d.offset = 0 → m.whole = some d.payload) ∧ (d.last = false → m.whole = none) ∧
            own t (ack { x with rxNext := x.rxNext + 1, arrivals := [(s.frame.num, x.rxNext)], msgs := [m] }))) ∧
          (x.rxNext < d.seq → completes (.nernaoshRequest d) s (fun t => own t (ack { x with held := [d] }))))) ∧
      (s.validIn 7 d x → x.acked < d.seq → d.seq < x.acked + 64 → d.seq = x.rxNext → completes (.nernaoshClose d) s (fun t =>
        t.session d.inst d.session = none ∧
        (∀ (m : Nat) (j : Job) (f : Nat), s.job m = some j → j.inst = d.inst → j.net = some (d.session, f) → j.squashed = none →
          ∃ k : Job, t.job m = some k ∧ k.finished = true ∧ k.status = 0x01) ∧
        ∀ i, s.inst d.inst = some i → ∃ k : Inst, t.inst d.inst = some k ∧ k.sessions = i.sessions - 1))) ∧
    (∀ (i : Nat) (id : BitVec 32) (x : Session), s.works = true → s.passes.chosen = true → s.session i id = some x →
      (∀ u : Sent, x.unacked = [u] →
        (s.frame.num < u.sentAt + 100 * 2 ^ u.tries → completes (.nernaoshRetransmit i id) s (fun t => t.session i id = some x ∧ t.out = s.out)) ∧
        (u.sentAt + 100 * 2 ^ u.tries ≤ s.frame.num →
          (u.tries < 7 → completes (.nernaoshRetransmit i id) s (fun t => (s.canSend → s.sends t (.nernaosh i x.peer u.bytes)) ∧
            t.session i id = some { x with unacked := [{ u with sentAt := s.frame.num, tries := u.tries + 1 }] })) ∧
          (7 ≤ u.tries → completes (.nernaoshRetransmit i id) s (fun t => t.session i id = none)))) ∧
      (s.frame.num < x.lastSeen + 6000000 → exec (.sessionIdleTimeout i id) s = .next s) ∧
      (x.lastSeen + 6000000 ≤ s.frame.num → (∀ j ∈ s.jobs, j.inst = i → ∀ n, j.net = some n → n.1 ≠ id) → completes (.sessionIdleTimeout i id) s (fun t =>
        t.session i id = none ∧ (s.canSend → s.sends t (.nernaosh x.inst x.peer (x.datagram 7 false false x.txSeq 0 0 (zeros 8)))))))

/-- PERST_ASSERT, PERST_RELEASE, PCIE_LINK_DOWN, PCIE_LINK_UP, BUS_MASTER_ENABLE_CHANGE, VF_ENABLE_CHANGE, VF_FLR, PF_FLR, INSTANCE0_PORT_MOVE, MSIX_UNMASK. -/
def Obligations.HostPortsLinksAndFunctionResets : Prop :=
  ∀ (s : State) (p : Fin 2),
    let x := s.host.ports[p]
    let live := s.power.run = .running ∨ s.power.run = .stopped ∨ s.power.run = .halted
    let wiped := fun (t : State) => (t.host.ports[p].bme = false ∧ t.host.ports[p].vfEnable = false ∧ t.host.ports[p].mask = BitVec.allOnes 64 ∧
        t.host.ports[p].pend = 0 ∧ t.host.ports[p].flr = true) ∧ t.host.ports[1 - p] = s.host.ports[1 - p] ∧
      (s.works = true → ∀ (i : Nat) (y : Inst), s.inst i = some y → i ≠ 0 → y.port = p.val → y.reset = none → ∃ z : Inst, t.inst i = some z ∧ z.state = .resetting ∧
        .instReset i ∈ t.staged ∧ ∃ r, z.reset = some r ∧ r.remove = false ∧ r.flr = true) ∧
      (s.works = true → s.usable (1 - p) = false → ∀ y : Inst, s.inst 0 = some y → y.reset = none → ∃ z : Inst, t.inst 0 = some z ∧ z.state = .resetting)
    let resumed := fun (t : State) => ∀ (i : Nat) (a : Word) (b : Bytes), (i, .hostWrite i a b) ∈ s.host.waiting → t.functionUp i = true →
      .hostWrite i a b ∈ t.out ∧ (i, .hostWrite i a b) ∉ t.host.waiting
    completes (.perstAssert p) s (fun t => t.host.ports[p].perst = true ∧ (¬ (live ∧ s.power.fail = none) → t = { s with host := t.host } ∧ t.host.ports[p] = { x with perst := true }) ∧
      (live → s.power.fail = none → t.host.ports[p].up = false ∧ t.host.ports[p].rate = 0 ∧ t.host.ports[p].width = 0 ∧ wiped t)) ∧
    completes (.perstRelease p) s (fun t => t.host.ports[p] = { x with perst := false } ∧ t.host.ports[1 - p] = s.host.ports[1 - p]) ∧
    (live → completes (.pcieLinkDown p) s (fun t => t.host.ports[p] = { x with up := false, rate := 0, width := 0 } ∧ t.host.ports[1 - p] = s.host.ports[1 - p])) ∧
    (∀ rate width : Nat, let legal := live ∧ x.perst = false ∧ rate ≤ 5 ∧ width ∈ [1, 4, 8, 16]
      (legal → completes (.pcieLinkUp p rate width) s (fun t => t.host.ports[p].up = true ∧ t.host.ports[p].rate = rate ∧ t.host.ports[p].width = width ∧
        t.host.ports[p].bme = x.bme ∧ t.host.ports[1 - p].up = s.host.ports[1 - p].up ∧ resumed t)) ∧
      (¬ legal → exec (.pcieLinkUp p rate width) s = .next s)) ∧
    (∀ (on : Bool) (i n : Nat) (y : Inst),
      (¬ (live ∧ x.up = true) → exec (.busMasterEnableChange none p on) s = .next s ∧ exec (.busMasterEnableChange (some i) p on) s = .next s ∧
        exec (.vfEnableChange p on n) s = .next s) ∧
      (live → x.up = true → completes (.busMasterEnableChange none p on) s (fun t => t.host.ports[p].bme = on ∧ t.host.ports[p].up = true ∧ resumed t) ∧
        completes (.vfEnableChange p on n) s (fun t => t.host.ports[p].vfEnable = on ∧ t.host.ports[p].numVfs = n ∧ t.host.ports[p].up = true ∧ resumed t) ∧
        (s.inst i = some y → i ≠ 0 → completes (.busMasterEnableChange (some i) p on) s (fun t => (∃ z : Inst, t.inst i = some z ∧ z.bme = on) ∧ resumed t)))) ∧
    (∀ (i : Nat) (y : Inst), s.works = true → i ≠ 0 → s.inst i = some y → y.reset = none → completes (.vfFlr i) s (fun t =>
      t.staged = s.staged ++ [.instReset i] ∧ ∃ z : Inst, t.inst i = some z ∧ z.state = .resetting ∧ ∃ r, z.reset = some r ∧ r.remove = false ∧ r.flr = true)) ∧
    (live → completes (.pfFlr p) s wiped) ∧
    (¬ live → exec (.pfFlr p) s = .next s) ∧
    (s.ticks = true → 11200 ≤ s.frame.cycle → completes .instance0PortMove s (fun t =>
      let named : Fin 2 := if s.host.pfPort then 1 else 0
      (s.usable named = true → t.host.inUse1 = s.host.pfPort) ∧ (s.usable named = false → s.usable (1 - named) = true → t.host.inUse1 = !s.host.pfPort) ∧
      (s.usable named = false → s.usable (1 - named) = false → t = s))) ∧
    (s.frame.ticking = true →
      (∀ (i : Nat) (v : Fin 2) (y : Inst), s.inst i = some y → i ≠ 0 → completes (.msixUnmask (some i) p v.val) s (fun t =>
        (∃ z : Inst, t.inst i = some z ∧ z.vecMask[v] = false ∧ z.vecPend[v] = false) ∧
        (y.vecPend[v] = false → t.out = s.out) ∧ (y.vecPend[v] = true → s.functionUp i = true → t.out = s.out ++ [.msix i v.val]))) ∧
      (∀ v : Nat, v < 64 → completes (.msixUnmask none p v) s (fun t => t.host.ports[p].mask.getLsbD v = false ∧
        (x.pend.getLsbD v = true → s.functionUp 0 = true → p = s.inUse → t.out = s.out ++ [.msix 0 v] ∧ t.host.ports[p].pend.getLsbD v = false) ∧
        (x.pend.getLsbD v = false → t.out = s.out))))

/-- SELF_TEST_PIECE, FORCED_TEST, MARCH_TEST, DRAM_SCRUB, HEALTH_REPORT, FENCE_HOLD. -/
def Obligations.InServiceTestsAndHolds : Prop :=
  ∀ (s : State),
    (∀ (e : Fin 158) (full : Bool), let x := s.elem e.val
      let tested := s.works = true ∧ s.gatedElem e.val = false ∧ (full = true ∨ (elemKind e.val).1 ≠ 10)
      (¬ tested → ∀ b, exec (.selfTestPiece e full b) s = .next s ∧ exec (.forcedTest e full) s = .next s) ∧
      (tested → completes (.selfTestPiece e full true) s (fun t => (t.elem e.val).katAge = 0 ∧ (full = true → (t.elem e.val).fullAge = 0 ∧ (t.elem e.val).forcing = none) ∧
          (full = false → (t.elem e.val).fullAge = x.fullAge ∧ (t.elem e.val).passes = x.passes) ∧
          (x.fenced = false → (t.elem e.val).fenced = false) ∧
          (full = true → x.fenced = true → x.held = false → x.passes = 2 → x.passedAt + 100000 ≤ s.frame.num → (t.elem e.val).fenced = false) ∧
          (x.fenced = true → x.held = true ∨ full = false ∨ x.passes < 2 → (t.elem e.val).fenced = true)) ∧
        completes (.selfTestPiece e full false) s (fun t => (t.elem e.val).fenced = true ∧ (t.elem e.val).cause = (if full then 2 else 1) ∧ (t.elem e.val).passes = 0)) ∧
      (tested → let due := (elemKind e.val).1 ≠ 5 ∧ x.fenced = false ∧
          (if full then 100000 ≤ x.fullAge ∧ x.forcing ≠ some true else 20000 ≤ x.katAge ∧ x.forcing = none)
        (due → completes (.forcedTest e full) s (fun t => (t.elem e.val) = { x with forcing := some full, forced := min (x.forced + 1) 0xFFFF } ∧
          ∀ k, k ≠ e.val → t.elem k = s.elem k)) ∧
        (¬ due → exec (.forcedTest e full) s = .next s))) ∧
    (∀ (e r : Fin 16), let may := s.works = true ∧ s.gatedElem (46 + e.val) = false ∧ s.regionsUsed e < 16 ∧ 60 ≤ tnat s.test.march (16 * e.val + r.val)
      (may → completes (.marchTest e r true) s (fun t => tnat t.test.march (16 * e.val + r.val) = 0 ∧ t.test.elems = s.test.elems) ∧
        completes (.marchTest e r false) s (fun t => tnat t.test.march (16 * e.val + r.val) = 0 ∧ (t.elem (46 + e.val)).fenced = true ∧ (t.elem (46 + e.val)).cause = 3)) ∧
      (¬ may → ∀ b, exec (.marchTest e r b) s = .next s)) ∧
    (∀ (c : Fin 4) (n : Nat), exec (.dramScrub c n) s = .next { s with host := { s.host with memCe := min (s.host.memCe + n) 0xFFFFFFFF } }) ∧
    (∀ (rq : Req) (a : Word) (len : Nat) (t : State), s.takesUp rq 0xA8 t →
      (len < 4096 → exec (.healthReport rq a len) s = .next (t.reply (replyTo rq) 0xA8 0x31 rq.tag [])) ∧
      (4096 ≤ len → completes (.healthReport rq a len) s (fun u => u.hasReply (replyTo rq) 0xA8 0x00 rq.tag [] ∧
        (t.functionUp (srcInst rq.src) = true → u.out = t.out ++ [.hostWrite (srcInst rq.src) a (padTo 4096 t.test.report)])))) ∧
    (∀ (rq : Req) (e : Nat) (hold : Bool) (t : State), s.takesUp rq 0xA9 t → let good := e < 158 ∧ (hold = true → t.fenced e = true)
      (good → exec (.fenceHold rq e hold) s = .next { t with staged := t.staged ++ [.fenceHold e hold (replyTo rq) rq.tag] }) ∧
      (¬ good → exec (.fenceHold rq e hold) s = .next (t.reply (replyTo rq) 0xA9 0x10 rq.tag []))) ∧
    (∀ (e : Nat) (d : Dest) (tag : BitVec 16), e < 158 →
      (s.commitsOnly (.fenceHold e true d tag) → s.fenced e = true → completes .stagedCommit s (fun t => t.hasReply d 0xA9 0x00 tag [] ∧
        (t.elem e).held = true ∧ (t.elem e).fenced = true)) ∧
      (s.commitsOnly (.fenceHold e false d tag) → completes .stagedCommit s (fun t => t.hasReply d 0xA9 0x00 tag [] ∧ (t.elem e).held = false ∧
        (s.fenced e = true → 3 ≤ (s.elem e).passes → (t.elem e).fenced = false) ∧ (s.fenced e = true → (s.elem e).passes < 3 → (t.elem e).fenced = true))))

/-- The power-up family and the test access port. START_MS, the battery voltage and the time of the sequence are free. -/
def Obligations.PowerResetTamperAndStart : Prop :=
  ∀ (s : State),
    let held := s.power.powerFailN = false ∨ s.power.needsReset = true
    let frames := s.ticks = true ∧ (s.power.run = .running ∨ s.power.run = .halted) ∧ s.power.fail = none
    (∀ (m : BitVec 4 × Nat × Nat × Bool) (fl : Option FwImage × Option FwImage) (r : Bool), s.power.run = .coldReset →
      (r = false ∨ held → completes (.coldResetRelease r m fl [] []) s (fun t => t.power.run = .coldReset ∧ t.power.resetN = true ∧ t.power.pwrGood = true ∧
        t.host.mem = m ∧ t.life.flash = fl)) ∧
      (r = true → ¬ held →
        (∀ f g : FwImage, { s with host := { s.host with mem := m } }.bootsWith f g → completes (.coldResetRelease true m fl [] []) s (fun t => t.readyWith f g ∧ t.host.mem = m)) ∧
        (s.life.otp.faultOf = none → s.life.otp.lcs = .raw ∨ s.life.otp.lcs = .tested → completes (.coldResetRelease true m fl [] []) s (fun t =>
          t.power.run = .stopped ∧ t.power.halt = 0 ∧ t.power.ready = false)) ∧
        (s.life.otp.faultOf.isSome = true → completes (.coldResetRelease true m fl [] []) s (fun t =>
          t.power.run = .stopped ∧ t.power.halt = 2 ∧ t.life.fault = true ∧ t.power.faultN = true)))) ∧
    (s.power.run ≠ .coldReset → ∀ r m fl otp kat, exec (.coldResetRelease r m fl otp kat) s = .next s) ∧
    (∀ f g : FwImage, s.power.run = .quiescent → s.power.resetN = true → s.power.pwrGood = true → s.power.inRange = true → s.power.needsReset = false →
      s.bootsWith f g → completes (.restartAfterQuiescence [] []) s (fun t => t.readyWith f g ∧ t.power.powerFailN = true)) ∧
    (s.power.run = .running ∨ s.power.run = .stopped ∨ s.power.run = .halted → ∀ otp kat, exec (.restartAfterQuiescence otp kat) s = .next s) ∧
    (∀ (k : Nat) (tj : Int) (sup : Nat),
      ∀ e ∈ ([(Instr.resetNFall, 1), (.pwrGoodFall, 1), (.powerFailNFall, 1)] ++ (if sup ≤ 6 then [(.supplyDetectorTrip sup, 2)] else []) ++
          (if k < 16 ∧ 115 < tj then [(.thermalTrip k tj, 2)] else []) : List (Instr × Nat)),
        (frames → completes e.1 s (fun t => t.power.fail = some (s.frame.num, e.2, s.frame.cycle) ∧ t.power.run = s.power.run ∧ t.jobs = s.jobs)) ∧
        (s.ticks = true → s.power.run = .running → s.power.fail.isSome = true → completes e.1 s (fun t => t.power.fail = s.power.fail)) ∧
        (s.power.run = .stopped → completes e.1 s (fun t => t.jobs = [] ∧ t.quarry.l2 = none ∧ t.power.ready = false ∧
          (t.power.run = .quiescent ∨ t.power.run = .coldReset) ∧ (t.power.run = .coldReset ↔ t.power.resetN = false ∨ t.power.pwrGood = false)))) ∧
    completes .resetNFall s (fun t => t.power.resetN = false ∧ t.power.thermTrip = false) ∧
    completes .pwrGoodFall s (fun t => t.power.pwrGood = false) ∧ completes .powerFailNFall s (fun t => t.power.powerFailN = false) ∧
    (∀ (k : Nat) (tj : Int), (k < 16 → 115 < tj → completes (.thermalTrip k tj) s (fun t => t.power.thermTrip = true ∧ t.power.needsReset = true)) ∧
      (¬ (k < 16 ∧ 115 < tj) → exec (.thermalTrip k tj) s = .next s)) ∧
    (∀ n : Nat, 6 < n → exec (.supplyDetectorTrip n) s = .next s) ∧
    (∀ (p k c : Nat), s.power.run = .failing → s.power.fail = some (p, k, c) → completes .powerFailSequence s (fun t =>
      t.jobs = [] ∧ t.frame.ticking = false ∧ t.power.ready = false ∧ t.power.fail = none ∧ t.quarry.l0 = none ∧ t.quarry.l1 = none ∧ t.quarry.l2 = none ∧
      t.quarry.session = none ∧ t.twin.up = false ∧ (∀ b, (t.pass b).up = false) ∧ (∀ q : Fin 2, t.host.ports[q].up = false) ∧
      t.strata.stored = some (s.strata.seconds, s.frame.num) ∧ (t.power.run = .quiescent ↔ s.power.resetN = true ∧ s.power.pwrGood = true) ∧
      (s.twin.record.isSome = true → s.twin.up = true → ∃ n d, .twin n (.silent 7) d ∈ t.out))) ∧
    (s.power.run ≠ .failing → exec .powerFailSequence s = .next s) ∧
    (s.frame.ticking = true → s.power.holdover = false →
      exec .sysClkLoss s = .next { s with power := { s.power with holdover := true, holdoverAt := some s.frame.num } }) ∧
    exec .sysClkReturn s = .next { s with power := { s.power with holdover := false, holdoverAt := none } } ∧
    (∀ f : Nat, s.power.holdover = true → s.power.holdoverAt = some f →
      (s.frame.num < f + 1000 → exec .holdoverExpiry s = .next s) ∧
      (f + 1000 ≤ s.frame.num → frames → completes .holdoverExpiry s (fun t => t.power.needsReset = true ∧ t.power.fail = some (s.frame.num, 2, s.frame.cycle)))) ∧
    (∀ c : Nat, let armed := s.life.otp.lcs ≠ .scrapped ∧ (c = 6 ∨ c = 7 ∨ (c = 8 ∧ s.power.onBattery = true) ∨ (1 ≤ c ∧ c ≤ 5 ∧ s.power.run ≠ .coldReset ∧ s.power.run ≠ .quiescent) ∨
        (0x10 ≤ c ∧ c ≤ 0x17 ∧ s.life.cfg.inputEn.getLsbD (c - 0x10) = true) ∨ (0x18 ≤ c ∧ c ≤ 0x19 ∧ s.life.cfg.meshEn.getLsbD (c - 0x18) = true))
      (¬ armed → exec (.tamperTrip c) s = .next s) ∧
      (armed → completes (.tamperTrip c) s (fun t => t.life.bbram = 0 ∧ t.life.check = .invalid ∧ t.life.latch = some (c, s.life.batSeconds) ∧
        (s.power.run ≠ .coldReset → s.power.run ≠ .quiescent → t.power.run = .stopped ∧ t.power.halt = 1 ∧ t.jobs = [] ∧ t.frame.ticking = false ∧
          t.quarry.l2 = none ∧ (∀ a, a < 0x8000000000 → Memory.read t.mem a = 0) ∧
          (∀ e, s.life.otp.lcs = .owned e → t.life.otp.tamperCnt = s.life.otp.tamperCnt ||| (s.life.otp.tamperCnt + 1) ∧ t.life.burnt = true) ∧
          ((∀ e, s.life.otp.lcs ≠ .owned e) → t.life.otp = s.life.otp))))) ∧
    (s.power.run = .running → s.power.onBattery = false → s.life.vbatLow = false → completes .vbatLow s (fun t => t.life.vbatLow = true ∧
      ∃ mv, mv < 2500 ∧ ∃ u : State, t.strata = u.strata.gather (u.event 0x8012 true mv 0 0))) ∧
    (∀ b : Bool, exec (.batterySwitchover b) s = .next { s with power := { s.power with onBattery := b } }) ∧
    (s.power.run = .coldReset ∨ s.power.run = .quiescent → exec .batteryDomainPowerLoss s = .next { s with life := { s.life with bbram := 0, check := .invalid, latch := none, batSeconds := 0 } }) ∧
    (s.power.run = .running → exec .batteryDomainPowerLoss s = .next s) ∧
    (s.frame.ticking = true → 100000 ≤ s.strata.frameIdx → completes .secondsTick s (fun t => t.strata.seconds = s.strata.seconds + 1 ∧ t.strata.frameIdx = 0 ∧
      t.strata.stored = some (s.strata.seconds + 1, s.frame.num) ∧ t.life.batSeconds = s.life.batSeconds + 1 ∧
      ∀ k, k < 256 → tnat t.test.march k = min (tnat s.test.march k + 1) 0xFFFF)) ∧
    (s.frame.ticking = true → s.strata.frameIdx < 100000 → exec .secondsTick s = .next s) ∧
    (s.frame.ticking = false → exec .secondsTick s = .next { s with life := { s.life with batSeconds := s.life.batSeconds + 1 } }) ∧
    (s.power.run ≠ .coldReset → ∃ w : BitVec 32, w >>> 12 = 0x19640 ∧ w.getLsbD 0 = true ∧ completes .idcode s (fun t => t.out = s.out ++ [.tdo w] ∧ t.power.tapBypass = false)) ∧
    exec .bypass s = .next { s with power := { s.power with tapBypass := true } }

/-- Decode of encode is the instruction, for every lane instruction and every operand its encoding admits (R109, R110; Tables 03-7 to 03-16, 04-2 to 04-14A). -/
def Obligations.LaneInstructionsRoundTrip : Prop :=
  (∀ (i : Instr) (w : BitVec 32), i.wf = true → geingEncode i = some w → ∃ l, geingDecode l w = some i) ∧
  (∀ (l : LaneId) (w : BitVec 32) (i : Instr), geingDecode l w = some i →
    i.wf = true ∧ ∃ w', geingEncode i = some w' ∧ fMajor w' = fMajor w ∧ geingDecode l w' = some i) ∧
  (∀ (l m : LaneId) (w : BitVec 32), (geingDecode l w).isSome = (geingDecode m w).isSome)

/-- Every step keeps memory canonical (log 7 lays memory out). -/
def Obligations.EveryStepKeepsMemoryCanonical : Prop :=
  ∀ s t : State, s.memOk → step s = .next t → t.memOk

/-- The state after reset meets the invariant. -/
def Obligations.ResetMemoryIsCanonical : Prop :=
  State.reset.memOk ∧ (∀ a, Memory.read State.reset.mem a = 0) ∧ State.reset.pending = [] ∧ State.reset.power.run = .coldReset ∧ State.reset.frame.ticking = false

end
end

