-- ==== Sys2Proof/Laws/State.lean ====
section
/-! SUPPORT. One lemma per field per update of State and of a lane's bank: what an update writes and what it leaves. -/

namespace Sys2Proof.Machine

set_option linter.unusedVariables false

/-! ## take -/

@[simp] theorem take_mem (s : State) (w : Nat) : (s.take w).2.mem = s.mem := rfl
@[simp] theorem take_frame (s : State) (w : Nat) : (s.take w).2.frame = s.frame := rfl
@[simp] theorem take_jobs (s : State) (w : Nat) : (s.take w).2.jobs = s.jobs := rfl
@[simp] theorem take_nextJob (s : State) (w : Nat) : (s.take w).2.nextJob = s.nextJob := rfl
@[simp] theorem take_insts (s : State) (w : Nat) : (s.take w).2.insts = s.insts := rfl
@[simp] theorem take_lanes (s : State) (w : Nat) : (s.take w).2.lanes = s.lanes := rfl
@[simp] theorem take_cipher (s : State) (w : Nat) : (s.take w).2.cipher = s.cipher := rfl
@[simp] theorem take_engines (s : State) (w : Nat) : (s.take w).2.engines = s.engines := rfl
@[simp] theorem take_pke (s : State) (w : Nat) : (s.take w).2.pke = s.pke := rfl
@[simp] theorem take_quarry (s : State) (w : Nat) : (s.take w).2.quarry = s.quarry := rfl
@[simp] theorem take_mail (s : State) (w : Nat) : (s.take w).2.mail = s.mail := rfl
@[simp] theorem take_staged (s : State) (w : Nat) : (s.take w).2.staged = s.staged := rfl
@[simp] theorem take_cut (s : State) (w : Nat) : (s.take w).2.cut = s.cut := rfl
@[simp] theorem take_prot (s : State) (w : Nat) : (s.take w).2.prot = s.prot := rfl
@[simp] theorem take_twin (s : State) (w : Nat) : (s.take w).2.twin = s.twin := rfl
@[simp] theorem take_passes (s : State) (w : Nat) : (s.take w).2.passes = s.passes := rfl
@[simp] theorem take_life (s : State) (w : Nat) : (s.take w).2.life = s.life := rfl
@[simp] theorem take_strata (s : State) (w : Nat) : (s.take w).2.strata = s.strata := rfl
@[simp] theorem take_pmc (s : State) (w : Nat) : (s.take w).2.pmc = s.pmc := rfl
@[simp] theorem take_test (s : State) (w : Nat) : (s.take w).2.test = s.test := rfl
@[simp] theorem take_host (s : State) (w : Nat) : (s.take w).2.host = s.host := rfl
@[simp] theorem take_net (s : State) (w : Nat) : (s.take w).2.net = s.net := rfl
@[simp] theorem take_cust (s : State) (w : Nat) : (s.take w).2.cust = s.cust := rfl
@[simp] theorem take_power (s : State) (w : Nat) : (s.take w).2.power = s.power := rfl
@[simp] theorem take_regs (s : State) (w : Nat) : (s.take w).2.regs = s.regs := rfl
@[simp] theorem take_out (s : State) (w : Nat) : (s.take w).2.out = s.out := rfl
@[simp] theorem take_free (s : State) (w : Nat) : (s.take w).2.free = s.free + 1 := rfl
@[simp] theorem take_pending (s : State) (w : Nat) : (s.take w).2.pending = s.pending := rfl

/-! ## setLane -/

@[simp] theorem setLane_mem (s : State) (l : LaneId) (x : Lane) : (s.setLane l x).mem = s.mem := rfl
@[simp] theorem setLane_frame (s : State) (l : LaneId) (x : Lane) : (s.setLane l x).frame = s.frame := rfl
@[simp] theorem setLane_jobs (s : State) (l : LaneId) (x : Lane) : (s.setLane l x).jobs = s.jobs := rfl
@[simp] theorem setLane_nextJob (s : State) (l : LaneId) (x : Lane) : (s.setLane l x).nextJob = s.nextJob := rfl
@[simp] theorem setLane_insts (s : State) (l : LaneId) (x : Lane) : (s.setLane l x).insts = s.insts := rfl
@[simp] theorem setLane_lanes (s : State) (l : LaneId) (x : Lane) : (s.setLane l x).lanes = s.lanes.set l.val x l.isLt := rfl
@[simp] theorem setLane_cipher (s : State) (l : LaneId) (x : Lane) : (s.setLane l x).cipher = s.cipher := rfl
@[simp] theorem setLane_engines (s : State) (l : LaneId) (x : Lane) : (s.setLane l x).engines = s.engines := rfl
@[simp] theorem setLane_pke (s : State) (l : LaneId) (x : Lane) : (s.setLane l x).pke = s.pke := rfl
@[simp] theorem setLane_quarry (s : State) (l : LaneId) (x : Lane) : (s.setLane l x).quarry = s.quarry := rfl
@[simp] theorem setLane_mail (s : State) (l : LaneId) (x : Lane) : (s.setLane l x).mail = s.mail := rfl
@[simp] theorem setLane_staged (s : State) (l : LaneId) (x : Lane) : (s.setLane l x).staged = s.staged := rfl
@[simp] theorem setLane_cut (s : State) (l : LaneId) (x : Lane) : (s.setLane l x).cut = s.cut := rfl
@[simp] theorem setLane_prot (s : State) (l : LaneId) (x : Lane) : (s.setLane l x).prot = s.prot := rfl
@[simp] theorem setLane_twin (s : State) (l : LaneId) (x : Lane) : (s.setLane l x).twin = s.twin := rfl
@[simp] theorem setLane_passes (s : State) (l : LaneId) (x : Lane) : (s.setLane l x).passes = s.passes := rfl
@[simp] theorem setLane_life (s : State) (l : LaneId) (x : Lane) : (s.setLane l x).life = s.life := rfl
@[simp] theorem setLane_strata (s : State) (l : LaneId) (x : Lane) : (s.setLane l x).strata = s.strata := rfl
@[simp] theorem setLane_pmc (s : State) (l : LaneId) (x : Lane) : (s.setLane l x).pmc = s.pmc := rfl
@[simp] theorem setLane_test (s : State) (l : LaneId) (x : Lane) : (s.setLane l x).test = s.test := rfl
@[simp] theorem setLane_host (s : State) (l : LaneId) (x : Lane) : (s.setLane l x).host = s.host := rfl
@[simp] theorem setLane_net (s : State) (l : LaneId) (x : Lane) : (s.setLane l x).net = s.net := rfl
@[simp] theorem setLane_cust (s : State) (l : LaneId) (x : Lane) : (s.setLane l x).cust = s.cust := rfl
@[simp] theorem setLane_power (s : State) (l : LaneId) (x : Lane) : (s.setLane l x).power = s.power := rfl
@[simp] theorem setLane_regs (s : State) (l : LaneId) (x : Lane) : (s.setLane l x).regs = s.regs := rfl
@[simp] theorem setLane_out (s : State) (l : LaneId) (x : Lane) : (s.setLane l x).out = s.out := rfl
@[simp] theorem setLane_free (s : State) (l : LaneId) (x : Lane) : (s.setLane l x).free = s.free := rfl
@[simp] theorem setLane_pending (s : State) (l : LaneId) (x : Lane) : (s.setLane l x).pending = s.pending := rfl

/-! ## modLane -/

@[simp] theorem modLane_mem (s : State) (l : LaneId) (f : Lane → Lane) : (s.modLane l f).mem = s.mem := rfl
@[simp] theorem modLane_frame (s : State) (l : LaneId) (f : Lane → Lane) : (s.modLane l f).frame = s.frame := rfl
@[simp] theorem modLane_jobs (s : State) (l : LaneId) (f : Lane → Lane) : (s.modLane l f).jobs = s.jobs := rfl
@[simp] theorem modLane_nextJob (s : State) (l : LaneId) (f : Lane → Lane) : (s.modLane l f).nextJob = s.nextJob := rfl
@[simp] theorem modLane_insts (s : State) (l : LaneId) (f : Lane → Lane) : (s.modLane l f).insts = s.insts := rfl
@[simp] theorem modLane_lanes (s : State) (l : LaneId) (f : Lane → Lane) : (s.modLane l f).lanes = s.lanes.set l.val (f (s.lane l)) l.isLt := rfl
@[simp] theorem modLane_cipher (s : State) (l : LaneId) (f : Lane → Lane) : (s.modLane l f).cipher = s.cipher := rfl
@[simp] theorem modLane_engines (s : State) (l : LaneId) (f : Lane → Lane) : (s.modLane l f).engines = s.engines := rfl
@[simp] theorem modLane_pke (s : State) (l : LaneId) (f : Lane → Lane) : (s.modLane l f).pke = s.pke := rfl
@[simp] theorem modLane_quarry (s : State) (l : LaneId) (f : Lane → Lane) : (s.modLane l f).quarry = s.quarry := rfl
@[simp] theorem modLane_mail (s : State) (l : LaneId) (f : Lane → Lane) : (s.modLane l f).mail = s.mail := rfl
@[simp] theorem modLane_staged (s : State) (l : LaneId) (f : Lane → Lane) : (s.modLane l f).staged = s.staged := rfl
@[simp] theorem modLane_cut (s : State) (l : LaneId) (f : Lane → Lane) : (s.modLane l f).cut = s.cut := rfl
@[simp] theorem modLane_prot (s : State) (l : LaneId) (f : Lane → Lane) : (s.modLane l f).prot = s.prot := rfl
@[simp] theorem modLane_twin (s : State) (l : LaneId) (f : Lane → Lane) : (s.modLane l f).twin = s.twin := rfl
@[simp] theorem modLane_passes (s : State) (l : LaneId) (f : Lane → Lane) : (s.modLane l f).passes = s.passes := rfl
@[simp] theorem modLane_life (s : State) (l : LaneId) (f : Lane → Lane) : (s.modLane l f).life = s.life := rfl
@[simp] theorem modLane_strata (s : State) (l : LaneId) (f : Lane → Lane) : (s.modLane l f).strata = s.strata := rfl
@[simp] theorem modLane_pmc (s : State) (l : LaneId) (f : Lane → Lane) : (s.modLane l f).pmc = s.pmc := rfl
@[simp] theorem modLane_test (s : State) (l : LaneId) (f : Lane → Lane) : (s.modLane l f).test = s.test := rfl
@[simp] theorem modLane_host (s : State) (l : LaneId) (f : Lane → Lane) : (s.modLane l f).host = s.host := rfl
@[simp] theorem modLane_net (s : State) (l : LaneId) (f : Lane → Lane) : (s.modLane l f).net = s.net := rfl
@[simp] theorem modLane_cust (s : State) (l : LaneId) (f : Lane → Lane) : (s.modLane l f).cust = s.cust := rfl
@[simp] theorem modLane_power (s : State) (l : LaneId) (f : Lane → Lane) : (s.modLane l f).power = s.power := rfl
@[simp] theorem modLane_regs (s : State) (l : LaneId) (f : Lane → Lane) : (s.modLane l f).regs = s.regs := rfl
@[simp] theorem modLane_out (s : State) (l : LaneId) (f : Lane → Lane) : (s.modLane l f).out = s.out := rfl
@[simp] theorem modLane_free (s : State) (l : LaneId) (f : Lane → Lane) : (s.modLane l f).free = s.free := rfl
@[simp] theorem modLane_pending (s : State) (l : LaneId) (f : Lane → Lane) : (s.modLane l f).pending = s.pending := rfl

/-! ## setBank -/

@[simp] theorem setBank_mem (s : State) (l : LaneId) (c : Ctx) : (s.setBank l c).mem = s.mem := rfl
@[simp] theorem setBank_frame (s : State) (l : LaneId) (c : Ctx) : (s.setBank l c).frame = s.frame := rfl
@[simp] theorem setBank_jobs (s : State) (l : LaneId) (c : Ctx) : (s.setBank l c).jobs = s.jobs := rfl
@[simp] theorem setBank_nextJob (s : State) (l : LaneId) (c : Ctx) : (s.setBank l c).nextJob = s.nextJob := rfl
@[simp] theorem setBank_insts (s : State) (l : LaneId) (c : Ctx) : (s.setBank l c).insts = s.insts := rfl
@[simp] theorem setBank_lanes (s : State) (l : LaneId) (c : Ctx) : (s.setBank l c).lanes = s.lanes.set l.val { s.lane l with bank := c, stepping := false, entry := none } l.isLt := rfl
@[simp] theorem setBank_cipher (s : State) (l : LaneId) (c : Ctx) : (s.setBank l c).cipher = s.cipher := rfl
@[simp] theorem setBank_engines (s : State) (l : LaneId) (c : Ctx) : (s.setBank l c).engines = s.engines := rfl
@[simp] theorem setBank_pke (s : State) (l : LaneId) (c : Ctx) : (s.setBank l c).pke = s.pke := rfl
@[simp] theorem setBank_quarry (s : State) (l : LaneId) (c : Ctx) : (s.setBank l c).quarry = s.quarry := rfl
@[simp] theorem setBank_mail (s : State) (l : LaneId) (c : Ctx) : (s.setBank l c).mail = s.mail := rfl
@[simp] theorem setBank_staged (s : State) (l : LaneId) (c : Ctx) : (s.setBank l c).staged = s.staged := rfl
@[simp] theorem setBank_cut (s : State) (l : LaneId) (c : Ctx) : (s.setBank l c).cut = s.cut := rfl
@[simp] theorem setBank_prot (s : State) (l : LaneId) (c : Ctx) : (s.setBank l c).prot = s.prot := rfl
@[simp] theorem setBank_twin (s : State) (l : LaneId) (c : Ctx) : (s.setBank l c).twin = s.twin := rfl
@[simp] theorem setBank_passes (s : State) (l : LaneId) (c : Ctx) : (s.setBank l c).passes = s.passes := rfl
@[simp] theorem setBank_life (s : State) (l : LaneId) (c : Ctx) : (s.setBank l c).life = s.life := rfl
@[simp] theorem setBank_strata (s : State) (l : LaneId) (c : Ctx) : (s.setBank l c).strata = s.strata := rfl
@[simp] theorem setBank_pmc (s : State) (l : LaneId) (c : Ctx) : (s.setBank l c).pmc = s.pmc := rfl
@[simp] theorem setBank_test (s : State) (l : LaneId) (c : Ctx) : (s.setBank l c).test = s.test := rfl
@[simp] theorem setBank_host (s : State) (l : LaneId) (c : Ctx) : (s.setBank l c).host = s.host := rfl
@[simp] theorem setBank_net (s : State) (l : LaneId) (c : Ctx) : (s.setBank l c).net = s.net := rfl
@[simp] theorem setBank_cust (s : State) (l : LaneId) (c : Ctx) : (s.setBank l c).cust = s.cust := rfl
@[simp] theorem setBank_power (s : State) (l : LaneId) (c : Ctx) : (s.setBank l c).power = s.power := rfl
@[simp] theorem setBank_regs (s : State) (l : LaneId) (c : Ctx) : (s.setBank l c).regs = s.regs := rfl
@[simp] theorem setBank_out (s : State) (l : LaneId) (c : Ctx) : (s.setBank l c).out = s.out := rfl
@[simp] theorem setBank_free (s : State) (l : LaneId) (c : Ctx) : (s.setBank l c).free = s.free := rfl
@[simp] theorem setBank_pending (s : State) (l : LaneId) (c : Ctx) : (s.setBank l c).pending = s.pending := rfl

/-! ## modJob -/

@[simp] theorem modJob_mem (s : State) (n : Nat) (f : Job → Job) : (s.modJob n f).mem = s.mem := rfl
@[simp] theorem modJob_frame (s : State) (n : Nat) (f : Job → Job) : (s.modJob n f).frame = s.frame := rfl
@[simp] theorem modJob_jobs (s : State) (n : Nat) (f : Job → Job) : (s.modJob n f).jobs = s.jobs.map (fun j => if j.slot = n then f j else j) := rfl
@[simp] theorem modJob_nextJob (s : State) (n : Nat) (f : Job → Job) : (s.modJob n f).nextJob = s.nextJob := rfl
@[simp] theorem modJob_insts (s : State) (n : Nat) (f : Job → Job) : (s.modJob n f).insts = s.insts := rfl
@[simp] theorem modJob_lanes (s : State) (n : Nat) (f : Job → Job) : (s.modJob n f).lanes = s.lanes := rfl
@[simp] theorem modJob_cipher (s : State) (n : Nat) (f : Job → Job) : (s.modJob n f).cipher = s.cipher := rfl
@[simp] theorem modJob_engines (s : State) (n : Nat) (f : Job → Job) : (s.modJob n f).engines = s.engines := rfl
@[simp] theorem modJob_pke (s : State) (n : Nat) (f : Job → Job) : (s.modJob n f).pke = s.pke := rfl
@[simp] theorem modJob_quarry (s : State) (n : Nat) (f : Job → Job) : (s.modJob n f).quarry = s.quarry := rfl
@[simp] theorem modJob_mail (s : State) (n : Nat) (f : Job → Job) : (s.modJob n f).mail = s.mail := rfl
@[simp] theorem modJob_staged (s : State) (n : Nat) (f : Job → Job) : (s.modJob n f).staged = s.staged := rfl
@[simp] theorem modJob_cut (s : State) (n : Nat) (f : Job → Job) : (s.modJob n f).cut = s.cut := rfl
@[simp] theorem modJob_prot (s : State) (n : Nat) (f : Job → Job) : (s.modJob n f).prot = s.prot := rfl
@[simp] theorem modJob_twin (s : State) (n : Nat) (f : Job → Job) : (s.modJob n f).twin = s.twin := rfl
@[simp] theorem modJob_passes (s : State) (n : Nat) (f : Job → Job) : (s.modJob n f).passes = s.passes := rfl
@[simp] theorem modJob_life (s : State) (n : Nat) (f : Job → Job) : (s.modJob n f).life = s.life := rfl
@[simp] theorem modJob_strata (s : State) (n : Nat) (f : Job → Job) : (s.modJob n f).strata = s.strata := rfl
@[simp] theorem modJob_pmc (s : State) (n : Nat) (f : Job → Job) : (s.modJob n f).pmc = s.pmc := rfl
@[simp] theorem modJob_test (s : State) (n : Nat) (f : Job → Job) : (s.modJob n f).test = s.test := rfl
@[simp] theorem modJob_host (s : State) (n : Nat) (f : Job → Job) : (s.modJob n f).host = s.host := rfl
@[simp] theorem modJob_net (s : State) (n : Nat) (f : Job → Job) : (s.modJob n f).net = s.net := rfl
@[simp] theorem modJob_cust (s : State) (n : Nat) (f : Job → Job) : (s.modJob n f).cust = s.cust := rfl
@[simp] theorem modJob_power (s : State) (n : Nat) (f : Job → Job) : (s.modJob n f).power = s.power := rfl
@[simp] theorem modJob_regs (s : State) (n : Nat) (f : Job → Job) : (s.modJob n f).regs = s.regs := rfl
@[simp] theorem modJob_out (s : State) (n : Nat) (f : Job → Job) : (s.modJob n f).out = s.out := rfl
@[simp] theorem modJob_free (s : State) (n : Nat) (f : Job → Job) : (s.modJob n f).free = s.free := rfl
@[simp] theorem modJob_pending (s : State) (n : Nat) (f : Job → Job) : (s.modJob n f).pending = s.pending := rfl

/-! ## modInst -/

@[simp] theorem modInst_mem (s : State) (i : Nat) (f : Inst → Inst) : (s.modInst i f).mem = s.mem := rfl
@[simp] theorem modInst_frame (s : State) (i : Nat) (f : Inst → Inst) : (s.modInst i f).frame = s.frame := rfl
@[simp] theorem modInst_jobs (s : State) (i : Nat) (f : Inst → Inst) : (s.modInst i f).jobs = s.jobs := rfl
@[simp] theorem modInst_nextJob (s : State) (i : Nat) (f : Inst → Inst) : (s.modInst i f).nextJob = s.nextJob := rfl
@[simp] theorem modInst_insts (s : State) (i : Nat) (f : Inst → Inst) : (s.modInst i f).insts = tmod s.insts i f := rfl
@[simp] theorem modInst_lanes (s : State) (i : Nat) (f : Inst → Inst) : (s.modInst i f).lanes = s.lanes := rfl
@[simp] theorem modInst_cipher (s : State) (i : Nat) (f : Inst → Inst) : (s.modInst i f).cipher = s.cipher := rfl
@[simp] theorem modInst_engines (s : State) (i : Nat) (f : Inst → Inst) : (s.modInst i f).engines = s.engines := rfl
@[simp] theorem modInst_pke (s : State) (i : Nat) (f : Inst → Inst) : (s.modInst i f).pke = s.pke := rfl
@[simp] theorem modInst_quarry (s : State) (i : Nat) (f : Inst → Inst) : (s.modInst i f).quarry = s.quarry := rfl
@[simp] theorem modInst_mail (s : State) (i : Nat) (f : Inst → Inst) : (s.modInst i f).mail = s.mail := rfl
@[simp] theorem modInst_staged (s : State) (i : Nat) (f : Inst → Inst) : (s.modInst i f).staged = s.staged := rfl
@[simp] theorem modInst_cut (s : State) (i : Nat) (f : Inst → Inst) : (s.modInst i f).cut = s.cut := rfl
@[simp] theorem modInst_prot (s : State) (i : Nat) (f : Inst → Inst) : (s.modInst i f).prot = s.prot := rfl
@[simp] theorem modInst_twin (s : State) (i : Nat) (f : Inst → Inst) : (s.modInst i f).twin = s.twin := rfl
@[simp] theorem modInst_passes (s : State) (i : Nat) (f : Inst → Inst) : (s.modInst i f).passes = s.passes := rfl
@[simp] theorem modInst_life (s : State) (i : Nat) (f : Inst → Inst) : (s.modInst i f).life = s.life := rfl
@[simp] theorem modInst_strata (s : State) (i : Nat) (f : Inst → Inst) : (s.modInst i f).strata = s.strata := rfl
@[simp] theorem modInst_pmc (s : State) (i : Nat) (f : Inst → Inst) : (s.modInst i f).pmc = s.pmc := rfl
@[simp] theorem modInst_test (s : State) (i : Nat) (f : Inst → Inst) : (s.modInst i f).test = s.test := rfl
@[simp] theorem modInst_host (s : State) (i : Nat) (f : Inst → Inst) : (s.modInst i f).host = s.host := rfl
@[simp] theorem modInst_net (s : State) (i : Nat) (f : Inst → Inst) : (s.modInst i f).net = s.net := rfl
@[simp] theorem modInst_cust (s : State) (i : Nat) (f : Inst → Inst) : (s.modInst i f).cust = s.cust := rfl
@[simp] theorem modInst_power (s : State) (i : Nat) (f : Inst → Inst) : (s.modInst i f).power = s.power := rfl
@[simp] theorem modInst_regs (s : State) (i : Nat) (f : Inst → Inst) : (s.modInst i f).regs = s.regs := rfl
@[simp] theorem modInst_out (s : State) (i : Nat) (f : Inst → Inst) : (s.modInst i f).out = s.out := rfl
@[simp] theorem modInst_free (s : State) (i : Nat) (f : Inst → Inst) : (s.modInst i f).free = s.free := rfl
@[simp] theorem modInst_pending (s : State) (i : Nat) (f : Inst → Inst) : (s.modInst i f).pending = s.pending := rfl

/-! ## countInst -/

@[simp] theorem countInst_mem (s : State) (i c n : Nat) : (s.countInst i c n).mem = s.mem := rfl
@[simp] theorem countInst_frame (s : State) (i c n : Nat) : (s.countInst i c n).frame = s.frame := rfl
@[simp] theorem countInst_jobs (s : State) (i c n : Nat) : (s.countInst i c n).jobs = s.jobs := rfl
@[simp] theorem countInst_nextJob (s : State) (i c n : Nat) : (s.countInst i c n).nextJob = s.nextJob := rfl
@[simp] theorem countInst_insts (s : State) (i c n : Nat) : (s.countInst i c n).insts = s.insts := rfl
@[simp] theorem countInst_lanes (s : State) (i c n : Nat) : (s.countInst i c n).lanes = s.lanes := rfl
@[simp] theorem countInst_cipher (s : State) (i c n : Nat) : (s.countInst i c n).cipher = s.cipher := rfl
@[simp] theorem countInst_engines (s : State) (i c n : Nat) : (s.countInst i c n).engines = s.engines := rfl
@[simp] theorem countInst_pke (s : State) (i c n : Nat) : (s.countInst i c n).pke = s.pke := rfl
@[simp] theorem countInst_quarry (s : State) (i c n : Nat) : (s.countInst i c n).quarry = s.quarry := rfl
@[simp] theorem countInst_mail (s : State) (i c n : Nat) : (s.countInst i c n).mail = s.mail := rfl
@[simp] theorem countInst_staged (s : State) (i c n : Nat) : (s.countInst i c n).staged = s.staged := rfl
@[simp] theorem countInst_cut (s : State) (i c n : Nat) : (s.countInst i c n).cut = s.cut := rfl
@[simp] theorem countInst_prot (s : State) (i c n : Nat) : (s.countInst i c n).prot = s.prot := rfl
@[simp] theorem countInst_twin (s : State) (i c n : Nat) : (s.countInst i c n).twin = s.twin := rfl
@[simp] theorem countInst_passes (s : State) (i c n : Nat) : (s.countInst i c n).passes = s.passes := rfl
@[simp] theorem countInst_life (s : State) (i c n : Nat) : (s.countInst i c n).life = s.life := rfl
@[simp] theorem countInst_strata (s : State) (i c n : Nat) : (s.countInst i c n).strata = s.strata := rfl
@[simp] theorem countInst_pmc (s : State) (i c n : Nat) : (s.countInst i c n).pmc = { s.pmc with inst := ctrAdd s.pmc.inst (16 * i + c) n } := rfl
@[simp] theorem countInst_test (s : State) (i c n : Nat) : (s.countInst i c n).test = s.test := rfl
@[simp] theorem countInst_host (s : State) (i c n : Nat) : (s.countInst i c n).host = s.host := rfl
@[simp] theorem countInst_net (s : State) (i c n : Nat) : (s.countInst i c n).net = s.net := rfl
@[simp] theorem countInst_cust (s : State) (i c n : Nat) : (s.countInst i c n).cust = s.cust := rfl
@[simp] theorem countInst_power (s : State) (i c n : Nat) : (s.countInst i c n).power = s.power := rfl
@[simp] theorem countInst_regs (s : State) (i c n : Nat) : (s.countInst i c n).regs = s.regs := rfl
@[simp] theorem countInst_out (s : State) (i c n : Nat) : (s.countInst i c n).out = s.out := rfl
@[simp] theorem countInst_free (s : State) (i c n : Nat) : (s.countInst i c n).free = s.free := rfl
@[simp] theorem countInst_pending (s : State) (i c n : Nat) : (s.countInst i c n).pending = s.pending := rfl

/-! ## countGlob -/

@[simp] theorem countGlob_mem (s : State) (g n : Nat) : (s.countGlob g n).mem = s.mem := rfl
@[simp] theorem countGlob_frame (s : State) (g n : Nat) : (s.countGlob g n).frame = s.frame := rfl
@[simp] theorem countGlob_jobs (s : State) (g n : Nat) : (s.countGlob g n).jobs = s.jobs := rfl
@[simp] theorem countGlob_nextJob (s : State) (g n : Nat) : (s.countGlob g n).nextJob = s.nextJob := rfl
@[simp] theorem countGlob_insts (s : State) (g n : Nat) : (s.countGlob g n).insts = s.insts := rfl
@[simp] theorem countGlob_lanes (s : State) (g n : Nat) : (s.countGlob g n).lanes = s.lanes := rfl
@[simp] theorem countGlob_cipher (s : State) (g n : Nat) : (s.countGlob g n).cipher = s.cipher := rfl
@[simp] theorem countGlob_engines (s : State) (g n : Nat) : (s.countGlob g n).engines = s.engines := rfl
@[simp] theorem countGlob_pke (s : State) (g n : Nat) : (s.countGlob g n).pke = s.pke := rfl
@[simp] theorem countGlob_quarry (s : State) (g n : Nat) : (s.countGlob g n).quarry = s.quarry := rfl
@[simp] theorem countGlob_mail (s : State) (g n : Nat) : (s.countGlob g n).mail = s.mail := rfl
@[simp] theorem countGlob_staged (s : State) (g n : Nat) : (s.countGlob g n).staged = s.staged := rfl
@[simp] theorem countGlob_cut (s : State) (g n : Nat) : (s.countGlob g n).cut = s.cut := rfl
@[simp] theorem countGlob_prot (s : State) (g n : Nat) : (s.countGlob g n).prot = s.prot := rfl
@[simp] theorem countGlob_twin (s : State) (g n : Nat) : (s.countGlob g n).twin = s.twin := rfl
@[simp] theorem countGlob_passes (s : State) (g n : Nat) : (s.countGlob g n).passes = s.passes := rfl
@[simp] theorem countGlob_life (s : State) (g n : Nat) : (s.countGlob g n).life = s.life := rfl
@[simp] theorem countGlob_strata (s : State) (g n : Nat) : (s.countGlob g n).strata = s.strata := rfl
@[simp] theorem countGlob_pmc (s : State) (g n : Nat) : (s.countGlob g n).pmc = { s.pmc with glob := ctrAdd s.pmc.glob g n } := rfl
@[simp] theorem countGlob_test (s : State) (g n : Nat) : (s.countGlob g n).test = s.test := rfl
@[simp] theorem countGlob_host (s : State) (g n : Nat) : (s.countGlob g n).host = s.host := rfl
@[simp] theorem countGlob_net (s : State) (g n : Nat) : (s.countGlob g n).net = s.net := rfl
@[simp] theorem countGlob_cust (s : State) (g n : Nat) : (s.countGlob g n).cust = s.cust := rfl
@[simp] theorem countGlob_power (s : State) (g n : Nat) : (s.countGlob g n).power = s.power := rfl
@[simp] theorem countGlob_regs (s : State) (g n : Nat) : (s.countGlob g n).regs = s.regs := rfl
@[simp] theorem countGlob_out (s : State) (g n : Nat) : (s.countGlob g n).out = s.out := rfl
@[simp] theorem countGlob_free (s : State) (g n : Nat) : (s.countGlob g n).free = s.free := rfl
@[simp] theorem countGlob_pending (s : State) (g n : Nat) : (s.countGlob g n).pending = s.pending := rfl

/-! ## emit -/

@[simp] theorem emit_mem (s : State) (o : Output) : (s.emit o).mem = s.mem := rfl
@[simp] theorem emit_frame (s : State) (o : Output) : (s.emit o).frame = s.frame := rfl
@[simp] theorem emit_jobs (s : State) (o : Output) : (s.emit o).jobs = s.jobs := rfl
@[simp] theorem emit_nextJob (s : State) (o : Output) : (s.emit o).nextJob = s.nextJob := rfl
@[simp] theorem emit_insts (s : State) (o : Output) : (s.emit o).insts = s.insts := rfl
@[simp] theorem emit_lanes (s : State) (o : Output) : (s.emit o).lanes = s.lanes := rfl
@[simp] theorem emit_cipher (s : State) (o : Output) : (s.emit o).cipher = s.cipher := rfl
@[simp] theorem emit_engines (s : State) (o : Output) : (s.emit o).engines = s.engines := rfl
@[simp] theorem emit_pke (s : State) (o : Output) : (s.emit o).pke = s.pke := rfl
@[simp] theorem emit_quarry (s : State) (o : Output) : (s.emit o).quarry = s.quarry := rfl
@[simp] theorem emit_mail (s : State) (o : Output) : (s.emit o).mail = s.mail := rfl
@[simp] theorem emit_staged (s : State) (o : Output) : (s.emit o).staged = s.staged := rfl
@[simp] theorem emit_cut (s : State) (o : Output) : (s.emit o).cut = s.cut := rfl
@[simp] theorem emit_prot (s : State) (o : Output) : (s.emit o).prot = s.prot := rfl
@[simp] theorem emit_twin (s : State) (o : Output) : (s.emit o).twin = s.twin := rfl
@[simp] theorem emit_passes (s : State) (o : Output) : (s.emit o).passes = s.passes := rfl
@[simp] theorem emit_life (s : State) (o : Output) : (s.emit o).life = s.life := rfl
@[simp] theorem emit_strata (s : State) (o : Output) : (s.emit o).strata = s.strata := rfl
@[simp] theorem emit_pmc (s : State) (o : Output) : (s.emit o).pmc = s.pmc := rfl
@[simp] theorem emit_test (s : State) (o : Output) : (s.emit o).test = s.test := rfl
@[simp] theorem emit_host (s : State) (o : Output) : (s.emit o).host = s.host := rfl
@[simp] theorem emit_net (s : State) (o : Output) : (s.emit o).net = s.net := rfl
@[simp] theorem emit_cust (s : State) (o : Output) : (s.emit o).cust = s.cust := rfl
@[simp] theorem emit_power (s : State) (o : Output) : (s.emit o).power = s.power := rfl
@[simp] theorem emit_regs (s : State) (o : Output) : (s.emit o).regs = s.regs := rfl
@[simp] theorem emit_out (s : State) (o : Output) : (s.emit o).out = s.out ++ [o] := rfl
@[simp] theorem emit_free (s : State) (o : Output) : (s.emit o).free = s.free := rfl
@[simp] theorem emit_pending (s : State) (o : Output) : (s.emit o).pending = s.pending := rfl

/-! ## raise -/

@[simp] theorem raise_mem (s : State) (e : Nat) (h : Bool) (p1 p2 p3 : Nat) : (s.raise e h p1 p2 p3).mem = s.mem := rfl
@[simp] theorem raise_frame (s : State) (e : Nat) (h : Bool) (p1 p2 p3 : Nat) : (s.raise e h p1 p2 p3).frame = s.frame := rfl
@[simp] theorem raise_jobs (s : State) (e : Nat) (h : Bool) (p1 p2 p3 : Nat) : (s.raise e h p1 p2 p3).jobs = s.jobs := rfl
@[simp] theorem raise_nextJob (s : State) (e : Nat) (h : Bool) (p1 p2 p3 : Nat) : (s.raise e h p1 p2 p3).nextJob = s.nextJob := rfl
@[simp] theorem raise_insts (s : State) (e : Nat) (h : Bool) (p1 p2 p3 : Nat) : (s.raise e h p1 p2 p3).insts = s.insts := rfl
@[simp] theorem raise_lanes (s : State) (e : Nat) (h : Bool) (p1 p2 p3 : Nat) : (s.raise e h p1 p2 p3).lanes = s.lanes := rfl
@[simp] theorem raise_cipher (s : State) (e : Nat) (h : Bool) (p1 p2 p3 : Nat) : (s.raise e h p1 p2 p3).cipher = s.cipher := rfl
@[simp] theorem raise_engines (s : State) (e : Nat) (h : Bool) (p1 p2 p3 : Nat) : (s.raise e h p1 p2 p3).engines = s.engines := rfl
@[simp] theorem raise_pke (s : State) (e : Nat) (h : Bool) (p1 p2 p3 : Nat) : (s.raise e h p1 p2 p3).pke = s.pke := rfl
@[simp] theorem raise_quarry (s : State) (e : Nat) (h : Bool) (p1 p2 p3 : Nat) : (s.raise e h p1 p2 p3).quarry = s.quarry := rfl
@[simp] theorem raise_mail (s : State) (e : Nat) (h : Bool) (p1 p2 p3 : Nat) : (s.raise e h p1 p2 p3).mail = s.mail := rfl
@[simp] theorem raise_staged (s : State) (e : Nat) (h : Bool) (p1 p2 p3 : Nat) : (s.raise e h p1 p2 p3).staged = s.staged := rfl
@[simp] theorem raise_cut (s : State) (e : Nat) (h : Bool) (p1 p2 p3 : Nat) : (s.raise e h p1 p2 p3).cut = s.cut := rfl
@[simp] theorem raise_prot (s : State) (e : Nat) (h : Bool) (p1 p2 p3 : Nat) : (s.raise e h p1 p2 p3).prot = s.prot := rfl
@[simp] theorem raise_twin (s : State) (e : Nat) (h : Bool) (p1 p2 p3 : Nat) : (s.raise e h p1 p2 p3).twin = s.twin := rfl
@[simp] theorem raise_passes (s : State) (e : Nat) (h : Bool) (p1 p2 p3 : Nat) : (s.raise e h p1 p2 p3).passes = s.passes := rfl
@[simp] theorem raise_life (s : State) (e : Nat) (h : Bool) (p1 p2 p3 : Nat) : (s.raise e h p1 p2 p3).life = s.life := rfl
@[simp] theorem raise_strata (s : State) (e : Nat) (h : Bool) (p1 p2 p3 : Nat) : (s.raise e h p1 p2 p3).strata = s.strata.gather (s.event e h p1 p2 p3) := rfl
@[simp] theorem raise_pmc (s : State) (e : Nat) (h : Bool) (p1 p2 p3 : Nat) : (s.raise e h p1 p2 p3).pmc = s.pmc := rfl
@[simp] theorem raise_test (s : State) (e : Nat) (h : Bool) (p1 p2 p3 : Nat) : (s.raise e h p1 p2 p3).test = s.test := rfl
@[simp] theorem raise_host (s : State) (e : Nat) (h : Bool) (p1 p2 p3 : Nat) : (s.raise e h p1 p2 p3).host = s.host := rfl
@[simp] theorem raise_net (s : State) (e : Nat) (h : Bool) (p1 p2 p3 : Nat) : (s.raise e h p1 p2 p3).net = s.net := rfl
@[simp] theorem raise_cust (s : State) (e : Nat) (h : Bool) (p1 p2 p3 : Nat) : (s.raise e h p1 p2 p3).cust = s.cust := rfl
@[simp] theorem raise_power (s : State) (e : Nat) (h : Bool) (p1 p2 p3 : Nat) : (s.raise e h p1 p2 p3).power = s.power := rfl
@[simp] theorem raise_regs (s : State) (e : Nat) (h : Bool) (p1 p2 p3 : Nat) : (s.raise e h p1 p2 p3).regs = s.regs := rfl
@[simp] theorem raise_out (s : State) (e : Nat) (h : Bool) (p1 p2 p3 : Nat) : (s.raise e h p1 p2 p3).out = s.out := rfl
@[simp] theorem raise_free (s : State) (e : Nat) (h : Bool) (p1 p2 p3 : Nat) : (s.raise e h p1 p2 p3).free = s.free := rfl
@[simp] theorem raise_pending (s : State) (e : Nat) (h : Bool) (p1 p2 p3 : Nat) : (s.raise e h p1 p2 p3).pending = s.pending := rfl

/-! ## reply -/

@[simp] theorem reply_mem (s : State) (d : Dest) (m : Nat) (st : BitVec 7) (tag : BitVec 16) (body : Bytes) : (s.reply d m st tag body).mem = s.mem := rfl
@[simp] theorem reply_frame (s : State) (d : Dest) (m : Nat) (st : BitVec 7) (tag : BitVec 16) (body : Bytes) : (s.reply d m st tag body).frame = s.frame := rfl
@[simp] theorem reply_jobs (s : State) (d : Dest) (m : Nat) (st : BitVec 7) (tag : BitVec 16) (body : Bytes) : (s.reply d m st tag body).jobs = s.jobs := rfl
@[simp] theorem reply_nextJob (s : State) (d : Dest) (m : Nat) (st : BitVec 7) (tag : BitVec 16) (body : Bytes) : (s.reply d m st tag body).nextJob = s.nextJob := rfl
@[simp] theorem reply_insts (s : State) (d : Dest) (m : Nat) (st : BitVec 7) (tag : BitVec 16) (body : Bytes) : (s.reply d m st tag body).insts = s.insts := rfl
@[simp] theorem reply_lanes (s : State) (d : Dest) (m : Nat) (st : BitVec 7) (tag : BitVec 16) (body : Bytes) : (s.reply d m st tag body).lanes = s.lanes := rfl
@[simp] theorem reply_cipher (s : State) (d : Dest) (m : Nat) (st : BitVec 7) (tag : BitVec 16) (body : Bytes) : (s.reply d m st tag body).cipher = s.cipher := rfl
@[simp] theorem reply_engines (s : State) (d : Dest) (m : Nat) (st : BitVec 7) (tag : BitVec 16) (body : Bytes) : (s.reply d m st tag body).engines = s.engines := rfl
@[simp] theorem reply_pke (s : State) (d : Dest) (m : Nat) (st : BitVec 7) (tag : BitVec 16) (body : Bytes) : (s.reply d m st tag body).pke = s.pke := rfl
@[simp] theorem reply_quarry (s : State) (d : Dest) (m : Nat) (st : BitVec 7) (tag : BitVec 16) (body : Bytes) : (s.reply d m st tag body).quarry = s.quarry := rfl
@[simp] theorem reply_staged (s : State) (d : Dest) (m : Nat) (st : BitVec 7) (tag : BitVec 16) (body : Bytes) : (s.reply d m st tag body).staged = s.staged := rfl
@[simp] theorem reply_cut (s : State) (d : Dest) (m : Nat) (st : BitVec 7) (tag : BitVec 16) (body : Bytes) : (s.reply d m st tag body).cut = s.cut := rfl
@[simp] theorem reply_prot (s : State) (d : Dest) (m : Nat) (st : BitVec 7) (tag : BitVec 16) (body : Bytes) : (s.reply d m st tag body).prot = s.prot := rfl
@[simp] theorem reply_twin (s : State) (d : Dest) (m : Nat) (st : BitVec 7) (tag : BitVec 16) (body : Bytes) : (s.reply d m st tag body).twin = s.twin := rfl
@[simp] theorem reply_passes (s : State) (d : Dest) (m : Nat) (st : BitVec 7) (tag : BitVec 16) (body : Bytes) : (s.reply d m st tag body).passes = s.passes := rfl
@[simp] theorem reply_life (s : State) (d : Dest) (m : Nat) (st : BitVec 7) (tag : BitVec 16) (body : Bytes) : (s.reply d m st tag body).life = s.life := rfl
@[simp] theorem reply_strata (s : State) (d : Dest) (m : Nat) (st : BitVec 7) (tag : BitVec 16) (body : Bytes) : (s.reply d m st tag body).strata = s.strata := rfl
@[simp] theorem reply_pmc (s : State) (d : Dest) (m : Nat) (st : BitVec 7) (tag : BitVec 16) (body : Bytes) : (s.reply d m st tag body).pmc = s.pmc := rfl
@[simp] theorem reply_test (s : State) (d : Dest) (m : Nat) (st : BitVec 7) (tag : BitVec 16) (body : Bytes) : (s.reply d m st tag body).test = s.test := rfl
@[simp] theorem reply_host (s : State) (d : Dest) (m : Nat) (st : BitVec 7) (tag : BitVec 16) (body : Bytes) : (s.reply d m st tag body).host = s.host := rfl
@[simp] theorem reply_net (s : State) (d : Dest) (m : Nat) (st : BitVec 7) (tag : BitVec 16) (body : Bytes) : (s.reply d m st tag body).net = s.net := rfl
@[simp] theorem reply_cust (s : State) (d : Dest) (m : Nat) (st : BitVec 7) (tag : BitVec 16) (body : Bytes) : (s.reply d m st tag body).cust = s.cust := rfl
@[simp] theorem reply_power (s : State) (d : Dest) (m : Nat) (st : BitVec 7) (tag : BitVec 16) (body : Bytes) : (s.reply d m st tag body).power = s.power := rfl
@[simp] theorem reply_regs (s : State) (d : Dest) (m : Nat) (st : BitVec 7) (tag : BitVec 16) (body : Bytes) : (s.reply d m st tag body).regs = s.regs := rfl
@[simp] theorem reply_out (s : State) (d : Dest) (m : Nat) (st : BitVec 7) (tag : BitVec 16) (body : Bytes) : (s.reply d m st tag body).out = s.out := rfl
@[simp] theorem reply_free (s : State) (d : Dest) (m : Nat) (st : BitVec 7) (tag : BitVec 16) (body : Bytes) : (s.reply d m st tag body).free = s.free := rfl
@[simp] theorem reply_pending (s : State) (d : Dest) (m : Nat) (st : BitVec 7) (tag : BitVec 16) (body : Bytes) : (s.reply d m st tag body).pending = s.pending := rfl

/-! ## interim -/

@[simp] theorem interim_mem (s : State) (d : Dest) (m : Nat) (st : BitVec 7) (tag : BitVec 16) : (s.interim d m st tag).mem = s.mem := rfl
@[simp] theorem interim_frame (s : State) (d : Dest) (m : Nat) (st : BitVec 7) (tag : BitVec 16) : (s.interim d m st tag).frame = s.frame := rfl
@[simp] theorem interim_jobs (s : State) (d : Dest) (m : Nat) (st : BitVec 7) (tag : BitVec 16) : (s.interim d m st tag).jobs = s.jobs := rfl
@[simp] theorem interim_nextJob (s : State) (d : Dest) (m : Nat) (st : BitVec 7) (tag : BitVec 16) : (s.interim d m st tag).nextJob = s.nextJob := rfl
@[simp] theorem interim_insts (s : State) (d : Dest) (m : Nat) (st : BitVec 7) (tag : BitVec 16) : (s.interim d m st tag).insts = s.insts := rfl
@[simp] theorem interim_lanes (s : State) (d : Dest) (m : Nat) (st : BitVec 7) (tag : BitVec 16) : (s.interim d m st tag).lanes = s.lanes := rfl
@[simp] theorem interim_cipher (s : State) (d : Dest) (m : Nat) (st : BitVec 7) (tag : BitVec 16) : (s.interim d m st tag).cipher = s.cipher := rfl
@[simp] theorem interim_engines (s : State) (d : Dest) (m : Nat) (st : BitVec 7) (tag : BitVec 16) : (s.interim d m st tag).engines = s.engines := rfl
@[simp] theorem interim_pke (s : State) (d : Dest) (m : Nat) (st : BitVec 7) (tag : BitVec 16) : (s.interim d m st tag).pke = s.pke := rfl
@[simp] theorem interim_quarry (s : State) (d : Dest) (m : Nat) (st : BitVec 7) (tag : BitVec 16) : (s.interim d m st tag).quarry = s.quarry := rfl
@[simp] theorem interim_staged (s : State) (d : Dest) (m : Nat) (st : BitVec 7) (tag : BitVec 16) : (s.interim d m st tag).staged = s.staged := rfl
@[simp] theorem interim_cut (s : State) (d : Dest) (m : Nat) (st : BitVec 7) (tag : BitVec 16) : (s.interim d m st tag).cut = s.cut := rfl
@[simp] theorem interim_prot (s : State) (d : Dest) (m : Nat) (st : BitVec 7) (tag : BitVec 16) : (s.interim d m st tag).prot = s.prot := rfl
@[simp] theorem interim_twin (s : State) (d : Dest) (m : Nat) (st : BitVec 7) (tag : BitVec 16) : (s.interim d m st tag).twin = s.twin := rfl
@[simp] theorem interim_passes (s : State) (d : Dest) (m : Nat) (st : BitVec 7) (tag : BitVec 16) : (s.interim d m st tag).passes = s.passes := rfl
@[simp] theorem interim_life (s : State) (d : Dest) (m : Nat) (st : BitVec 7) (tag : BitVec 16) : (s.interim d m st tag).life = s.life := rfl
@[simp] theorem interim_strata (s : State) (d : Dest) (m : Nat) (st : BitVec 7) (tag : BitVec 16) : (s.interim d m st tag).strata = s.strata := rfl
@[simp] theorem interim_pmc (s : State) (d : Dest) (m : Nat) (st : BitVec 7) (tag : BitVec 16) : (s.interim d m st tag).pmc = s.pmc := rfl
@[simp] theorem interim_test (s : State) (d : Dest) (m : Nat) (st : BitVec 7) (tag : BitVec 16) : (s.interim d m st tag).test = s.test := rfl
@[simp] theorem interim_host (s : State) (d : Dest) (m : Nat) (st : BitVec 7) (tag : BitVec 16) : (s.interim d m st tag).host = s.host := rfl
@[simp] theorem interim_net (s : State) (d : Dest) (m : Nat) (st : BitVec 7) (tag : BitVec 16) : (s.interim d m st tag).net = s.net := rfl
@[simp] theorem interim_cust (s : State) (d : Dest) (m : Nat) (st : BitVec 7) (tag : BitVec 16) : (s.interim d m st tag).cust = s.cust := rfl
@[simp] theorem interim_power (s : State) (d : Dest) (m : Nat) (st : BitVec 7) (tag : BitVec 16) : (s.interim d m st tag).power = s.power := rfl
@[simp] theorem interim_regs (s : State) (d : Dest) (m : Nat) (st : BitVec 7) (tag : BitVec 16) : (s.interim d m st tag).regs = s.regs := rfl
@[simp] theorem interim_out (s : State) (d : Dest) (m : Nat) (st : BitVec 7) (tag : BitVec 16) : (s.interim d m st tag).out = s.out := rfl
@[simp] theorem interim_free (s : State) (d : Dest) (m : Nat) (st : BitVec 7) (tag : BitVec 16) : (s.interim d m st tag).free = s.free := rfl
@[simp] theorem interim_pending (s : State) (d : Dest) (m : Nat) (st : BitVec 7) (tag : BitVec 16) : (s.interim d m st tag).pending = s.pending := rfl

/-! ## notice -/

@[simp] theorem notice_mem (s : State) (d : Dest) (m : Nat) (body : Bytes) : (s.notice d m body).mem = s.mem := rfl
@[simp] theorem notice_frame (s : State) (d : Dest) (m : Nat) (body : Bytes) : (s.notice d m body).frame = s.frame := rfl
@[simp] theorem notice_jobs (s : State) (d : Dest) (m : Nat) (body : Bytes) : (s.notice d m body).jobs = s.jobs := rfl
@[simp] theorem notice_nextJob (s : State) (d : Dest) (m : Nat) (body : Bytes) : (s.notice d m body).nextJob = s.nextJob := rfl
@[simp] theorem notice_insts (s : State) (d : Dest) (m : Nat) (body : Bytes) : (s.notice d m body).insts = s.insts := rfl
@[simp] theorem notice_lanes (s : State) (d : Dest) (m : Nat) (body : Bytes) : (s.notice d m body).lanes = s.lanes := rfl
@[simp] theorem notice_cipher (s : State) (d : Dest) (m : Nat) (body : Bytes) : (s.notice d m body).cipher = s.cipher := rfl
@[simp] theorem notice_engines (s : State) (d : Dest) (m : Nat) (body : Bytes) : (s.notice d m body).engines = s.engines := rfl
@[simp] theorem notice_pke (s : State) (d : Dest) (m : Nat) (body : Bytes) : (s.notice d m body).pke = s.pke := rfl
@[simp] theorem notice_quarry (s : State) (d : Dest) (m : Nat) (body : Bytes) : (s.notice d m body).quarry = s.quarry := rfl
@[simp] theorem notice_staged (s : State) (d : Dest) (m : Nat) (body : Bytes) : (s.notice d m body).staged = s.staged := rfl
@[simp] theorem notice_cut (s : State) (d : Dest) (m : Nat) (body : Bytes) : (s.notice d m body).cut = s.cut := rfl
@[simp] theorem notice_prot (s : State) (d : Dest) (m : Nat) (body : Bytes) : (s.notice d m body).prot = s.prot := rfl
@[simp] theorem notice_twin (s : State) (d : Dest) (m : Nat) (body : Bytes) : (s.notice d m body).twin = s.twin := rfl
@[simp] theorem notice_passes (s : State) (d : Dest) (m : Nat) (body : Bytes) : (s.notice d m body).passes = s.passes := rfl
@[simp] theorem notice_life (s : State) (d : Dest) (m : Nat) (body : Bytes) : (s.notice d m body).life = s.life := rfl
@[simp] theorem notice_strata (s : State) (d : Dest) (m : Nat) (body : Bytes) : (s.notice d m body).strata = s.strata := rfl
@[simp] theorem notice_pmc (s : State) (d : Dest) (m : Nat) (body : Bytes) : (s.notice d m body).pmc = s.pmc := rfl
@[simp] theorem notice_test (s : State) (d : Dest) (m : Nat) (body : Bytes) : (s.notice d m body).test = s.test := rfl
@[simp] theorem notice_host (s : State) (d : Dest) (m : Nat) (body : Bytes) : (s.notice d m body).host = s.host := rfl
@[simp] theorem notice_net (s : State) (d : Dest) (m : Nat) (body : Bytes) : (s.notice d m body).net = s.net := rfl
@[simp] theorem notice_cust (s : State) (d : Dest) (m : Nat) (body : Bytes) : (s.notice d m body).cust = s.cust := rfl
@[simp] theorem notice_power (s : State) (d : Dest) (m : Nat) (body : Bytes) : (s.notice d m body).power = s.power := rfl
@[simp] theorem notice_regs (s : State) (d : Dest) (m : Nat) (body : Bytes) : (s.notice d m body).regs = s.regs := rfl
@[simp] theorem notice_out (s : State) (d : Dest) (m : Nat) (body : Bytes) : (s.notice d m body).out = s.out := rfl
@[simp] theorem notice_free (s : State) (d : Dest) (m : Nat) (body : Bytes) : (s.notice d m body).free = s.free := rfl
@[simp] theorem notice_pending (s : State) (d : Dest) (m : Nat) (body : Bytes) : (s.notice d m body).pending = s.pending := rfl

/-! ## dropContext -/

@[simp] theorem dropContext_mem (s : State) (n : Nat) : (s.dropContext n).mem = s.mem := rfl
@[simp] theorem dropContext_frame (s : State) (n : Nat) : (s.dropContext n).frame = s.frame := rfl
@[simp] theorem dropContext_jobs (s : State) (n : Nat) : (s.dropContext n).jobs = s.jobs := rfl
@[simp] theorem dropContext_nextJob (s : State) (n : Nat) : (s.dropContext n).nextJob = s.nextJob := rfl
@[simp] theorem dropContext_insts (s : State) (n : Nat) : (s.dropContext n).insts = s.insts := rfl
@[simp] theorem dropContext_lanes (s : State) (n : Nat) : (s.dropContext n).lanes = s.lanes.map (fun x => x.drop n) := rfl
@[simp] theorem dropContext_cipher (s : State) (n : Nat) : (s.dropContext n).cipher = s.cipher := rfl
@[simp] theorem dropContext_engines (s : State) (n : Nat) : (s.dropContext n).engines = s.engines := rfl
@[simp] theorem dropContext_pke (s : State) (n : Nat) : (s.dropContext n).pke = s.pke := rfl
@[simp] theorem dropContext_quarry (s : State) (n : Nat) : (s.dropContext n).quarry = s.quarry := rfl
@[simp] theorem dropContext_mail (s : State) (n : Nat) : (s.dropContext n).mail = s.mail := rfl
@[simp] theorem dropContext_staged (s : State) (n : Nat) : (s.dropContext n).staged = s.staged := rfl
@[simp] theorem dropContext_cut (s : State) (n : Nat) : (s.dropContext n).cut = s.cut := rfl
@[simp] theorem dropContext_prot (s : State) (n : Nat) : (s.dropContext n).prot = s.prot := rfl
@[simp] theorem dropContext_twin (s : State) (n : Nat) : (s.dropContext n).twin = s.twin := rfl
@[simp] theorem dropContext_passes (s : State) (n : Nat) : (s.dropContext n).passes = s.passes := rfl
@[simp] theorem dropContext_life (s : State) (n : Nat) : (s.dropContext n).life = s.life := rfl
@[simp] theorem dropContext_strata (s : State) (n : Nat) : (s.dropContext n).strata = s.strata := rfl
@[simp] theorem dropContext_pmc (s : State) (n : Nat) : (s.dropContext n).pmc = s.pmc := rfl
@[simp] theorem dropContext_test (s : State) (n : Nat) : (s.dropContext n).test = s.test := rfl
@[simp] theorem dropContext_host (s : State) (n : Nat) : (s.dropContext n).host = s.host := rfl
@[simp] theorem dropContext_net (s : State) (n : Nat) : (s.dropContext n).net = s.net := rfl
@[simp] theorem dropContext_cust (s : State) (n : Nat) : (s.dropContext n).cust = s.cust := rfl
@[simp] theorem dropContext_power (s : State) (n : Nat) : (s.dropContext n).power = s.power := rfl
@[simp] theorem dropContext_regs (s : State) (n : Nat) : (s.dropContext n).regs = s.regs := rfl
@[simp] theorem dropContext_out (s : State) (n : Nat) : (s.dropContext n).out = s.out := rfl
@[simp] theorem dropContext_free (s : State) (n : Nat) : (s.dropContext n).free = s.free := rfl
@[simp] theorem dropContext_pending (s : State) (n : Nat) : (s.dropContext n).pending = s.pending := rfl

/-! ## dropBlocks -/

@[simp] theorem dropBlocks_mem (s : State) (n : Nat) : (s.dropBlocks n).mem = s.mem := rfl
@[simp] theorem dropBlocks_frame (s : State) (n : Nat) : (s.dropBlocks n).frame = s.frame := rfl
@[simp] theorem dropBlocks_jobs (s : State) (n : Nat) : (s.dropBlocks n).jobs = s.jobs := rfl
@[simp] theorem dropBlocks_nextJob (s : State) (n : Nat) : (s.dropBlocks n).nextJob = s.nextJob := rfl
@[simp] theorem dropBlocks_insts (s : State) (n : Nat) : (s.dropBlocks n).insts = s.insts := rfl
@[simp] theorem dropBlocks_lanes (s : State) (n : Nat) : (s.dropBlocks n).lanes = s.lanes := rfl
@[simp] theorem dropBlocks_engines (s : State) (n : Nat) : (s.dropBlocks n).engines = s.engines := rfl
@[simp] theorem dropBlocks_pke (s : State) (n : Nat) : (s.dropBlocks n).pke = s.pke := rfl
@[simp] theorem dropBlocks_quarry (s : State) (n : Nat) : (s.dropBlocks n).quarry = s.quarry := rfl
@[simp] theorem dropBlocks_mail (s : State) (n : Nat) : (s.dropBlocks n).mail = s.mail := rfl
@[simp] theorem dropBlocks_staged (s : State) (n : Nat) : (s.dropBlocks n).staged = s.staged := rfl
@[simp] theorem dropBlocks_cut (s : State) (n : Nat) : (s.dropBlocks n).cut = s.cut := rfl
@[simp] theorem dropBlocks_prot (s : State) (n : Nat) : (s.dropBlocks n).prot = s.prot := rfl
@[simp] theorem dropBlocks_twin (s : State) (n : Nat) : (s.dropBlocks n).twin = s.twin := rfl
@[simp] theorem dropBlocks_passes (s : State) (n : Nat) : (s.dropBlocks n).passes = s.passes := rfl
@[simp] theorem dropBlocks_life (s : State) (n : Nat) : (s.dropBlocks n).life = s.life := rfl
@[simp] theorem dropBlocks_strata (s : State) (n : Nat) : (s.dropBlocks n).strata = s.strata := rfl
@[simp] theorem dropBlocks_pmc (s : State) (n : Nat) : (s.dropBlocks n).pmc = s.pmc := rfl
@[simp] theorem dropBlocks_test (s : State) (n : Nat) : (s.dropBlocks n).test = s.test := rfl
@[simp] theorem dropBlocks_host (s : State) (n : Nat) : (s.dropBlocks n).host = s.host := rfl
@[simp] theorem dropBlocks_net (s : State) (n : Nat) : (s.dropBlocks n).net = s.net := rfl
@[simp] theorem dropBlocks_cust (s : State) (n : Nat) : (s.dropBlocks n).cust = s.cust := rfl
@[simp] theorem dropBlocks_power (s : State) (n : Nat) : (s.dropBlocks n).power = s.power := rfl
@[simp] theorem dropBlocks_regs (s : State) (n : Nat) : (s.dropBlocks n).regs = s.regs := rfl
@[simp] theorem dropBlocks_out (s : State) (n : Nat) : (s.dropBlocks n).out = s.out := rfl
@[simp] theorem dropBlocks_free (s : State) (n : Nat) : (s.dropBlocks n).free = s.free := rfl
@[simp] theorem dropBlocks_pending (s : State) (n : Nat) : (s.dropBlocks n).pending = s.pending := rfl

/-! ## dropHash -/

@[simp] theorem dropHash_mem (s : State) (n : Nat) : (s.dropHash n).mem = s.mem := rfl
@[simp] theorem dropHash_frame (s : State) (n : Nat) : (s.dropHash n).frame = s.frame := rfl
@[simp] theorem dropHash_jobs (s : State) (n : Nat) : (s.dropHash n).jobs = s.jobs := rfl
@[simp] theorem dropHash_nextJob (s : State) (n : Nat) : (s.dropHash n).nextJob = s.nextJob := rfl
@[simp] theorem dropHash_insts (s : State) (n : Nat) : (s.dropHash n).insts = s.insts := rfl
@[simp] theorem dropHash_lanes (s : State) (n : Nat) : (s.dropHash n).lanes = s.lanes := rfl
@[simp] theorem dropHash_cipher (s : State) (n : Nat) : (s.dropHash n).cipher = s.cipher := rfl
@[simp] theorem dropHash_pke (s : State) (n : Nat) : (s.dropHash n).pke = s.pke := rfl
@[simp] theorem dropHash_quarry (s : State) (n : Nat) : (s.dropHash n).quarry = s.quarry := rfl
@[simp] theorem dropHash_mail (s : State) (n : Nat) : (s.dropHash n).mail = s.mail := rfl
@[simp] theorem dropHash_staged (s : State) (n : Nat) : (s.dropHash n).staged = s.staged := rfl
@[simp] theorem dropHash_cut (s : State) (n : Nat) : (s.dropHash n).cut = s.cut := rfl
@[simp] theorem dropHash_prot (s : State) (n : Nat) : (s.dropHash n).prot = s.prot := rfl
@[simp] theorem dropHash_twin (s : State) (n : Nat) : (s.dropHash n).twin = s.twin := rfl
@[simp] theorem dropHash_passes (s : State) (n : Nat) : (s.dropHash n).passes = s.passes := rfl
@[simp] theorem dropHash_life (s : State) (n : Nat) : (s.dropHash n).life = s.life := rfl
@[simp] theorem dropHash_strata (s : State) (n : Nat) : (s.dropHash n).strata = s.strata := rfl
@[simp] theorem dropHash_pmc (s : State) (n : Nat) : (s.dropHash n).pmc = s.pmc := rfl
@[simp] theorem dropHash_test (s : State) (n : Nat) : (s.dropHash n).test = s.test := rfl
@[simp] theorem dropHash_host (s : State) (n : Nat) : (s.dropHash n).host = s.host := rfl
@[simp] theorem dropHash_net (s : State) (n : Nat) : (s.dropHash n).net = s.net := rfl
@[simp] theorem dropHash_cust (s : State) (n : Nat) : (s.dropHash n).cust = s.cust := rfl
@[simp] theorem dropHash_power (s : State) (n : Nat) : (s.dropHash n).power = s.power := rfl
@[simp] theorem dropHash_regs (s : State) (n : Nat) : (s.dropHash n).regs = s.regs := rfl
@[simp] theorem dropHash_out (s : State) (n : Nat) : (s.dropHash n).out = s.out := rfl
@[simp] theorem dropHash_free (s : State) (n : Nat) : (s.dropHash n).free = s.free := rfl
@[simp] theorem dropHash_pending (s : State) (n : Nat) : (s.dropHash n).pending = s.pending := rfl

/-! ## Registers of a bank -/

@[simp] theorem wv_g (c : Ctx) (r : VReg) (x : Blk) : (c.wv r x).g = c.g := rfl
@[simp] theorem wv_v (c : Ctx) (r : VReg) (x : Blk) : (c.wv r x).v = c.v.set r.val x r.isLt := rfl
@[simp] theorem wv_k (c : Ctx) (r : VReg) (x : Blk) : (c.wv r x).k = c.k := rfl
@[simp] theorem wv_c (c : Ctx) (r : VReg) (x : Blk) : (c.wv r x).c = c.c := rfl
@[simp] theorem wv_pc (c : Ctx) (r : VReg) (x : Blk) : (c.wv r x).pc = c.pc := rfl
@[simp] theorem wv_level (c : Ctx) (r : VReg) (x : Blk) : (c.wv r x).level = c.level := rfl
@[simp] theorem wv_cmask (c : Ctx) (r : VReg) (x : Blk) : (c.wv r x).cmask = c.cmask := rfl
@[simp] theorem wv_pl (c : Ctx) (r : VReg) (x : Blk) : (c.wv r x).pl = c.pl := rfl
@[simp] theorem wv_ie (c : Ctx) (r : VReg) (x : Blk) : (c.wv r x).ie = c.ie := rfl
@[simp] theorem wv_bankBit (c : Ctx) (r : VReg) (x : Blk) : (c.wv r x).bankBit = c.bankBit := rfl
@[simp] theorem wv_held (c : Ctx) (r : VReg) (x : Blk) : (c.wv r x).held = c.held := rfl
@[simp] theorem wv_heldBit (c : Ctx) (r : VReg) (x : Blk) : (c.wv r x).heldBit = c.heldBit := rfl
@[simp] theorem wv_kepc (c : Ctx) (r : VReg) (x : Blk) : (c.wv r x).kepc = c.kepc := rfl
@[simp] theorem wv_fsyn (c : Ctx) (r : VReg) (x : Blk) : (c.wv r x).fsyn = c.fsyn := rfl
@[simp] theorem wv_faddr (c : Ctx) (r : VReg) (x : Blk) : (c.wv r x).faddr = c.faddr := rfl
@[simp] theorem wv_kvec (c : Ctx) (r : VReg) (x : Blk) : (c.wv r x).kvec = c.kvec := rfl
@[simp] theorem wv_ttb1 (c : Ctx) (r : VReg) (x : Blk) : (c.wv r x).ttb1 = c.ttb1 := rfl
@[simp] theorem wv_winb (c : Ctx) (r : VReg) (x : Blk) : (c.wv r x).winb = c.winb := rfl
@[simp] theorem wv_kscr (c : Ctx) (r : VReg) (x : Blk) : (c.wv r x).kscr = c.kscr := rfl
@[simp] theorem wv_winSize (c : Ctx) (r : VReg) (x : Blk) : (c.wv r x).winSize = c.winSize := rfl
@[simp] theorem wv_winAt (c : Ctx) (r : VReg) (x : Blk) : (c.wv r x).winAt = c.winAt := rfl
@[simp] theorem wv_window (c : Ctx) (r : VReg) (x : Blk) : (c.wv r x).window = c.window := rfl
@[simp] theorem wv_colours (c : Ctx) (r : VReg) (x : Blk) : (c.wv r x).colours = c.colours := rfl
@[simp] theorem wv_refusedKey (c : Ctx) (r : VReg) (x : Blk) : (c.wv r x).refusedKey = c.refusedKey := rfl
@[simp] theorem wv_unfenced (c : Ctx) (r : VReg) (x : Blk) : (c.wv r x).unfenced = c.unfenced := rfl
@[simp] theorem wv_xlt (c : Ctx) (r : VReg) (x : Blk) : (c.wv r x).xlt = c.xlt := rfl

@[simp] theorem wk_g (c : Ctx) (r : KReg) (x : Option Handle) : (c.wk r x).g = c.g := rfl
@[simp] theorem wk_v (c : Ctx) (r : KReg) (x : Option Handle) : (c.wk r x).v = c.v := rfl
@[simp] theorem wk_k (c : Ctx) (r : KReg) (x : Option Handle) : (c.wk r x).k = c.k.set r.val x r.isLt := rfl
@[simp] theorem wk_c (c : Ctx) (r : KReg) (x : Option Handle) : (c.wk r x).c = c.c := rfl
@[simp] theorem wk_pc (c : Ctx) (r : KReg) (x : Option Handle) : (c.wk r x).pc = c.pc := rfl
@[simp] theorem wk_level (c : Ctx) (r : KReg) (x : Option Handle) : (c.wk r x).level = c.level := rfl
@[simp] theorem wk_cmask (c : Ctx) (r : KReg) (x : Option Handle) : (c.wk r x).cmask = c.cmask := rfl
@[simp] theorem wk_pl (c : Ctx) (r : KReg) (x : Option Handle) : (c.wk r x).pl = c.pl := rfl
@[simp] theorem wk_ie (c : Ctx) (r : KReg) (x : Option Handle) : (c.wk r x).ie = c.ie := rfl
@[simp] theorem wk_bankBit (c : Ctx) (r : KReg) (x : Option Handle) : (c.wk r x).bankBit = c.bankBit := rfl
@[simp] theorem wk_held (c : Ctx) (r : KReg) (x : Option Handle) : (c.wk r x).held = c.held := rfl
@[simp] theorem wk_heldBit (c : Ctx) (r : KReg) (x : Option Handle) : (c.wk r x).heldBit = c.heldBit := rfl
@[simp] theorem wk_kepc (c : Ctx) (r : KReg) (x : Option Handle) : (c.wk r x).kepc = c.kepc := rfl
@[simp] theorem wk_fsyn (c : Ctx) (r : KReg) (x : Option Handle) : (c.wk r x).fsyn = c.fsyn := rfl
@[simp] theorem wk_faddr (c : Ctx) (r : KReg) (x : Option Handle) : (c.wk r x).faddr = c.faddr := rfl
@[simp] theorem wk_kvec (c : Ctx) (r : KReg) (x : Option Handle) : (c.wk r x).kvec = c.kvec := rfl
@[simp] theorem wk_ttb1 (c : Ctx) (r : KReg) (x : Option Handle) : (c.wk r x).ttb1 = c.ttb1 := rfl
@[simp] theorem wk_winb (c : Ctx) (r : KReg) (x : Option Handle) : (c.wk r x).winb = c.winb := rfl
@[simp] theorem wk_kscr (c : Ctx) (r : KReg) (x : Option Handle) : (c.wk r x).kscr = c.kscr := rfl
@[simp] theorem wk_winSize (c : Ctx) (r : KReg) (x : Option Handle) : (c.wk r x).winSize = c.winSize := rfl
@[simp] theorem wk_winAt (c : Ctx) (r : KReg) (x : Option Handle) : (c.wk r x).winAt = c.winAt := rfl
@[simp] theorem wk_window (c : Ctx) (r : KReg) (x : Option Handle) : (c.wk r x).window = c.window := rfl
@[simp] theorem wk_colours (c : Ctx) (r : KReg) (x : Option Handle) : (c.wk r x).colours = c.colours := rfl
@[simp] theorem wk_refusedKey (c : Ctx) (r : KReg) (x : Option Handle) : (c.wk r x).refusedKey = c.refusedKey := rfl
@[simp] theorem wk_unfenced (c : Ctx) (r : KReg) (x : Option Handle) : (c.wk r x).unfenced = c.unfenced := rfl
@[simp] theorem wk_xlt (c : Ctx) (r : KReg) (x : Option Handle) : (c.wk r x).xlt = c.xlt := rfl

@[simp] theorem wc_g (c : Ctx) (r : CReg) (x : Counter) : (c.wc r x).g = c.g := rfl
@[simp] theorem wc_v (c : Ctx) (r : CReg) (x : Counter) : (c.wc r x).v = c.v := rfl
@[simp] theorem wc_k (c : Ctx) (r : CReg) (x : Counter) : (c.wc r x).k = c.k := rfl
@[simp] theorem wc_c (c : Ctx) (r : CReg) (x : Counter) : (c.wc r x).c = c.c.set r.val x r.isLt := rfl
@[simp] theorem wc_pc (c : Ctx) (r : CReg) (x : Counter) : (c.wc r x).pc = c.pc := rfl
@[simp] theorem wc_level (c : Ctx) (r : CReg) (x : Counter) : (c.wc r x).level = c.level := rfl
@[simp] theorem wc_cmask (c : Ctx) (r : CReg) (x : Counter) : (c.wc r x).cmask = c.cmask := rfl
@[simp] theorem wc_pl (c : Ctx) (r : CReg) (x : Counter) : (c.wc r x).pl = c.pl := rfl
@[simp] theorem wc_ie (c : Ctx) (r : CReg) (x : Counter) : (c.wc r x).ie = c.ie := rfl
@[simp] theorem wc_bankBit (c : Ctx) (r : CReg) (x : Counter) : (c.wc r x).bankBit = c.bankBit := rfl
@[simp] theorem wc_held (c : Ctx) (r : CReg) (x : Counter) : (c.wc r x).held = c.held := rfl
@[simp] theorem wc_heldBit (c : Ctx) (r : CReg) (x : Counter) : (c.wc r x).heldBit = c.heldBit := rfl
@[simp] theorem wc_kepc (c : Ctx) (r : CReg) (x : Counter) : (c.wc r x).kepc = c.kepc := rfl
@[simp] theorem wc_fsyn (c : Ctx) (r : CReg) (x : Counter) : (c.wc r x).fsyn = c.fsyn := rfl
@[simp] theorem wc_faddr (c : Ctx) (r : CReg) (x : Counter) : (c.wc r x).faddr = c.faddr := rfl
@[simp] theorem wc_kvec (c : Ctx) (r : CReg) (x : Counter) : (c.wc r x).kvec = c.kvec := rfl
@[simp] theorem wc_ttb1 (c : Ctx) (r : CReg) (x : Counter) : (c.wc r x).ttb1 = c.ttb1 := rfl
@[simp] theorem wc_winb (c : Ctx) (r : CReg) (x : Counter) : (c.wc r x).winb = c.winb := rfl
@[simp] theorem wc_kscr (c : Ctx) (r : CReg) (x : Counter) : (c.wc r x).kscr = c.kscr := rfl
@[simp] theorem wc_winSize (c : Ctx) (r : CReg) (x : Counter) : (c.wc r x).winSize = c.winSize := rfl
@[simp] theorem wc_winAt (c : Ctx) (r : CReg) (x : Counter) : (c.wc r x).winAt = c.winAt := rfl
@[simp] theorem wc_window (c : Ctx) (r : CReg) (x : Counter) : (c.wc r x).window = c.window := rfl
@[simp] theorem wc_colours (c : Ctx) (r : CReg) (x : Counter) : (c.wc r x).colours = c.colours := rfl
@[simp] theorem wc_refusedKey (c : Ctx) (r : CReg) (x : Counter) : (c.wc r x).refusedKey = c.refusedKey := rfl
@[simp] theorem wc_unfenced (c : Ctx) (r : CReg) (x : Counter) : (c.wc r x).unfenced = c.unfenced := rfl
@[simp] theorem wc_xlt (c : Ctx) (r : CReg) (x : Counter) : (c.wc r x).xlt = c.xlt := rfl

@[simp] theorem wg_v (c : Ctx) (r : GReg) (x : Word) : (c.wg r x).v = c.v := by unfold Ctx.wg; split <;> rfl
@[simp] theorem wg_k (c : Ctx) (r : GReg) (x : Word) : (c.wg r x).k = c.k := by unfold Ctx.wg; split <;> rfl
@[simp] theorem wg_c (c : Ctx) (r : GReg) (x : Word) : (c.wg r x).c = c.c := by unfold Ctx.wg; split <;> rfl
@[simp] theorem wg_pc (c : Ctx) (r : GReg) (x : Word) : (c.wg r x).pc = c.pc := by unfold Ctx.wg; split <;> rfl
@[simp] theorem wg_level (c : Ctx) (r : GReg) (x : Word) : (c.wg r x).level = c.level := by unfold Ctx.wg; split <;> rfl
@[simp] theorem wg_cmask (c : Ctx) (r : GReg) (x : Word) : (c.wg r x).cmask = c.cmask := by unfold Ctx.wg; split <;> rfl
@[simp] theorem wg_pl (c : Ctx) (r : GReg) (x : Word) : (c.wg r x).pl = c.pl := by unfold Ctx.wg; split <;> rfl
@[simp] theorem wg_ie (c : Ctx) (r : GReg) (x : Word) : (c.wg r x).ie = c.ie := by unfold Ctx.wg; split <;> rfl
@[simp] theorem wg_bankBit (c : Ctx) (r : GReg) (x : Word) : (c.wg r x).bankBit = c.bankBit := by unfold Ctx.wg; split <;> rfl
@[simp] theorem wg_held (c : Ctx) (r : GReg) (x : Word) : (c.wg r x).held = c.held := by unfold Ctx.wg; split <;> rfl
@[simp] theorem wg_heldBit (c : Ctx) (r : GReg) (x : Word) : (c.wg r x).heldBit = c.heldBit := by unfold Ctx.wg; split <;> rfl
@[simp] theorem wg_kepc (c : Ctx) (r : GReg) (x : Word) : (c.wg r x).kepc = c.kepc := by unfold Ctx.wg; split <;> rfl
@[simp] theorem wg_fsyn (c : Ctx) (r : GReg) (x : Word) : (c.wg r x).fsyn = c.fsyn := by unfold Ctx.wg; split <;> rfl
@[simp] theorem wg_faddr (c : Ctx) (r : GReg) (x : Word) : (c.wg r x).faddr = c.faddr := by unfold Ctx.wg; split <;> rfl
@[simp] theorem wg_kvec (c : Ctx) (r : GReg) (x : Word) : (c.wg r x).kvec = c.kvec := by unfold Ctx.wg; split <;> rfl
@[simp] theorem wg_ttb1 (c : Ctx) (r : GReg) (x : Word) : (c.wg r x).ttb1 = c.ttb1 := by unfold Ctx.wg; split <;> rfl
@[simp] theorem wg_winb (c : Ctx) (r : GReg) (x : Word) : (c.wg r x).winb = c.winb := by unfold Ctx.wg; split <;> rfl
@[simp] theorem wg_kscr (c : Ctx) (r : GReg) (x : Word) : (c.wg r x).kscr = c.kscr := by unfold Ctx.wg; split <;> rfl
@[simp] theorem wg_winSize (c : Ctx) (r : GReg) (x : Word) : (c.wg r x).winSize = c.winSize := by unfold Ctx.wg; split <;> rfl
@[simp] theorem wg_winAt (c : Ctx) (r : GReg) (x : Word) : (c.wg r x).winAt = c.winAt := by unfold Ctx.wg; split <;> rfl
@[simp] theorem wg_window (c : Ctx) (r : GReg) (x : Word) : (c.wg r x).window = c.window := by unfold Ctx.wg; split <;> rfl
@[simp] theorem wg_colours (c : Ctx) (r : GReg) (x : Word) : (c.wg r x).colours = c.colours := by unfold Ctx.wg; split <;> rfl
@[simp] theorem wg_refusedKey (c : Ctx) (r : GReg) (x : Word) : (c.wg r x).refusedKey = c.refusedKey := by unfold Ctx.wg; split <;> rfl
@[simp] theorem wg_unfenced (c : Ctx) (r : GReg) (x : Word) : (c.wg r x).unfenced = c.unfenced := by unfold Ctx.wg; split <;> rfl
@[simp] theorem wg_xlt (c : Ctx) (r : GReg) (x : Word) : (c.wg r x).xlt = c.xlt := by unfold Ctx.wg; split <;> rfl

/-- Register 0 reads 0 in every bank (R88). -/
@[simp] theorem rg_zero (c : Ctx) : c.rg 0 = 0 := rfl

/-- A write to register 0 is discarded (R88). -/
@[simp] theorem wg_zero (c : Ctx) (x : Word) : c.wg 0 x = c := rfl

/-- A read of a general register after a write of one (R88). -/
theorem rg_wg (c : Ctx) (d r : GReg) (x : Word) : (c.wg d x).rg r = if r = 0 then 0 else if r = d then x else c.rg r := by
  unfold Ctx.rg Ctx.wg
  by_cases hr : r = 0
  · simp [hr]
  · by_cases hd : d = 0
    · have : r ≠ d := fun h => hr (h.trans hd)
      simp [hr, hd]
    · by_cases h : r = d
      · subst h; simp [hr]
      · have : (d : Nat) ≠ r := fun e => h (Fin.ext e.symm)
        simp [hr, hd, h, Vector.getElem_set_ne, this]

/-- A read of a block register after a write of one (R89). -/
theorem rv_wv (c : Ctx) (d r : VReg) (x : Blk) : (c.wv d x).rv r = if r = d then x else c.rv r := by
  unfold Ctx.rv Ctx.wv
  by_cases h : r = d
  · subst h; simp
  · have : (d : Nat) ≠ r := fun e => h (Fin.ext e.symm)
    simp [h, Vector.getElem_set_ne, this]

/-- A read of a key register after a write of one (R90). -/
theorem rk_wk (c : Ctx) (d r : KReg) (x : Option Handle) : (c.wk d x).rk r = if r = d then x else c.rk r := by
  unfold Ctx.rk Ctx.wk
  by_cases h : r = d
  · subst h; simp
  · have : (d : Nat) ≠ r := fun e => h (Fin.ext e.symm)
    simp [h, Vector.getElem_set_ne, this]

/-- A read of a counter register after a write of one (R91). -/
theorem rc_wc (c : Ctx) (d r : CReg) (x : Counter) : (c.wc d x).rc r = if r = d then x else c.rc r := by
  unfold Ctx.rc Ctx.wc
  by_cases h : r = d
  · subst h; simp
  · have : (d : Nat) ≠ r := fun e => h (Fin.ext e.symm)
    simp [h, Vector.getElem_set_ne, this]

end Sys2Proof.Machine
end

