-- ==== Sys2Proof/Laws/Lanes.lean ====
section
/-! SUPPORT. What one instruction on a lane can do: counting touches counters and samples only, retiring writes the lane's bank, the shape of laneStep. -/

namespace Sys2Proof.Machine

/-- Counts and samples only: everything but the lane counters, the sample ring, the outputs and the free values is as before. -/
def countsOnly (s t : State) : Prop :=
  t = { s with pmc := t.pmc, out := t.out, free := t.free } ∧ t.pmc.inst = s.pmc.inst ∧ t.pmc.glob = s.pmc.glob

theorem countsOnly.refl (s : State) : countsOnly s s := ⟨rfl, rfl, rfl⟩

theorem countsOnly.trans {s t u : State} (h : countsOnly s t) (k : countsOnly t u) : countsOnly s u := by
  obtain ⟨h1, h2, h3⟩ := h
  obtain ⟨k1, k2, k3⟩ := k
  refine ⟨?_, k2.trans h2, k3.trans h3⟩
  rw [h1] at k1
  exact k1

theorem countsOnly.lane {s t : State} (h : countsOnly s t) (l : LaneId) : t.lane l = s.lane l := by
  rw [h.1]; rfl

theorem sample_counts (s : State) (l : LaneId) (pc : Word) (v : Nat) : countsOnly s (s.sample l pc v) := by
  unfold State.sample State.take
  split <;> exact ⟨rfl, rfl, rfl⟩

theorem countLaneAt_counts (s : State) (l : LaneId) (sel n : Nat) (pc : Word) (k : Nat) :
    countsOnly s (s.countLaneAt l sel n pc k) := by
  unfold State.countLaneAt
  split
  · dsimp only
    split
    · exact countsOnly.trans ⟨rfl, rfl, rfl⟩ (sample_counts _ _ _ _)
    · exact ⟨rfl, rfl, rfl⟩
  · exact countsOnly.refl s

theorem foldl_counts {α : Type} (f : State → α → State) (h : ∀ s a, countsOnly s (f s a)) (xs : List α) (s : State) :
    countsOnly s (xs.foldl f s) := by
  induction xs generalizing s with
  | nil => exact countsOnly.refl s
  | cons a xs ih => exact (h s a).trans (ih _)

/-- Counting a lane event changes counters and samples only. -/
theorem countLane_counts (s : State) (l : LaneId) (sel n : Nat) (pc : Word) : countsOnly s (s.countLane l sel n pc) := by
  unfold State.countLane
  split
  · exact countsOnly.refl s
  · exact foldl_counts _ (fun s k => countLaneAt_counts s l sel n pc k) _ s

theorem Lane.sameSlice.trans {x y z : Lane} (h : y.sameSlice z) (k : x.sameSlice y) : x.sameSlice z := by
  unfold Lane.sameSlice at *
  rw [h] at k
  exact k

theorem onlyLane.trans {s t u : State} {l : LaneId} (h : onlyLane s t l) (k : onlyLane t u l) : onlyLane s u l := by
  obtain ⟨h1, h2, h3, h4, h5⟩ := h
  obtain ⟨k1, k2, k3, k4, k5⟩ := k
  refine ⟨?_, k2.trans h2, k3.trans h3, fun m hm => (k4 m hm).trans (h4 m hm), ?_⟩
  · rw [h1] at k1; exact k1
  · exact h5.trans k5

theorem onlyLane.of_counts {s t : State} (h : countsOnly s t) (l : LaneId) : onlyLane s t l := by
  have hl := h.lane
  refine ⟨?_, h.2.1, h.2.2, fun m _ => hl m, ?_⟩
  · have : t.lanes = s.lanes := by rw [h.1]
    rw [this]; exact h.1
  · rw [hl l]; exact rfl

theorem lane_setLane (s : State) (l : LaneId) (x : Lane) : (s.setLane l x).lane l = x := by
  simp [State.lane, State.setLane]

theorem lane_setLane_ne (s : State) (l m : LaneId) (x : Lane) (h : m ≠ l) : (s.setLane l x).lane m = s.lane m := by
  have : (l : Nat) ≠ m := fun e => h (Fin.ext e.symm)
  simp [State.lane, State.setLane, Vector.getElem_set_ne, this]

theorem setBank_only (s : State) (l : LaneId) (c : Ctx) : onlyLane s (s.setBank l c) l := by
  refine ⟨rfl, rfl, rfl, fun m hm => lane_setLane_ne s l m _ hm, ?_⟩
  simp only [State.setBank, State.modLane, lane_setLane]
  exact rfl

/-- Retiring writes the lane's bank; the rest of the machine keeps everything but counts and samples. -/
theorem retire_only (s : State) (l : LaneId) (eng : Bool) (pc : Word) (c : Ctx) :
    (s.retire l eng pc c).lane l = { s.lane l with bank := c, stepping := false, entry := none } ∧
      onlyLane s (s.retire l eng pc c) l := by
  have hb : (s.setBank l c).lane l = { s.lane l with bank := c, stepping := false, entry := none } := by
    simp [State.setBank, State.modLane, lane_setLane]
  have h1 : countsOnly (s.setBank l c) ((s.setBank l c).countLane l 0x02 1 pc) := countLane_counts _ _ _ _ _
  have key : ∀ t, countsOnly (s.setBank l c) t →
      t.lane l = { s.lane l with bank := c, stepping := false, entry := none } ∧ onlyLane s t l := by
    intro t ht
    rw [ht.lane l]
    exact ⟨hb, (setBank_only s l c).trans (onlyLane.of_counts ht l)⟩
  unfold State.retire
  dsimp only
  split
  · exact key _ (h1.trans (countLane_counts _ _ _ _ _))
  · exact key _ h1

/-- An instruction over the whole state where the lane issues. -/
theorem laneStep_issues {s : State} {l : LaneId} {j : Job} {c : Ctx} (h : s.issues l j c) (eng : Bool) (uses : List VReg)
    (hu : s.clearOf j uses) (body : State → Job → Ctx → State × LaneRes) :
    laneStep l eng uses body s = (body s j c).1.conclude s l eng c (body s j c).2 := by
  obtain ⟨h1, h2, h3⟩ := h
  have hany : uses.any (s.pendingV j.slot) = false := by
    rw [List.any_eq_false]
    intro r hr
    simp [hu r hr]
  simp [laneStep, h1, h2, h3, hany]

/-- An instruction over the bank alone retires with the bank it gives. -/
theorem retires_bank {i : Instr} {s : State} {l : LaneId} {j : Job} {c c' : Ctx} {eng : Bool} {uses : List VReg} {f : Ctx → LaneRes}
    (h : s.issues l j c) (hu : s.clearOf j uses) (he : exec i s = .next (bankStep l eng uses f s)) (hf : f c = .ok c') :
    retires i s l { c' with pc := c.pc + 4 } := by
  refine ⟨_, he, ?_⟩
  have : bankStep l eng uses f s = s.retire l eng c.pc { c' with pc := c.pc + 4 } := by
    rw [bankStep, laneStep_issues h eng uses hu]
    simp [State.conclude, hf]
  rw [this]
  exact retire_only s l eng c.pc _

/-- An instruction that writes one general register with a value. -/
theorem retires_g {i : Instr} {s : State} {l : LaneId} {j : Job} {c : Ctx} {d : GReg} {v : Word} {f : Ctx → Word}
    (h : s.issues l j c) (he : exec i s = .next (gStep l d f s)) (hv : f c = v) : retires i s l (c.wg d v).next := by
  have := retires_bank (c' := c.wg d (f c)) h (by intro r hr; cases hr) he rfl
  rw [hv] at this
  simpa [Ctx.next, wg_pc] using this

end Sys2Proof.Machine
end

