-- ==== Sys2Proof/Laws/Memory.lean ====
section
/-! SUPPORT. Laws of canonical byte memories: a read after a write, and that every memory operation keeps the form. -/

namespace Sys2Proof.Machine

theorem wfFrom_mono {m : List Host.Cell} {lo lo' : Nat} (h : lo' ≤ lo) (w : Memory.wfFrom lo m = true) :
    Memory.wfFrom lo' m = true := by
  cases m with
  | nil => rfl
  | cons e m =>
    simp only [Memory.wfFrom, Bool.and_eq_true, decide_eq_true_eq] at w ⊢
    exact ⟨⟨by omega, w.1.2⟩, w.2⟩

/-- Listing fewer cells keeps the form. -/
theorem wfFrom_filter (p : Host.Cell → Bool) {m : List Host.Cell} {lo : Nat} (w : Memory.wfFrom lo m = true) :
    Memory.wfFrom lo (m.filter p) = true := by
  induction m generalizing lo with
  | nil => rfl
  | cons e m ih =>
    simp only [Memory.wfFrom, Bool.and_eq_true, decide_eq_true_eq] at w
    rw [List.filter_cons]
    split
    · simp only [Memory.wfFrom, Bool.and_eq_true, decide_eq_true_eq]
      exact ⟨w.1, ih w.2⟩
    · exact wfFrom_mono (by omega) (ih w.2)

theorem wf_filter (p : Host.Cell → Bool) {m : List Host.Cell} (w : Memory.wf m = true) : Memory.wf (m.filter p) = true :=
  wfFrom_filter p w

theorem wfFrom_put {a : Nat} {b : Byte} (hb : b ≠ 0) {m : List Host.Cell} {lo : Nat} (hlo : lo ≤ a)
    (hm : ∀ e ∈ m, e.1 ≠ a) (w : Memory.wfFrom lo m = true) : Memory.wfFrom lo (Memory.put m a b) = true := by
  induction m generalizing lo with
  | nil => simp [Memory.put, Memory.wfFrom, hlo]; exact hb
  | cons e m ih =>
    simp only [Memory.wfFrom, Bool.and_eq_true, decide_eq_true_eq] at w
    have he : e.1 ≠ a := hm e (by simp)
    simp only [Memory.put]
    split
    · rename_i h
      simp only [Memory.wfFrom, Bool.and_eq_true, decide_eq_true_eq]
      exact ⟨⟨hlo, hb⟩, ⟨by omega, w.1.2⟩, w.2⟩
    · rename_i h
      simp only [Memory.wfFrom, Bool.and_eq_true, decide_eq_true_eq]
      exact ⟨w.1, ih (by omega) (fun x hx => hm x (by simp [hx])) w.2⟩

/-- A write keeps the canonical form. -/
theorem wf_write (a : Nat) (b : Byte) {m : List Host.Cell} (w : Memory.wf m = true) : Memory.wf (Memory.write m a b) = true := by
  unfold Memory.write
  split
  · exact wf_filter _ w
  · rename_i hb
    exact wfFrom_put hb (Nat.zero_le _) (fun e he => by simpa using (List.mem_filter.mp he).2) (wf_filter _ w)

/-- A write of a byte string keeps the canonical form. -/
theorem wf_writeBytes (bs : Bytes) {m : List Host.Cell} (a : Nat) (w : Memory.wf m = true) :
    Memory.wf (Memory.writeBytes m a bs) = true := by
  induction bs generalizing m a with
  | nil => exact w
  | cons b bs ih => exact ih (a + 1) (wf_write a b w)

theorem read_filter_ne (m : List Host.Cell) (a x : Nat) :
    Memory.read (m.filter (fun e => e.1 != a)) x = if x = a then 0 else Memory.read m x := by
  induction m with
  | nil => simp [Memory.read]
  | cons e m ih =>
    obtain ⟨k, c⟩ := e
    rw [List.filter_cons]
    by_cases hk : k = a
    · simp only [hk, bne_self_eq_false, Bool.false_eq_true, ↓reduceIte, ih, Memory.read]
      by_cases hx : x = a
      · simp [hx]
      · simp [hx, show ¬ a = x from fun h => hx h.symm]
    · simp only [bne_iff_ne, ne_eq, hk, not_false_eq_true, ↓reduceIte, Memory.read, ih]
      by_cases hx : x = a
      · subst hx; simp [hk]
      · simp [hx]

theorem read_put (m : List Host.Cell) (a : Nat) (b : Byte) (x : Nat) (hm : ∀ e ∈ m, e.1 ≠ a) :
    Memory.read (Memory.put m a b) x = if x = a then b else Memory.read m x := by
  induction m with
  | nil => simp [Memory.put, Memory.read, eq_comm]
  | cons e m ih =>
    obtain ⟨k, c⟩ := e
    have hk : k ≠ a := hm (k, c) (by simp)
    simp only [Memory.put]
    split
    · simp [Memory.read, eq_comm]
    · simp only [Memory.read, ih (fun e he => hm e (by simp [he]))]
      by_cases hx : x = a
      · subst hx; simp [hk]
      · simp [hx]

/-- A read after a write: the byte written at its address, every other byte as before. -/
theorem read_write (m : List Host.Cell) (a : Nat) (b : Byte) (x : Nat) :
    Memory.read (Memory.write m a b) x = if x = a then b else Memory.read m x := by
  unfold Memory.write
  split
  · rename_i hb; rw [read_filter_ne]; simp [hb]
  · rw [read_put _ _ _ _ (fun e he => by simpa using (List.mem_filter.mp he).2), read_filter_ne]
    split <;> simp_all

/-- A read after a write of a byte string. -/
theorem read_writeBytes (bs : Bytes) (m : List Host.Cell) (a x : Nat) :
    Memory.read (Memory.writeBytes m a bs) x = if a ≤ x ∧ x < a + bs.length then bs.getD (x - a) 0 else Memory.read m x := by
  induction bs generalizing m a with
  | nil => simp [Memory.writeBytes] <;> omega
  | cons b bs ih =>
    simp only [Memory.writeBytes, ih, read_write, List.length_cons]
    by_cases h1 : a + 1 ≤ x ∧ x < a + 1 + bs.length
    · rw [if_pos h1, if_pos (by omega)]
      obtain ⟨n, hn⟩ : ∃ n, x = a + 1 + n := ⟨x - (a + 1), by omega⟩
      subst hn
      rw [show a + 1 + n - (a + 1) = n from by omega, show a + 1 + n - a = n + 1 from by omega]
      simp
    · rw [if_neg h1]
      by_cases hx : x = a
      · subst hx; simp
      · rw [if_neg hx, if_neg (by omega)]

/-- Storing bytes is what storedAt says. -/
theorem storedAt_writeBytes (m : List Host.Cell) (a : Nat) (bs : Bytes) : storedAt m (Memory.writeBytes m a bs) a bs :=
  fun x => read_writeBytes bs m a x

theorem readBytes_congr {m m' : List Host.Cell} (n a : Nat) (h : ∀ x, a ≤ x → x < a + n → Memory.read m x = Memory.read m' x) :
    Memory.readBytes m a n = Memory.readBytes m' a n := by
  induction n generalizing a with
  | zero => rfl
  | succ n ih =>
    simp only [Memory.readBytes]
    rw [h a (by omega) (by omega), ih (a + 1) (fun x h1 h2 => h x (by omega) (by omega))]

/-- The bytes just written read back. -/
theorem readBytes_writeBytes (bs : Bytes) (m : List Host.Cell) (a : Nat) :
    Memory.readBytes (Memory.writeBytes m a bs) a bs.length = bs := by
  induction bs generalizing m a with
  | nil => rfl
  | cons b bs ih =>
    simp only [Memory.writeBytes, List.length_cons, Memory.readBytes, ih]
    rw [read_writeBytes, if_neg (by omega), read_write, if_pos rfl]

/-- A store elsewhere leaves a range as it was. -/
theorem readBytes_writeBytes_apart (bs : Bytes) (m : List Host.Cell) (a b n : Nat) (h : b + n ≤ a ∨ a + bs.length ≤ b) :
    Memory.readBytes (Memory.writeBytes m a bs) b n = Memory.readBytes m b n :=
  readBytes_congr n b (fun x h1 h2 => by rw [read_writeBytes, if_neg (by omega)])

theorem read_below {m : List Host.Cell} {lo x : Nat} (w : Memory.wfFrom lo m = true) (h : x < lo) : Memory.read m x = 0 := by
  induction m generalizing lo with
  | nil => rfl
  | cons e m ih =>
    simp only [Memory.wfFrom, Bool.and_eq_true, decide_eq_true_eq] at w
    simp only [Memory.read]
    rw [if_neg (by omega), ih w.2 (by omega)]

/-- Canonical memories that read alike are equal data. -/
theorem wf_ext {m m' : List Host.Cell} {lo : Nat} (w : Memory.wfFrom lo m = true) (w' : Memory.wfFrom lo m' = true)
    (h : ∀ x, Memory.read m x = Memory.read m' x) : m = m' := by
  induction m generalizing m' lo with
  | nil =>
    cases m' with
    | nil => rfl
    | cons e m' =>
      simp only [Memory.wfFrom, Bool.and_eq_true, decide_eq_true_eq] at w'
      have := h e.1
      simp [Memory.read] at this
      exact absurd this.symm w'.1.2
  | cons e m ih =>
    cases m' with
    | nil =>
      simp only [Memory.wfFrom, Bool.and_eq_true, decide_eq_true_eq] at w
      have := h e.1
      simp [Memory.read] at this
      exact absurd this w.1.2
    | cons e' m' =>
      obtain ⟨k, b⟩ := e
      obtain ⟨k', b'⟩ := e'
      simp only [Memory.wfFrom, Bool.and_eq_true, decide_eq_true_eq] at w w'
      have hk : k = k' := by
        rcases Nat.lt_trichotomy k k' with g | g | g
        · have := h k
          simp only [Memory.read, ↓reduceIte] at this
          rw [if_neg (by omega), read_below w'.2 (by omega)] at this
          exact absurd this w.1.2
        · exact g
        · have := h k'
          simp only [Memory.read, ↓reduceIte] at this
          rw [if_neg (by omega), read_below w.2 (by omega)] at this
          exact absurd this.symm w'.1.2
      subst hk
      have hb := h k
      simp only [Memory.read, ↓reduceIte] at hb
      subst hb
      rw [ih w.2 w'.2 (fun x => ?_)]
      by_cases hx : x ≤ k
      · rw [read_below w.2 (by omega), read_below w'.2 (by omega)]
      · have := h x
        simp only [Memory.read] at this
        rwa [if_neg (by omega), if_neg (by omega)] at this

/-- Storing at a place keeps the machine's memory canonical. -/
theorem writeLoc_memOk {s : State} (h : s.memOk) (c : Ctx) (l : Loc) (bs : Bytes) : (s.writeLoc c l bs).1.memOk := by
  unfold State.writeLoc
  split
  · exact h
  · exact wf_writeBytes bs _ h

end Sys2Proof.Machine
end

