-- ==== Sys2Proof/Laws/Access.lean ====
section
/-! SUPPORT. What a lane access gives: granted in the window, granted through a TLB hit, and what each refusal leaves of memory. -/

namespace Sys2Proof.Machine

/-- A window access that passes every check is at its offset and changes nothing (R97, R98, R103, R104, R141). -/
theorem laneAccess_window {s : State} {l : LaneId} {j : Job} {c : Ctx} {k : AccKind} {tag check : Bool} {p : Word} {n : Nat}
    (hp : ptrOk p = true) (ha : tag = true ∨ p.toNat % n = 0) (hk : c.level = .u → ptrK p = false) (hw : inWin (ptrVa p) = true)
    (hs : ptrVa p - winBase + n ≤ c.winSize) (hb : j.busyAt (ptrVa p - winBase) n = false)
    (hc : check = true → c.colourAt (ptrVa p - winBase) = ptrColour p) :
    s.laneAccess l j c k tag check p n = (s, .at_ (.window (ptrVa p - winBase))) := by
  have h1 : (!tag && decide (p.toNat % n ≠ 0)) = false := by
    rcases ha with h | h
    · simp [h]
    · simp [h]
  have h2 : (decide (c.level = .u) && ptrK p) = false := by
    by_cases h : c.level = .u
    · simp [hk h]
    · simp [h]
  have h3 : ¬ c.winSize < ptrVa p - winBase + n := by omega
  have h4 : (check && (c.colourAt (ptrVa p - winBase) != ptrColour p)) = false := by
    cases hq : check with
    | false => rfl
    | true => simp [hc hq]
  simp only [State.laneAccess, State.windowAccess, hp, h1, h2, hw, h3, hb, h4]
  simp

/-- A granted access outside the window through a TLB entry is at the place of the physical address; a load takes its line into the data cache, and nothing else changes (R99 to R103, Table 03-1). -/
theorem laneAccess_hit {s : State} {l : LaneId} {j : Job} {c : Ctx} {k : AccKind} {p : Word} {n : Nat} {e : TlbEntry}
    (hp : ptrOk p = true) (ha : p.toNat % n = 0) (hk : c.level = .k) (hw : inWin (ptrVa p) = false)
    (he : (s.lane l).hit (asidOf c.ttb1) (ptrVa p) = some e) (h1 : hasPerm e.perms1 k = true) (h2 : hasPerm e.perms2 k = true)
    (hc : s.checkPart (laneAcc l (s.lane l) j c k (some (ptrColour p))) (within e.out e.big (ptrVa p)) = none) :
    s.laneAccess l j c k false true p n =
      (if k = .read then s.cacheLine l (within e.out e.big (ptrVa p)) c.pc else s, .at_ ((s.lane l).placeOf l (within e.out e.big (ptrVa p)))) := by
  simp [State.laneAccess, State.translated, State.translate, hp, ha, hk, hw, he, h1, h2, hc]

/-- A refused access leaves memory as it was (R348). -/
theorem violate_mem (s : State) (v : Violation) (o : Option (Nat × Nat)) : (s.violate v o).mem = s.mem := by
  unfold State.violate
  dsimp only
  repeat' split
  all_goals rfl

/-- Counting leaves memory as it was. -/
theorem countLane_mem (s : State) (l : LaneId) (sel n : Nat) (pc : Word) : (s.countLane l sel n pc).mem = s.mem := by
  rw [(countLane_counts s l sel n pc).1]

/-- A translation leaves memory as it was (R99, R102). -/
theorem translate_mem (s : State) (l : LaneId) (c : Ctx) (va : Nat) : (s.translate l c va).1.mem = s.mem := by
  unfold State.translate
  dsimp only
  split
  · rfl
  · split
    · split <;> simp [countLane_mem]
    · simp [countLane_mem]

theorem windowRefuse_mem (s : State) (l : LaneId) (j : Job) (c : Ctx) (k : AccKind) (tag : Bool) (p : Word) (off n : Nat)
    (o : Option (BitVec 4 × BitVec 4)) : (s.windowRefuse l j c k tag p off n o).1.mem = s.mem := by
  simp [State.windowRefuse, violate_mem]

theorem outsideRefuse_mem (s : State) (l : LaneId) (j : Job) (c : Ctx) (k : AccKind) (tag : Bool) (p : Word) (n : Nat) :
    (s.outsideRefuse l j c k tag p n).1.mem = s.mem := by
  simp [State.outsideRefuse, violate_mem]

theorem stage2Refuse_mem (s : State) (l : LaneId) (j : Job) (c : Ctx) (k : AccKind) (tag : Bool) (p : Word) (ia n : Nat) :
    (s.stage2Refuse l j c k tag p ia n).1.mem = s.mem := by
  simp [State.stage2Refuse, violate_mem]

/-- The data cache takes a line: memory stays as it was. -/
theorem cacheLine_mem (s : State) (l : LaneId) (pa : Nat) (pc : Word) : (s.cacheLine l pa pc).mem = s.mem := by
  unfold State.cacheLine
  dsimp only
  split
  · rfl
  · rw [countLane_mem]; rfl

theorem windowAccess_mem (s : State) (l : LaneId) (j : Job) (c : Ctx) (k : AccKind) (tag check : Bool) (p : Word) (n : Nat) :
    (s.windowAccess l j c k tag check p n).1.mem = s.mem := by
  simp only [State.windowAccess]
  generalize ptrVa p - winBase = off
  repeat' split
  all_goals first | exact windowRefuse_mem .. | rfl

theorem translated_mem (s : State) (l : LaneId) (j : Job) (c : Ctx) (k : AccKind) (tag check : Bool) (p : Word) (n : Nat) :
    (s.translated l j c k tag check p n).1.mem = s.mem := by
  rw [← translate_mem s l c (ptrVa p)]
  unfold State.translated
  generalize s.translate l c (ptrVa p) = r
  obtain ⟨t, w⟩ := r
  dsimp only
  repeat' split
  all_goals first | exact stage2Refuse_mem .. | exact violate_mem .. | exact cacheLine_mem .. | rfl

/-- An access by itself never changes memory: only the store that follows it does. -/
theorem laneAccess_mem (s : State) (l : LaneId) (j : Job) (c : Ctx) (k : AccKind) (tag check : Bool) (p : Word) (n : Nat) :
    (s.laneAccess l j c k tag check p n).1.mem = s.mem := by
  unfold State.laneAccess
  repeat' split
  all_goals first | exact windowAccess_mem .. | exact outsideRefuse_mem .. | exact translated_mem .. | rfl

end Sys2Proof.Machine
end

