-- ==== Sys2Proof/Laws/Ops.lean ====
section
/-! SUPPORT. What the shared operations leave of memory, and what ending a job does to the job. -/

namespace Sys2Proof.Machine

/-- Ending a job leaves memory as it was (R77). -/
theorem endJob_mem (s : State) (n : Nat) (st : BitVec 7) (d : BitVec 16) : (s.endJob n st d).mem = s.mem := rfl

/-- Ending a job leaves the instances, the staged changes and the frame as they were (R77). -/
theorem endJob_frame (s : State) (n : Nat) (st : BitVec 7) (d : BitVec 16) :
    (s.endJob n st d).insts = s.insts ∧ (s.endJob n st d).staged = s.staged ∧ (s.endJob n st d).frame = s.frame ∧
      (s.endJob n st d).mail = s.mail ∧ (s.endJob n st d).out = s.out := ⟨rfl, rfl, rfl, rfl, rfl⟩

theorem job_modJob {s : State} {n : Nat} {f : Job → Job} (hf : ∀ j, (f j).slot = j.slot) :
    (s.modJob n f).job n = (s.job n).map f := by
  unfold State.job State.modJob
  dsimp only
  induction s.jobs with
  | nil => rfl
  | cons j js ih =>
    simp only [List.map_cons, List.find?_cons]
    by_cases h : j.slot = n
    · simp [h, hf]
    · simp only [h, ↓reduceIte]
      have : (j.slot == n) = false := by simp [h]
      simp only [this]
      exact ih

/-- The job ended holds its status and DETAIL and has finished (R77). -/
theorem endJob_job {s : State} {n : Nat} {j : Job} (h : s.job n = some j) (st : BitVec 7) (d : BitVec 16) :
    (s.endJob n st d).job n = some (j.close st d) := by
  have : (s.endJob n st d).job n = (s.modJob n (fun j => j.close st d)).job n := rfl
  rw [this, job_modJob (fun j => ?_), h]
  · rfl
  · unfold Job.close Job.stopPke
    repeat' split
    all_goals rfl

theorem squash_mem (s : State) (n : Nat) (st : BitVec 7) (d : BitVec 16) (b : Bool) : (s.squash n st d b).mem = s.mem := by
  unfold State.squash
  repeat' split
  all_goals rfl

/-- Squashing jobs leaves memory as it was (R81). -/
theorem squashAll_mem (s : State) (p : Job → Bool) (st : BitVec 7) (d : Job → BitVec 16) (b : Bool) :
    (s.squashAll p st d b).mem = s.mem := by
  unfold State.squashAll
  generalize s.jobs = js
  induction js generalizing s with
  | nil => rfl
  | cons j js ih =>
    simp only [List.foldl_cons]
    rw [ih]
    split
    · exact squash_mem ..
    · rfl

theorem modElem_mem (s : State) (e : Nat) (f : Elem → Elem) : (s.modElem e f).mem = s.mem := by
  unfold State.modElem
  split <;> rfl

/-- Fencing an element leaves memory as it was (R49, R469). -/
theorem fence_mem (s : State) (e cause : Nat) : (s.fence e cause).mem = s.mem := modElem_mem ..

theorem setInstState_mem (s : State) (i : Nat) (st : InstState) (sh : Bool) : (s.setInstState i st sh).mem = s.mem := by
  unfold State.setInstState
  dsimp only
  split <;> rfl

/-- A trap, a double fault and a retirement leave memory as it was (R124, R127). -/
theorem takeTrap_mem (s : State) (l : LaneId) (c : Ctx) (t : Trap) (epc : Word) : (s.takeTrap l c t epc).mem = s.mem := by
  unfold State.takeTrap
  split
  · unfold State.doubleFault
    dsimp only
    rw [raise_mem, fence_mem]
    simp only [modLane_mem]
    split <;> rfl
  · rename_i h
    simp only [countLane_mem, modLane_mem, State.enterTrap, h]
    rfl

theorem retire_mem (s : State) (l : LaneId) (eng : Bool) (pc : Word) (c : Ctx) : (s.retire l eng pc c).mem = s.mem := by
  unfold State.retire
  dsimp only
  split <;> simp [countLane_mem]

end Sys2Proof.Machine
end

