-- ==== Sys2Proof/Tests/Slice0.lean ====
section
/-! SUPPORT. Small tests: what each well-formedness check refuses, words of the spec's encodings, and a state that meets the hypotheses of every statement. -/

namespace Sys2Proof.Tests

open Sys2Proof.Machine

/-! ## Well-formedness refuses an ill-formed term of each kind -/

def rq (n : Nat) : Req := { src := .fn n, tag := 0, rsv := false }

theorem test_wf_instance : (Instr.resetComplete 1024).wf = false ∧ (Instr.resetComplete 1023).wf = true := by decide
theorem test_wf_node : (Instr.reservationCommit 0 (2 ^ 34)).wf = false ∧ (Instr.reservationCommit 0 (2 ^ 34 - 1)).wf = true := by decide
theorem test_wf_version : (Instr.derivationDone false 0 0 (2 ^ 32)).wf = false ∧ (Instr.derivationDone false 0 0 0).wf = true := by decide
theorem test_wf_slot : (Instr.pkeAbortComplete 16384).wf = false ∧ (Instr.pkeAbortComplete 16383).wf = true := by decide
theorem test_wf_cycle : (Instr.blockDispatch 12000).wf = false ∧ (Instr.blockDispatch 11999).wf = true := by decide
theorem test_wf_master : (Instr.fenceLate 128).wf = false ∧ (Instr.fenceLate 108).wf = true := by decide
theorem test_wf_domain : (Instr.domainGated 256).wf = false ∧ (Instr.domainGated 21).wf = true := by decide
theorem test_wf_bits8 : (Instr.tamperTrip 256).wf = false ∧ (Instr.tamperTrip 255).wf = true := by decide
theorem test_wf_bits16 : (Instr.componentExpiry true 65536).wf = false ∧ (Instr.componentExpiry true 65535).wf = true := by decide
theorem test_wf_bits32 : (Instr.mbxTimeout (2 ^ 32)).wf = false ∧ (Instr.mbxTimeout (2 ^ 32 - 1)).wf = true := by decide
theorem test_wf_bits64 : (Instr.jrnlDurable (rq 0) (2 ^ 64) 0).wf = false ∧ (Instr.jrnlDurable (rq 0) (2 ^ 64 - 1) 0).wf = true := by decide
theorem test_wf_source : (Instr.challenge (rq 1024)).wf = false ∧ (Instr.challenge (rq 1023)).wf = true := by decide
theorem test_wf_body : (Instr.ping (rq 0) (List.replicate 49 0)).wf = false ∧ (Instr.ping (rq 0) (List.replicate 48 0)).wf = true := by decide
theorem test_wf_function : (Instr.registerWrite (some 1024) 0 4 0).wf = false ∧ (Instr.registerWrite none 0 4 0).wf = true := by decide
theorem test_wf_supply : (Instr.supplyDetectorTrip 7).wf = false ∧ (Instr.supplyDetectorTrip 6).wf = true := by decide
theorem test_wf_page : (Instr.tagSet (.service 64) (2 ^ 28) []).wf = false := by decide
theorem test_wf_physical : (Instr.s2Set (.service 64) (2 ^ 40) 0).wf = false := by decide
theorem test_wf_crw_end : (Instr.crw 0 0x10E 1).wf = false ∧ (Instr.crw 0 0x10C 1).wf = true := by decide
theorem test_wf_kcall_end : (Instr.kcall 0 0).wf = false ∧ (Instr.kcall 0 1).wf = true := by decide
theorem test_wf_tlbfl : (Instr.tlbfl 0 1 3).wf = false ∧ (Instr.tlbfl 0 1 2).wf = true := by decide

/-! ## Words of the spec's encodings -/

/-- ADD g3, g4, g5: major 0x01, FUNC 0x000 (Table 03-9). -/
theorem test_word_add : geingDecode 5 0b00000100011001000010100000000000 = some (.add 5 3 4 5) := by rfl

/-- SEL g5, g0, g6: the word 0x04A03010 of the spec's example. -/
theorem test_word_sel : geingDecode 5 0b00000100101000000011000000010000 = some (.sel 5 5 0 6) := by rfl

/-- ADDI g6, g0, 0x33: the word 0x08C00033 of the spec's example. -/
theorem test_word_addi : geingDecode 5 0b00001000110000000000000000110011 = some (.addi 5 6 0 0x33) := by rfl

/-- SRAI g1, g2, 63: major 0x08, [15:14] 2 (R116). -/
theorem test_word_srai : geingDecode 5 0b00100000001000101000000000111111 = some (.srai 5 1 2 63) := by rfl

/-- QINS g1, 0xBEEF, quarter 3: major 0x0A, the quarter in field A. -/
theorem test_word_qins : geingDecode 5 0b00101000001000111011111011101111 = some (.qins 5 1 0xBEEF 3) := by rfl

/-- LV v4, 0x40(g3): the word 0x70830040 of the spec's example. -/
theorem test_word_lv : geingDecode 5 0b01110000100000110000000001000000 = some (.lv 5 4 3 0x40) := by rfl

/-- SD g31, -8(g30): major 0x1B. -/
theorem test_word_sd : geingDecode 5 0b01101111111111101111111111111000 = some (.sd 5 31 30 0xFFF8) := by rfl

/-- ATM.CMPX g1, g2, (g3): major 0x1E, FUNC 5. -/
theorem test_word_cmpx : geingDecode 5 0b01111000001000110001000000000101 = some (.atmCmpx 5 1 2 3) := by rfl

/-- TAGW g2, (g3): major 0x1F, FUNC 1, D zero. -/
theorem test_word_tagw : geingDecode 5 0b01111100000000110001000000000001 = some (.tagw 5 2 3) := by rfl

/-- JHS g1, g2, -1: major 0x25. -/
theorem test_word_jhs : geingDecode 5 0b10010100001000101111111111111111 = some (.jhs 5 1 2 0xFFFF) := by rfl

/-- CALL g1, -1: major 0x26, OFF21. -/
theorem test_word_call : geingDecode 5 0b10011000001111111111111111111111 = some (.call 5 1 0x1FFFFF) := by rfl

/-- VEQ g5, v3, v4: the word 0xA0A3200A of the spec's example. -/
theorem test_word_veq : geingDecode 5 0b10100000101000110010000000001010 = some (.veq 5 5 3 4) := by rfl

/-- VINS with the high half: FUNC 0x048. -/
theorem test_word_vins_high : geingDecode 5 0b10100000010001110000000001001000 = some (.vins 5 2 7 true) := by rfl

/-- KINF g4, k7: major 0x29, FUNC 2. -/
theorem test_word_kinf : geingDecode 5 0b10100100100001110000000000000010 = some (.kinf 5 4 7) := by rfl

/-- BLK.ENC v15, v14, k3: major 0x31, FUNC 0. -/
theorem test_word_enc : geingDecode 5 0b11000101111011100001100000000000 = some (.blkEnc 5 15 14 3) := by rfl

/-- GFMAC v1, v2, v3: major 0x32, FUNC 0x11. -/
theorem test_word_gfmac : geingDecode 5 0b11001000001000100001100000010001 = some (.gfmac 5 1 2 3) := by rfl

/-- CTR.LIM c3, g2, g1: major 0x33, FUNC 1. -/
theorem test_word_ctrlim : geingDecode 5 0b11001100011000100000100000000001 = some (.ctrLim 5 3 2 1) := by rfl

/-- SO.PUSH v7 to port 1: major 0x34, FUNC 8, the port in field D. -/
theorem test_word_sopush : geingDecode 5 0b11010000001001110000000000001000 = some (.soPush 5 7 1) := by rfl

/-- HSH.WAIT g9: major 0x35, FUNC 5. -/
theorem test_word_hshwait : geingDecode 5 0b11010100000010010000000000000101 = some (.hshWait 5 9) := by rfl

/-- PKE.CALL g1, g2: major 0x36, FUNC 0. -/
theorem test_word_pkecall : geingDecode 5 0b11011000001000100000000000000000 = some (.pkeCall 5 1 2) := by rfl

/-- DCVD v6, g2: major 0x37, FUNC 0x21. -/
theorem test_word_dcvd : geingDecode 5 0b11011100110000100000000000100001 = some (.dcvd 5 6 2) := by rfl

/-- XLT.SEL 7, g4: major 0x38, FUNC 2. -/
theorem test_word_xltsel : geingDecode 5 0b11100000111001000000000000000010 = some (.xltSel 5 7 4) := by rfl

/-- M97.STEP g1, v2, g3: major 0x39, FUNC 8. -/
theorem test_word_m97 : geingDecode 5 0b11100100001000100001100000001000 = some (.m97Step 5 1 2 3) := by rfl

/-- KCALL 0 is END: the word 0xC0000000 (R130). -/
theorem test_word_end : geingDecode 5 0b11000000000000000000000000000000 = some (.endJob 5) := by rfl

/-- CRW 0x10E is JEND (R92). -/
theorem test_word_jend : geingDecode 5 0b10110100000000010000000100001110 = some (.jend 5 1) := by rfl

/-- An unassigned major is no instruction (R110). -/
theorem test_word_undefined_major : geingDecode 5 0b11111100000000000000000000000000 = none := by rfl

/-- A block register field with bit 4 set is no instruction (R109). -/
theorem test_word_undefined_vreg : geingDecode 5 0b10100010000000000000000000000000 = none := by rfl

/-- Bits [13:6] of a shift amount must be zero (R116). -/
theorem test_word_undefined_shift : geingDecode 5 0b00100000001000100000000001000000 = none := by rfl

/-- An unlisted FUNC is no instruction (R109). -/
theorem test_word_undefined_func : geingDecode 5 0b00000100001000100001111111111111 = none := by rfl

/-! ## A small machine: the unit runs, frames tick, lane 0 runs job 0 at U level -/

def desc0 : Descriptor :=
  { program := 0x0101, flags := 0, seq := 0, key0 := 0, key1 := 0, src := 0, dst := 0, length := 0, padMode := 0, priority := 0,
    deadline := 0, rsv33 := 0, stepBudget := 0, rsv37 := 0, arg := 0 }

def header0 : Header :=
  { magic := 0, program := 0, version := 0, hollow := false, personality := 0, windowKib := 16, block := 0, entry := 0, imageLen := 0,
    constLen := 0, lenMin := 0, lenMax := 0, padModes := 0, outFree := false, decrypt := false, cs3 := false, res := false,
    argFix := 0, argVar := 0, argMax := 0, resOff := 0, resLen := 0, resources := 0, key0Spec := 0, key1Spec := 0, argRsv := 0, rsv := false }

def job0 : Job :=
  { slot := 0, order := 0, inst := 0, q := some 0, ring := 0, desc := desc0, admittedAt := 0, header := header0, rom := false,
    st := .running, started := true }

/-- A bank at U level at the first word of the image, its whole window given. -/
def bankU : Ctx := { pc := 0x400000, winSize := 0x4000 }

/-- A bank at K level with IE set. -/
def bankK : Ctx := { pc := 0x4000000000, level := .k, ie := true, kvec := 0x1000 }

/-- Lane 0 runs job j with bank c. -/
def runs (j : Job) (c : Ctx) : State :=
  { State.reset with
    power := { State.reset.power with run := .running, ready := true, resetN := true, pwrGood := true }
    frame := { State.reset.frame with ticking := true }
    lanes := State.reset.lanes.set 0 { hollow := j.header.hollow, run := some j.slot, slotNow := 2, slotLast := 2, bank := c }
    jobs := [j] }

def onU : State := runs job0 bankU
def onK : State := runs job0 bankK

theorem active_runs (j : Job) (c : Ctx) (h : j.st = .running) (k : j.started = true) : (runs j c).active 0 = some (j, c) := by
  have h1 : (runs j c).running = true := rfl
  have h2 : (runs j c).fenced 90 = false := rfl
  have h3 : (runs j c).lane 0 = { hollow := j.header.hollow, run := some j.slot, slotNow := 2, slotLast := 2, bank := c } := rfl
  have h4 : (runs j c).job j.slot = some j := by simp [State.job, runs]
  simp [State.active, h1, h2, h3, h4, h, k]

theorem issues_runs (j : Job) (c : Ctx) (h : j.st = .running) (k : j.started = true) (f : (runs j c).fetchMeets 0 j c = none) : (runs j c).issues 0 j c :=
  ⟨active_runs j c h k, f, rfl⟩

/-- A lane issues at U level. -/
theorem witness_issues : onU.issues 0 job0 bankU := issues_runs _ _ rfl rfl rfl

/-- A lane issues at K level. -/
theorem witness_issues_kernel : onK.issues 0 job0 bankK := issues_runs _ _ rfl rfl rfl

/-- RegisterArithmeticWritesItsResult, ImmediatesWriteTheirResult, RegisterZeroIsConstant, the counts and the branches: any lane that issues meets the hypotheses. -/
theorem witness_register_forms : ∃ (s : State) (l : LaneId) (j : Job) (c : Ctx), s.issues l j c := ⟨_, _, _, _, witness_issues⟩

/-- The machine's ADD on a small state: g3 becomes g1 + g2. -/
theorem test_add_runs : ((match exec (.add 0 3 1 2) (runs job0 ((bankU.wg 1 5).wg 2 7)) with | .next t => ((t.lane 0).bank.rg 3, (t.lane 0).bank.pc) | _ => (0, 0))) = ((12 : Word), (0x400004 : Word)) := by rfl

/-- CountsReversalAndCarrylessProducts, second clause: nothing named is pending. -/
theorem witness_products : onU.issues 0 job0 bankU ∧ onU.clearOf job0 [1, 2, 3] := ⟨witness_issues, fun _ _ => rfl⟩

/-- UserAccessesAreCheckedInsideAndOutsideTheWindow: the clauses for a window access, each at a boundary. -/
theorem witness_window_access : bankU.level = .u ∧ ptrOk 0x0060000000010000 = false ∧ (ptrOk 0x10001 = true ∧ (0x10001 : Word).toNat % 2 ≠ 0) := by decide

/-- An access that ends beyond WINB, one in a range of an outstanding request, one of another colour, one that is granted at the last byte. -/
theorem witness_window_clauses :
    ({ bankU with winSize := 0x1000 } : Ctx).winSize < (ptrVa 0x11000 - 0x10000) + 1 ∧
    ({ job0 with pke := some { op := 0, blockOff := 0, chain := false, key := none, ins := [], outs := [], order := 0, phase := .running } } : Job).busyAt 0 1 = true ∧
    (bankU.colourAt 0x3FFF ≠ ptrColour 0x0200000000013FFF) ∧
    (0x3FFF + 1 ≤ bankU.winSize ∧ job0.busyAt 0x3FFF 1 = false ∧ bankU.colourAt 0x3FFF = ptrColour 0x0100000000013FFF) := by decide

/-- The bank with g1 a pointer of colour 1 to window offset 0x40. -/
def bankP : Ctx := bankU.wg 1 0x0100000000010040
def onP : State := runs job0 bankP

theorem issues_P : onP.issues 0 job0 bankP := issues_runs _ _ rfl rfl rfl

theorem window_P (k : AccKind) (tag check : Bool) (n : Nat) (h : n ∈ [1, 2, 4, 8, 16, 64]) :
    onP.laneAccess 0 job0 bankP k tag check 0x0100000000010040 n = (onP, .at_ (.window 0x40)) := by
  have hb : ∀ m ∈ [1, 2, 4, 8, 16, 64], (0x0100000000010040 : Word).toNat % m = 0 ∧ ptrVa 0x0100000000010040 - winBase + m ≤ bankP.winSize ∧
      job0.busyAt (ptrVa 0x0100000000010040 - winBase) m = false := by decide
  exact laneAccess_window (by decide) (.inr (hb n h).1) (fun _ => by decide) (by decide) (hb n h).2.1 (hb n h).2.2 (fun _ => by decide)

/-- LoadsReadAndStoresWriteExactlyTheirBytes and AtomicsAndTagAccesses: accesses of every width granted in the window, v3 not pending. -/
theorem witness_granted_window : onP.issues 0 job0 bankP ∧ onP.clearOf job0 [3] ∧
    (∀ n ∈ [1, 2, 4, 8, 16], onP.laneAccess 0 job0 bankP .read false true (bankP.rg 1 + (0 : BitVec 16).signExtend 64) n = (onP, .at_ (.window 0x40)) ∧
      onP.laneAccess 0 job0 bankP .write false true (bankP.rg 1 + (0 : BitVec 16).signExtend 64) n = (onP, .at_ (.window 0x40))) ∧
    onP.laneAccess 0 job0 bankP .atomic false true (bankP.rg 1) 8 = (onP, .at_ (.window 0x40)) ∧
    onP.laneAccess 0 job0 bankP .read true false (bankP.rg 1 - BitVec.ofNat 64 ((bankP.rg 1).toNat % 64)) 64 = (onP, .at_ (.window 0x40)) ∧
    onP.laneAccess 0 job0 bankP .write true true (bankP.rg 1 - BitVec.ofNat 64 ((bankP.rg 1).toNat % 64)) 64 = (onP, .at_ (.window 0x40)) := by
  have e1 : bankP.rg 1 + (0 : BitVec 16).signExtend 64 = 0x0100000000010040 := by decide
  have e2 : bankP.rg 1 = 0x0100000000010040 := by decide
  have e3 : bankP.rg 1 - BitVec.ofNat 64 ((bankP.rg 1).toNat % 64) = 0x0100000000010040 := by decide
  have sub : ∀ n ∈ [1, 2, 4, 8, 16], n ∈ [1, 2, 4, 8, 16, 64] := by decide
  rw [e3, e1, e2]
  exact ⟨issues_P, fun _ _ => rfl, fun n hn => ⟨window_P _ _ _ _ (sub n hn), window_P _ _ _ _ (sub n hn)⟩, window_P _ _ _ _ (by decide),
    window_P _ _ _ _ (by decide), window_P _ _ _ _ (by decide)⟩

/-- A page of lane 0's local store mapped in the kernel half. -/
def tlbK : TlbEntry :=
  { hollow := false, asid := 0, page := 0x4000001, big := false, ia := 0xC000008000, out := 0xC000008000, perms1 := 7, perms2 := 7 }

def bankM : Ctx := bankK.wg 1 0x4000001040

def onM : State :=
  let s := runs job0 bankM
  { s with lanes := s.lanes.set 0 { s.lane 0 with tlb := [tlbK] } }

theorem issues_M : onM.issues 0 job0 bankM := by
  have h1 : onM.running = true := rfl
  have h2 : onM.fenced 90 = false := rfl
  have h3 : onM.lane 0 = { hollow := false, run := some 0, slotNow := 2, slotLast := 2, bank := bankM, tlb := [tlbK] } := rfl
  have h4 : onM.job 0 = some job0 := rfl
  refine ⟨?_, by rfl, rfl⟩
  simp [State.active, h1, h2, h3, h4, job0]

theorem phys_M (k : AccKind) (hk : k ≠ .exec) (n : Nat) (h : n ∈ [1, 2, 4, 8, 16]) :
    onM.laneAccess 0 job0 bankM k false true 0x4000001040 n = (onM, .at_ (.phys 0xC000008040)) := by
  have ha : ∀ m ∈ [1, 2, 4, 8, 16], (0x4000001040 : Word).toNat % m = 0 := by decide
  have hit := laneAccess_hit (s := onM) (l := 0) (j := job0) (c := bankM) (k := k) (e := tlbK) (p := 0x4000001040) (by decide) (ha n h) rfl (by decide) (by rfl)
  have e : (if k = .read then onM.cacheLine 0 (within tlbK.out tlbK.big (ptrVa 0x4000001040)) bankM.pc else onM) = onM := by
    split <;> rfl
  have q : (onM.lane 0).placeOf 0 (within tlbK.out tlbK.big (ptrVa 0x4000001040)) = .phys 0xC000008040 := by rfl
  rw [e, q] at hit
  refine hit ?_ ?_ ?_
  · cases k <;> decide
  · cases k <;> decide
  · cases k <;> rfl

/-- The same statements at a physical address: loads, stores and atomics granted to the kernel in its lane's local store. -/
theorem witness_granted_physical : onM.issues 0 job0 bankM ∧ onM.clearOf job0 [3] ∧
    onM.laneAccess 0 job0 bankM .read false true (bankM.rg 1 + (0 : BitVec 16).signExtend 64) 16 = (onM, .at_ (.phys 0xC000008040)) ∧
    onM.laneAccess 0 job0 bankM .write false true (bankM.rg 1 + (0 : BitVec 16).signExtend 64) 16 = (onM, .at_ (.phys 0xC000008040)) ∧
    onM.laneAccess 0 job0 bankM .atomic false true (bankM.rg 1) 8 = (onM, .at_ (.phys 0xC000008040)) := by
  have e1 : bankM.rg 1 + (0 : BitVec 16).signExtend 64 = 0x4000001040 := by decide
  have e2 : bankM.rg 1 = 0x4000001040 := by decide
  rw [e1, e2]
  exact ⟨issues_M, fun _ _ => rfl, phys_M _ (by decide) _ (by decide), phys_M _ (by decide) _ (by decide), phys_M _ (by decide) _ (by decide)⟩

/-- The last clause of AtomicsAndTagAccesses: CMASK refuses colour 15 after a job's start. -/
theorem witness_colour_refused : bankU.level = .u ∧ ({ bankU with cmask := 0x7FFE } : Ctx).cmask.getLsbD 15 = false ∧
    ({ bankU with cmask := 0x7FFE } : Ctx).cmask.getLsbD 14 = true := by decide

/-- BlockRegisterMoves: nothing named is pending. -/
theorem witness_block_moves : onU.issues 0 job0 bankU ∧ onU.clearOf job0 [1, 2, 3] := ⟨witness_issues, fun _ _ => rfl⟩

def blk0 : BlkReq := { lane := 0, job := 0, inst := 0, op := .enc, key := 0, src := 0, dst := 4 }

def onPending : State := { onU with cipher := { onU.cipher with reqs := [blk0] } }

/-- PendingBlockRegisterWaits: v4 is the destination of an outstanding request. -/
theorem witness_pending : onPending.issues 0 job0 bankU ∧ onPending.pendingV job0.slot 4 = true :=
  ⟨⟨witness_issues.1, witness_issues.2.1, rfl⟩, rfl⟩

/-- KeyRegistersMoveAndStayClosed: two banks that differ in handles of one type. -/
theorem witness_key_registers :
    let c := bankU.wk 2 (some 0x1_05)
    let k := c.k.set 2 (some 0xF0_05)
    (runs job0 c).issues 0 job0 c ∧ (runs job0 { c with k := k }).issues 0 job0 { c with k := k } ∧
      (c.rk 2).isSome = (k[2]).isSome ∧ (c.rk 2).map (·.toNat % 256) = (k[2]).map (·.toNat % 256) ∧ c.rk 2 ≠ k[2] :=
  ⟨issues_runs _ _ rfl rfl rfl, issues_runs _ _ rfl rfl rfl, by decide, by decide, by decide⟩

/-- BranchesAndJumps: a branch taken and one not taken, a call, a jump, one to a misaligned target and one to a pointer outside R97. -/
theorem witness_branches :
    bankU.rg 1 = bankU.rg 2 ∧ ptrOk (bankU.pc + 4 * (0xFFFF : BitVec 16).signExtend 64) = true ∧
      (bankU.pc + 4 * (0xFFFF : BitVec 16).signExtend 64).toNat % 4 = 0 ∧
    ptrOk (bankU.pc + 4 * (0x1FFFFF : BitVec 21).signExtend 64) = true ∧
    (let x : Word := (0x400010 + (0xFFF0 : BitVec 16).signExtend 64) &&& 0xF0FFFFFFFFFFFFFF; ptrOk x = true ∧ ptrK x = false ∧ x.toNat % 4 = 0) ∧
    (let x : Word := (0x400010 + (0x0002 : BitVec 16).signExtend 64) &&& 0xF0FFFFFFFFFFFFFF; ptrOk x = true ∧ ptrK x = false ∧ x.toNat % 4 ≠ 0) ∧
    (let x : Word := (0x1000000000000000 + (0 : BitVec 16).signExtend 64) &&& 0xF0FFFFFFFFFFFFFF; ptrOk x = false) ∧ bankU.takesTraps := by
  refine ⟨by decide, by decide, by decide, by decide, by decide, by decide, by decide, .inl rfl⟩

/-- GuardedCounterInstructions: unarmed; armed at the limit, below it, spent; widths 32, 64 and 128; the illegal width 3. -/
theorem witness_counters :
    let n32 : Counter := { value := 0, limit := 0, armed := true }
    let n64 : Counter := { value := 0, limit := 5, width := .w64, armed := true }
    let n128 : Counter := { value := 0, limit := 1, width := .w128, armed := true, delivered := 1 }
    let field := fun (m : Nat) (x : Blk) => beNat (leBytes 16 x.toNat) % 2 ^ m
    bankU.takesTraps ∧ (bankU.rc 0).armed = false ∧ (∀ n ∈ [n32, n64, n128], ((bankU.wc 1 n).rc 1).armed = true ∧ ((bankU.wc 1 n).rc 1).spent = false) ∧
    (field 32 n32.value = n32.limit.toNat ∧ field 64 n64.value < n64.limit.toNat ∧ n64.limit.toNat < 2 ^ 64 ∧ n128.limit.toNat ≤ n128.delivered) ∧
    (∀ k ∈ [0, 1, 2, 3], ((bankU.wg 2 (BitVec.ofNat 64 k)).rg 2).toNat % 4 = k) := by
  refine ⟨.inl rfl, by decide, by decide, by decide, by decide⟩

/-- InvocationNumbersInOrder: an empty key register, a handle with two numbers (index 1 the last, 2 past the end), a handle without any. -/
theorem witness_invocations :
    let j : Job := { job0 with invs := [(7, [3, 9])] }
    bankU.rk 0 = none ∧ (bankU.wk 0 (some 7)).rk 0 = some 7 ∧ j.invs.find? (fun e => e.1 == 7) = some (7, [3, 9]) ∧
    ([3, 9] : List Nat)[(1 : Word).toNat]? = some 9 ∧ ([3, 9] : List Nat).length ≤ (2 : Word).toNat ∧ j.invs.find? (fun e => e.1 == 8) = none := by decide

/-! ## Streams -/

/-- A job of 20 source bytes, 16-byte blocks, padding mode 1, so0 contiguous at 0x5000. -/
def jobS : Job :=
  { job0 with
    header := { header0 with block := 16, res := true, resLen := 4 }
    desc := { desc0 with length := 20, padMode := 1, dst := 0x5000 }
    ports := { src := List.replicate 20 7 } }

/-- StreamPortsDeliverAcceptAndFinish, first clause: bytes left and delivered (the padded length is 32), nothing left, and not yet delivered. -/
theorem witness_stream_in :
    (runs jobS bankU).issues 0 jobS bankU ∧ (runs jobS bankU).clearOf jobS [1] ∧ 0 < jobS.header.block ∧ jobS.header.block ≤ 16 ∧
    jobS.desc.length.toNat + 12 - jobS.ports.si.toList.getD 0 0 = 32 ∧ min 20 (0 + 16) ≤ jobS.ports.src.length ∧
    (20 + 12) - ({ jobS with ports := { jobS.ports with si := jobS.ports.si.set 0 32 } } : Job).ports.si.toList.getD 0 0 = 0 ∧
    ¬ (min 20 (0 + 8) ≤ ({ jobS with ports := { jobS.ports with src := [] } } : Job).ports.src.length) :=
  ⟨issues_runs _ _ rfl rfl rfl, fun _ _ => rfl, by decide⟩

/-- Its second clause: an unpadding job holding one block of good and of bad padding, a stealing job holding two blocks, so1 full and not, finished ports, and a capacity. -/
theorem witness_stream_out :
    let d : Job := { jobS with header := { jobS.header with decrypt := true } }
    let good : Job := { d with ports := { d.ports with heldOut := d.ports.heldOut.set 0 (List.replicate 14 1 ++ [2, 2]) } }
    let bad : Job := { d with ports := { d.ports with heldOut := d.ports.heldOut.set 0 (List.replicate 15 1 ++ [0]) } }
    let e : Job := { jobS with desc := { jobS.desc with padMode := 5 } }
    let steal : Job := { e with ports := { e.ports with heldOut := e.ports.heldOut.set 0 (List.replicate 32 1) } }
    let free : Job := { jobS with header := { jobS.header with outFree := true }, desc := { jobS.desc with padMode := 0 } }
    let fin : Job := { jobS with ports := { jobS.ports with fin := Vector.replicate 2 true } }
    (good.header.decrypt = true ∧ good.desc.padMode = 1 ∧ good.ports.fin[0] = false ∧ good.ports.heldOut[0].length = 16 ∧
      (good.ports.heldOut[0].getLast?).map (·.toNat) = some 2 ∧ ∀ x ∈ good.ports.heldOut[0].drop (16 - 2), x.toNat = 2) ∧
    (bad.ports.heldOut[0].getLast?).map (·.toNat) = some 0 ∧
    (steal.header.decrypt = false ∧ steal.desc.padMode = 5 ∧ steal.ports.heldOut[0].length = 32 ∧ steal.desc.length.toNat % 16 ≠ 0) ∧
    (jobS.header.res = true ∧ jobS.ports.fin[1] = false ∧ jobS.header.resLen < jobS.ports.pushed[1] + 5 ∧ jobS.ports.pushed[1] + 4 ≤ jobS.header.resLen) ∧
    (fin.ports.fin[0] = true ∧ fin.ports.fin[1] = true ∧ job0.header.res = false) ∧
    (free.header.outFree = true ∧ free.outCap = none ∧ free.desc.flags.getLsbD 1 = false ∧ free.ports.heldOut[0] = [] ∧
      leNat (((free.ports.arg.getD []).drop 0x1C).take 4) < free.ports.written[0] + 1) := by decide

/-- The same with a scatter-gather destination of which no entry has been read. -/
def jobL : Job := { jobS with desc := { jobS.desc with flags := 2 } }

/-- OutputInstructionsWriteTheDestination: a push that is accepted, one that is refused, one that waits for a list entry, one beyond the list's end, a pull that gives a block. -/
theorem witness_output :
    (runs jobS bankU).issues 0 jobS bankU ∧ (∃ j' out, jobS.push 0 [1, 2, 3] = .done j' out) ∧ jobS.push 2 [1] = .trap unboundTrap ∧
    jobL.push 0 [1] = .wait ∧ { jobL with ports := { jobL.ports with dstWalk := { jobL.ports.dstWalk with ended := true } } }.push 0 [1] = .fail 0x31 0 ∧ (runs jobL bankU).issues 0 jobL bankU ∧
    (∃ bs, jobS.pull 0 16 = .got bs) ∧ (∃ j' out, jobS.push 0 (List.replicate 16 0) = .done j' out) ∧ jobS.outCap = none ∧ jobS.desc.flags.getLsbD 1 = false ∧
    1 ≤ ((bankU.wg 3 16).rg 3).toNat ∧ ((bankU.wg 3 16).rg 3).toNat ≤ 16 :=
  ⟨issues_runs _ _ rfl rfl rfl, ⟨_, _, rfl⟩, rfl, rfl, rfl, issues_runs _ _ rfl rfl rfl, ⟨_, rfl⟩, ⟨_, _, rfl⟩, rfl, rfl, by decide, by decide⟩

/-- HostReadsFeedTheJob: a job in flight, one that has finished, a slot without one; list entries that break a rule and one that does not. -/
theorem witness_host_reads :
    onU.job 0 = some job0 ∧ job0.finished = false ∧ onU.job 1 = none ∧ ({ job0 with st := .finished } : Job).finished = true ∧
    jobS.ports.srcWalk.ended = false ∧ jobS.ports.srcWalk.total < jobS.desc.length.toNat ∧ jobS.ports.dstWalk.ended = false ∧
    jobS.ports.srcWalk.index ≠ 255 ∧ ({ index := 255 } : SglWalk).ended = false := ⟨rfl, rfl, rfl, rfl, by decide⟩

/-! ## System instructions -/

/-- ControlRegistersByLevel: a number not in the table, one from 0x100 at U and at K, a read-only one, a job within its budget. -/
theorem witness_control_registers :
    onU.issues 0 job0 bankU ∧ onK.issues 0 job0 bankK ∧ bankK.ie = true ∧ ¬ (0x00B ≤ 0x00A ∨ (0x100 ≤ 0x00B ∧ 0x00B ≤ 0x10E)) ∧
    (job0.admittedAt ≤ onU.frame.num ∧ onU.frame.num < job0.admittedAt + 2 ^ 24 - 1 ∧ job0.budget < 2 ^ 24) :=
  ⟨witness_issues, witness_issues_kernel, rfl, by decide, by decide⟩

def yielding : State := { onU with insts := onU.insts.map (fun (e : Nat × Inst) => (e.1, { e.2 with share := { e.2.share with pmcUser := false } })) }

/-- KernelReturnFenceFlushYieldAndCounters: both levels, PMC_USER 1 and 0, a WINB whose base is the one in force and another, the register numbers at their bounds. -/
theorem witness_kernel_return :
    onU.issues 0 job0 bankU ∧ onK.issues 0 job0 bankK ∧ bankK.winb.toNat / 2 ^ 10 % 256 * 1024 = bankK.winAt ∧
    (let c := { bankK with winb := 0x40400 }; (runs job0 c).issues 0 job0 c ∧ c.level = .k ∧ c.winb.toNat / 2 ^ 10 % 256 * 1024 ≠ c.winAt) ∧ (onU.lane 0).slotNow ≤ (onU.lane 0).slotLast ∧
    (match onU.inst 0 with | some x => x.share.pmcUser | none => false) = true ∧
    yielding.issues 0 job0 bankU ∧ (match yielding.inst 0 with | some x => x.share.pmcUser | none => false) = false ∧
    (∀ n ∈ [7, 8, 16, 31, 32], ((bankU.wg 1 (BitVec.ofNat 64 n)).rg 1).toNat % 64 = n) :=
  ⟨witness_issues, witness_issues_kernel, by decide, ⟨issues_runs _ _ rfl rfl rfl, rfl, by decide⟩, by decide, rfl, ⟨witness_issues.1, rfl, rfl⟩, rfl, by decide⟩

/-- The same job run by a ROM program, its source delivered and not. -/
def jobRom (src : Bytes) : Job := { jobS with rom := true, ports := { jobS.ports with src := src } }

def bankDouble : Ctx := { bankK with ie := false }
def debugged : State := { onU with prot := { onU.prot with dbg := 0x11 } }

/-- EndsOfJobsStopsAndDoubleFaults: an allowed status and another, a ROM program whose source is delivered and one whose is not, both levels, K level with IE 0, debug on and off, a word that is no instruction. -/
theorem witness_ends :
    onU.issues 0 job0 bankU ∧ ((bankU.wg 1 0x10).rg 1).extractLsb' 0 7 ∈ ([0x00, 0x02, 0x10, 0x31, 0x32, 0x33, 0x40, 0x24] : List (BitVec 7)) ∧
    ((bankU.wg 1 0x7F).rg 1).extractLsb' 0 7 ∉ ([0x00, 0x02, 0x10, 0x31, 0x32, 0x33, 0x40, 0x24] : List (BitVec 7)) ∧
    ((runs (jobRom []) bankU).issues 0 (jobRom []) bankU ∧ (jobRom []).rom = true ∧ (runs (jobRom []) bankU).romEarly (jobRom []) = true ∧
      (runs (jobRom (zeros 20)) bankU).romEarly (jobRom (zeros 20)) = false) ∧
    onK.issues 0 job0 bankK ∧ (runs job0 bankDouble).issues 0 job0 bankDouble ∧ ¬ bankDouble.takesTraps ∧ bankU.takesTraps ∧
    geingDecode 0 0xFC000000 = none ∧ onU.prot.dbg.getLsbD 4 = false ∧ debugged.prot.dbg.getLsbD 4 = true ∧ debugged.issues 0 job0 bankU ∧
    (runs job0 bankDouble).strata.frozen = none ∧ (runs job0 bankDouble).strata.buffer.length < 2048 :=
  ⟨witness_issues, by decide, by decide, ⟨issues_runs _ _ rfl rfl rfl, rfl, rfl, rfl⟩, witness_issues_kernel, issues_runs _ _ rfl rfl rfl, fun h => by simp [Ctx.takesTraps, bankDouble, bankK] at h,
    .inl rfl, rfl, rfl, rfl, ⟨witness_issues.1, rfl, rfl⟩, rfl, by decide⟩

/-! ## Keys, blocks, hashes, decimal and public-key instructions -/

/-- An active AES-128 node of the root's instance. -/
def node0 : Node :=
  { labelDig := 0, parent := 0, level := 1, origin := .imported, ktype := 0x10, state := .active, allocGen := 1, gen := 1, usage := 0xFFFF,
    policy := 0, useCnt := 0, bind := 0, invBlk := 0, useBlk := 0, ext := 0, created := 0, material := [], pub := [] }

/-- A handle of node 5 of instance 0 with a type. -/
def handle5 (t : Nat) : Handle := BitVec.ofNat 64 (5 * 2 ^ 20 + t)

/-- The machine with node n at index 5 of instance 0. -/
def withNode (s : State) (n : Node) : State :=
  { s with insts := s.insts.map (fun (e : Nat × Inst) => (e.1, { e.2 with dir := [(5, { state := .allocated, node := some n })] })) }

def bankKey : Ctx := bankU.wk 1 (some (handle5 0x10))
def onKey : State := withNode (runs job0 bankKey) node0

theorem issues_key : onKey.issues 0 job0 bankKey := ⟨(issues_runs job0 bankKey rfl rfl rfl).1, rfl, rfl⟩

def full32 : State := { onKey with cipher := { onKey.cipher with reqs := List.replicate 32 blk0 } }

/-- BlockIssueQueuesOneRequest: an empty key register; a key each operation permits and one it does not; 31 and 32 requests outstanding; counters armed and not; WAITB at its bound. -/
theorem witness_block_issue :
    onKey.issues 0 job0 bankKey ∧ onKey.clearOf job0 [1, 2] ∧ bankKey.rk 0 = none ∧ bankKey.rk 1 = some (handle5 0x10) ∧
    onKey.keyNode job0.bound (handle5 0x10) = some node0 ∧ blockPermitted .enc node0 = true ∧ blockPermitted .dec node0 = true ∧
    isXts node0.ktype = false ∧ isCipher (0x31 : BitVec 8) = false ∧ blockPermitted .tweak { node0 with ktype := 0x13 } = true ∧
    (onKey.cipher.reqs.filter (fun r => r.lane == 0)).length < 32 ∧ 32 ≤ (full32.cipher.reqs.filter (fun r => r.lane == 0)).length ∧
    onKey.keyNode job0.bound (BitVec.ofNat 64 (6 * 2 ^ 20)) = none ∧ (bankKey.rc 0).armed = false ∧
    ((bankKey.wc 2 { armed := true }).rc 2).spent = false :=
  ⟨issues_key, fun _ _ => rfl, rfl, by decide, rfl, by decide, by decide, by decide, by decide, by decide, by decide, by decide, rfl, by decide, by decide⟩

/-- Core 3 serves the one request. -/
def onResult : State := { onKey with cipher := { onKey.cipher with reqs := [{ blk0 with core := some 3, key := handle5 0x10 }] } }

/-- SchedulerAssignsAndDelivers: a dispatch inside and at the edges of its cycles, a core with a request and without one, a node that exists and one that does not. -/
theorem witness_scheduler :
    onKey.power.run = .running ∧ (¬ (11371 < 11371) ∧ 255 < 256 ∧ 11371 < 11372) ∧
    onResult.cipher.reqs.findIdx? (fun r => r.core == some 3) = some 0 ∧ onResult.cipher.reqs.findIdx? (fun r => r.core == some 4) = none ∧
    onResult.job 0 = some job0 ∧ onResult.nodeAt 0 5 1 = some node0 ∧ onResult.nodeAt 0 5 2 = none ∧ (onResult.lane 0).run = some 0 :=
  ⟨rfl, by decide, rfl, rfl, rfl, rfl, rfl, rfl⟩

def hash0 : HashCtx := { alg := 0x12 }
def jobH : Job := { job0 with hash := job0.hash.set 0 (some hash0), header := { header0 with block := 16 }, desc := { desc0 with length := 20 }, ports := { src := List.replicate 20 7 } }
def jobFull : Job := { job0 with hash := Vector.replicate 4 (some hash0) }

/-- HashContextsServeTheirRequests, instructions: a free context and none, algorithms with and without a key, an open context and one that is not, a window range at its end, bytes on a port. -/
theorem witness_hash :
    (runs jobH bankP).issues 0 jobH bankP ∧ jobH.hash[1] = none ∧ (∀ n : Fin 4, jobFull.hash[n] ≠ none) ∧
    ((0x12 : Nat) ∈ [0x01, 0x02, 0x03, 0x04, 0x05, 0x06, 0x11, 0x12, 0x13, 0x14, 0x18, 0x19, 0x40]) ∧ bankP.rk 0 = none ∧
    jobH.hash[0] = some hash0 ∧ hash0.reqs = [] ∧ hash0.alg ≠ 0x40 ∧ digestLen hash0.alg = 32 ∧ hash0.alg.toNat ≤ 0x14 ∧ bankP.rg 0 = BitVec.ofNat 64 0 ∧
    (let p := bankP.rg 1; ptrOk p = true ∧ 0x10000 ≤ ptrVa p ∧ ptrVa p < 0x14000 ∧ ptrVa p - 0x10000 + 32 ≤ bankP.winSize ∧
      (∀ x ∈ parts (ptrVa p - 0x10000) 32, bankP.colourAt x = ptrColour p) ∧ jobH.busyAt (ptrVa p - 0x10000) 32 = false) ∧
    (16 ≤ jobH.remains 0 ∧ ∃ bs, jobH.pull 0 16 = .got bs) ∧ ((runs jobH bankP).lane 0).slotNow ≤ ((runs jobH bankP).lane 0).slotLast :=
  ⟨issues_runs _ _ rfl rfl rfl, rfl, by decide, by decide, by decide, rfl, rfl, by decide, by decide, by decide, by decide, by decide, ⟨by decide, _, rfl⟩, by decide⟩

/-- The keyed form: a key of type 0x22 that may make a MAC, and one of another type. -/
theorem witness_hash_keyed :
    let n : Node := { node0 with ktype := 0x22 }
    let s := withNode (runs job0 (bankU.wk 1 (some (handle5 0x22)))) n
    s.keyNode job0.bound (handle5 0x22) = some n ∧ n.may uMacGen = true ∧ (0x22 : Nat) ∈ [0x21, 0x22, 0x23, 0x24, 0x25, 0x26, 0x2A, 0x2B] ∧ n.ktype ≠ 0x21 :=
  ⟨rfl, by decide, by decide, by decide⟩

def jobA : Job := { job0 with hash := job0.hash.set 0 (some { hash0 with reqs := [.absorb [1, 2, 3] 0 3] }), st := .waiting (.hash 0) }
def jobQ : Job := { job0 with hash := job0.hash.set 0 (some { hash0 with reqs := [.squeeze 0 32] }) }
def chunked (j : Job) : State := { runs j bankU with engines := { (runs j bankU).engines with chunk := (runs j bankU).engines.chunk.set 8 (some (0, 0, 3)) } }

/-- HashContextsServeTheirRequests, chunks: one of an absorb, one of a squeeze, none. -/
theorem witness_hash_chunk :
    (chunked jobA).engines.chunk[8] = some (0, 0, 3) ∧ (chunked jobA).job 0 = some jobA ∧ (chunked jobQ).job 0 = some jobQ ∧
    jobA.hash[0] = some { hash0 with reqs := [.absorb [1, 2, 3] 0 3] } ∧ jobQ.hash[0] = some { hash0 with reqs := [.squeeze 0 32] } ∧
    (chunked jobA).engines.chunk[9] = none := ⟨rfl, rfl, rfl, rfl, rfl, rfl⟩

/-- DecimalInstructionsAreExact: a block that holds 1 with sign 0xC, one with an invalid sign, zoned digits, the largest number of 31 digits. -/
theorem witness_decimal :
    let nib := fun (v : Blk) (i : Nat) => v.toNat / 2 ^ (8 * (i / 2) + 4 * (1 - i % 2)) % 16
    let val := fun (v : Blk) (n : Nat) => (List.range n).foldl (fun (acc : Nat) i => 10 * acc + nib v i) 0
    let one : Blk := 0x1C000000000000000000000000000000
    let most : Blk := 0x9C999999999999999999999999999999
    let zoned : Blk := 0xC5F4F3F2F14040404040404040404040
    let byte := fun (v : Blk) (i : Nat) => v.toNat / 2 ^ (8 * i) % 256
    onU.issues 0 job0 bankU ∧ onU.clearOf job0 [1, 2, 3] ∧ (∀ i ∈ List.range 31, nib one i ≤ 9) ∧ nib one 31 = 0xC ∧ val one 31 = 1 ∧ nib (0 : Blk) 31 < 0xA ∧
    val most 31 + 1 = 10 ^ 31 ∧ (∀ i ∈ List.range 11, byte zoned i = 0x40) ∧
    (∀ i ∈ [11, 12, 13, 14], byte zoned i / 16 = 0xF ∧ byte zoned i % 16 ≤ 9) ∧ byte zoned 15 / 16 = 0xC ∧ byte zoned 15 % 16 ≤ 9 := by
  refine ⟨witness_issues, fun _ _ => rfl, by decide, by decide, by decide, by decide, by decide, by decide, by decide, by decide, by decide⟩

/-- DecimalWindowTranslationAndCheckDigits: lengths 0, 1, 16 and 17, a range at the window's end and past it, another colour, tables present and absent, digits and none, remainders 96 and 97. -/
theorem witness_decimal_window :
    let p : Word := 0x0100000000013FF0
    onU.issues 0 job0 bankU ∧ ptrOk p = true ∧ 0x10000 ≤ ptrVa p ∧ ptrVa p < 0x14000 ∧ ptrVa p - 0x10000 + 16 ≤ bankU.winSize ∧
    (∀ x ∈ parts (ptrVa p - 0x10000) 16, bankU.colourAt x = ptrColour p) ∧ job0.busyAt (ptrVa p - 0x10000) 16 = false ∧
    bankU.winSize < ptrVa 0x0100000000013FF1 - 0x10000 + 16 ∧ bankU.colourAt 0 ≠ ptrColour 0x0200000000010000 ∧
    (∀ n ∈ [0, 1, 16, 17, 96, 97], ((bankU.wg 2 (BitVec.ofNat 64 n)).rg 2).toNat = n) ∧
    (let j : Job := { job0 with tables := [(9, [])] }; tget j.tables 9 = some [] ∧ tget j.tables 8 = none) ∧
    (∀ i ∈ List.range 32, (0 : Blk).toNat / 2 ^ (8 * (i / 2) + 4 * (1 - i % 2)) % 16 ≤ 9) ∧ 9 < (0xFF : Blk).toNat / 2 ^ 4 % 16 := by
  refine ⟨witness_issues, by decide, by decide, by decide, by decide, by decide, by decide, by decide, by decide, by decide, by decide, by decide, by decide⟩

/-- A window whose block at offset 0x40 is FREE (operation 0x0010), and one with an unlisted operation. -/
def bankC : Ctx := { bankP with window := [(0x40, 0x10)] }
def bankNo : Ctx := { bankP with window := [(0x40, 0x10), (0x41, 0x99)] }

def call0 : PkeCall := { op := 0x0010, blockOff := 0x40, chain := false, key := none, ins := [], outs := [], order := 0 }
def withCall (p : PkePhase) (st : BitVec 7) : Job := { job0 with pke := some { call0 with phase := p, status := st } }

/-- PublicKeyCallsFromALane: a well-formed block and one with an unlisted operation, a block past the window, a call in each phase and none. -/
theorem witness_pke_call :
    let p := bankC.rg 1
    let block := Memory.readBytes bankC.window 0x40 64
    let call := parseCall block 0x40 0 none
    (runs job0 bankC).issues 0 job0 bankC ∧ ptrOk p = true ∧ ptrVa p - 0x10000 = 0x40 ∧ 0x40 + 64 ≤ bankC.winSize ∧
    (∀ x ∈ parts 0x40 64, bankC.colourAt x = ptrColour p) ∧ (opSpec (BitVec.ofNat 16 (leNat (block.take 2)))).isSome = true ∧
    ((opSpec 0x0010).bind (·.key)) = none ∧ blockReserved block = true ∧ call.chain = false ∧
    bankC.callRange p (call.ins.map (fun r => (false, r.1, r.2)) ++ call.outs.map (fun r => (true, r.1, r.2))) = none ∧
    (∀ sp, opSpec 0x0010 = some sp → (runs job0 bankC).callFormed job0 call sp = true) ∧ (∀ e : Fin 16, (runs job0 bankC).frame.assigned[e] = none) ∧
    opSpec (BitVec.ofNat 16 (leNat ((Memory.readBytes bankNo.window 0x40 64).take 2))) = none ∧
    bankC.winSize < (ptrVa 0x0100000000013FC1 - 0x10000) + 64 ∧
    (∀ ph, (withCall ph 0x40).pke = some { call0 with phase := ph, status := 0x40 }) ∧ job0.pke = none := by
  refine ⟨issues_runs _ _ rfl rfl rfl, by decide, by decide, by decide, by decide, by decide, by decide, by decide, by decide, by decide, ?_, by decide, by decide,
    by decide, fun _ => rfl, rfl⟩
  intro sp h
  have : sp = {} := (Option.some.inj (h.symm.trans rfl))
  subst this
  decide

/-- Engine 0 runs the call of job 0. -/
def engineRuns (j : Job) : State := { runs j bankU with pke := { (runs j bankU).pke with running := (runs j bankU).pke.running.set 0 (some 0) } }

def jobOp (op : BitVec 16) (ins : List Bytes) : Job := { job0 with pke := some { call0 with op := op, phase := .running, inputs := ins } }

/-- EnginesComputeTheirOperation: operands below a 64-bit odd modulus, the largest operand, one not below it, an even modulus, and the other operation codes. -/
theorem witness_engines :
    let m : Bytes := [0x80, 0, 0, 0, 0, 0, 0, 1]
    let q : PkeCall := { call0 with op := 0x0110, phase := .running, inputs := [beBytes 8 (2 ^ 63), [1], m] }
    (engineRuns (jobOp 0x0110 [beBytes 8 (2 ^ 63), [1], m])).pke.running[0] = some 0 ∧
    (engineRuns (jobOp 0x0110 [beBytes 8 (2 ^ 63), [1], m])).job 0 = some (jobOp 0x0110 [beBytes 8 (2 ^ 63), [1], m]) ∧
    (jobOp 0x0110 [beBytes 8 (2 ^ 63), [1], m]).pke = some q ∧ q.status = 0 ∧ q.op.toNat / 256 = 1 ∧ q.op.toNat / 16 % 16 = 1 ∧
    (beNat m % 2 = 1 ∧ 2 ^ 63 ≤ beNat m ∧ m.headD 0 ≠ 0 ∧ beNat (beBytes 8 (2 ^ 63)) < beNat m ∧ beNat m ≤ beNat m) ∧
    ¬ (beNat [0x80, 0, 0, 0, 0, 0, 0, 0] % 2 = 1) ∧ (0x0720 : BitVec 16).toNat / 256 = 7 ∧ (0x0720 : BitVec 16).toNat / 16 % 16 = 2 ∧
    (let n : Node := { node0 with ktype := 0x81, leaf := (3, 4) }
     (withNode (engineRuns (jobOp 0x0721 [])) n).node 0 5 = some n ∧ n.leaf.1 < n.leaf.2 ∧ n.asked = none ∧
       (let used : Node := { n with leaf := (4, 4) }; used.leaf.2 ≤ used.leaf.1 ∧ used.invBlk * used.blockSize < used.numbers ∧
         ¬ used.numbers ≤ used.invBlk * used.blockSize ∧ ({ used with invBlk := 4096 } : Node).numbers ≤ 4096 * used.blockSize)) ∧
    (∀ r ∈ (engineRuns (jobOp 0x0721 [])).pke.twinRepeats, r.engine ≠ some 0) := by
  refine ⟨rfl, rfl, rfl, rfl, by decide, by decide, by decide, by decide, by decide, by decide, ⟨rfl, by decide, rfl, by decide⟩, by decide⟩

def ckptCall0 : CkptCall := { slot := 0, inst := 0, op := 0x0440, key := none, chained := none, inputs := [], seed := none }

/-- Paired, cross-checking, with a confirmed checkpoint that carries a call of slot 0, engine 0 assigned to instance 0. -/
def crossChecking : State :=
  { onU with
    frame := { onU.frame with num := 5, assigned := onU.frame.assigned.set 0 (some 0) }
    twin := { onU.twin with state := .paired, xcheck := true, got := [{ frame := 4, digest := 0, jobs := [], calls := [ckptCall0], confirmed := true }] } }

/-- EndOfPublicKeyOperation: a call computed, one still running, one being aborted; a repeat due with an engine idle, none due, cross-check off. -/
theorem witness_pke_end :
    let j : Job := withCall .computed 0x40
    (engineRuns j).pke.running[0] = some 0 ∧ (engineRuns j).job 0 = some j ∧ j.pke = some { call0 with phase := .computed, status := 0x40 } ∧
    ((engineRuns j).frame.cycle < 192 ∧ ∀ x : Fin 16, (engineRuns j).frame.assigned[x] = none) ∧ repeats call0.op = false ∧
    (withCall .running 0).pke = some { call0 with phase := .running, status := 0 } ∧ (engineRuns (withCall .aborting 0)).job 0 = some (withCall .aborting 0) ∧
    onU.job 9 = none ∧ onU.repeatDue 0 = none ∧ onU.crossChecks = false ∧
    (let q : PkeCall := { call0 with phase := .computed }; (withCall .computed 0).pke = some q ∧ q.status = 0 ∧ q.creates = false ∧ q.fits q.results = true) ∧
    signs 0x0411 = true ∧ (withCall .aborting 0).finished = false ∧ ({ call0 with wrote := [64] } : PkeCall).wrote ≠ [] ∧
    crossChecking.regionsOfOthers 0 16384 + crossChecking.repeatSize ckptCall0 ≤ 16 ∧
    crossChecking.repeatDue 0 = some (ckptCall0, 4) ∧ crossChecking.crossChecks = true ∧ crossChecking.repeatEngine 0 = some 0 ∧
    (∀ r ∈ crossChecking.pke.twinRepeats, ¬ (r.call.slot = 0 ∧ r.ckpt = 4)) := by
  refine ⟨rfl, rfl, rfl, by decide, by decide, rfl, rfl, rfl, rfl, rfl, ⟨rfl, rfl, rfl, rfl⟩, by decide, rfl, by decide, by decide, rfl, rfl, rfl, by decide⟩

/-- Raw bits that alternate. -/
def mixed : BitVec 1536 := 0x555555555555555555555555555555555555555555555555555555555555555555555555555555555555555555555555555555555555555555555555555555555555555555555555555555555555555555555555555555555555555555555555555555555555555555555555555555555555555555555555555555555555555555555555555555555555555555555555555555555555555555555555555555555555555555555555555555555555555555555555555555555555555555555555

/-- EntropyPoolAndReseeds: a source in its turn and one out of it, raw bits all equal and raw bits that pass; pools of 63 and 64 seeds, an instance due by frames, by calls and not due, one generating a long squeeze. -/
theorem witness_entropy :
    let pooled := fun (n : Nat) => ({ onU with engines := { onU.engines with pool := List.replicate n 0 } } : State)
    let d : Drbg := { work := some 0, busy := some (0, 0), done := 0 }
    let j : Job := { job0 with hash := job0.hash.set 0 (some { hash0 with alg := 0x40, reqs := [.squeeze 0 4097] }) }
    (pooled 63).engines.pool.length < 64 ∧ 64 ≤ (pooled 64).engines.pool.length ∧ onU.fenced 42 = false ∧ (onU.fence 42 1).fenced 42 = true ∧
    ({ reseededAt := 0 } : Drbg).reseededAt + 1000 ≤ 1000 ∧ ¬ (1000 ≤ 999 ∨ 65536 ≤ 65535) ∧ 65536 ≤ ({ calls := 65536 } : Drbg).calls ∧
    (∀ j ∈ onU.jobs, ∀ n : Fin 4, ∀ h, j.hash[n] = some h → h.alg ≠ 0x40) ∧ (onU.engines.drbg[0]).busy = none ∧
    d.busy = some (0, 0) ∧ d.work = some 0 ∧ j.hash[0] = some { hash0 with alg := 0x40, reqs := [.squeeze 0 4097] } ∧ d.done + 4096 < 4097 ∧
    onU.strata.frozen = none ∧ onU.strata.buffer.length < 2047 ∧ onU.turnOf = some 0 ∧ onU.turnOf ≠ some 1 ∧ onU.engines.health[0] = {} ∧
    (∀ k, k < 41 → (0 : BitVec 1536).getLsbD k = (0 : BitVec 1536).getLsbD 0) ∧ d.held = false := by
  refine ⟨by decide, by decide, rfl, rfl, by decide, by decide, by decide, ?_, rfl, rfl, rfl, rfl, by decide, rfl, by decide, rfl, by decide, rfl, fun k _ => by simp, rfl⟩
  intro j hj n h hh
  have : j = job0 := by simpa [onU, runs] using hj
  subst this
  have e : ∀ n : Fin 4, job0.hash[n] = none := by decide
  rw [e n] at hh
  cases hh

/-- Raw bits that pass the health tests and raw bits that fail one. -/
theorem witness_health : (∃ h, (onU.engines.health[0]).bits (rawBits 1536 mixed) = .inl h) ∧ ∃ prop n, (onU.engines.health[0]).bits (rawBits 1536 0) = .inr (prop, n) := by
  have a : ((onU.engines.health[0]).bits (rawBits 1536 mixed)).isLeft = true := by decide +kernel
  have b : ((onU.engines.health[0]).bits (rawBits 1536 0)).isRight = true := by decide +kernel
  obtain ⟨⟨p, n⟩, h⟩ := Sum.isRight_iff.mp b
  exact ⟨Sum.isLeft_iff.mp a, p, n, h⟩

/-! ## Frames, admission, slices, the tail -/

/-- The unit runs, frames tick, no job. -/
def idle : State := { onU with jobs := [], lanes := State.reset.lanes }

/-- FramesThermalLevelsAndGrants: frames tick and work, no failure and no restart due, each phase at the edges of its cycles; 100 cool readings at level 1; a pair, follower and leader; 16 late frames; an instance whose sums fit. -/
theorem witness_frames :
    idle.ticks = true ∧ idle.power.fail = none ∧ idle.prot.restartDue = none ∧ idle.works = true ∧ (idle.inst 0).isSome = true ∧
    (let s : State := { idle with frame := { idle.frame with cool := 100, level := 1 } }; s.ticks = true ∧ 100 ≤ s.frame.cool ∧ 0 < s.frame.level) ∧
    (let s : State := { idle with twin := { idle.twin with record := some (0, 0, 0) } }; s.inPair = true ∧ s.ticks = true) ∧
    (∀ n ∈ [0, 1, 31, 32, 11199, 11200, 11919, 11920], ({ idle with frame := { idle.frame with cycle := n } } : State).frame.cycle = n) ∧ idle.frame.cycle = 0 ∧
    (let s : State := { idle with frame := { idle.frame with badAlign := 16 } }; 16 ≤ s.frame.badAlign ∧ s.ticks = true) ∧
    (idle.insts.map (·.1)).Nodup ∧ ((idle.insts.map (·.1)).map (fun i => min (idle.demandNow i 0) (idle.floorOf i 0))).sum ≤ idle.capacity 0 := by
  refine ⟨rfl, rfl, rfl, rfl, rfl, ?_, ?_, ?_, rfl, ?_, by decide, by decide⟩ <;> simp only [] <;> decide

/-- A descriptor of the copy program. -/
def descCopy : Descriptor := { desc0 with program := 0x00F0, padMode := 4, dst := 0x1000, length := 16 }

/-- One descriptor waits on pair 0 of instance 0. -/
def queuing (d : Descriptor) : State :=
  { idle with insts := idle.insts.map (fun (e : Nat × Inst) =>
      (e.1, { e.2 with qs := e.2.qs.set 0 { en := true, active := true, sqTail := 1, sqLatched := 1, fetched := [d], ready := 1 } })) }

def nodeAsked : Node := { node0 with asked := some (3, 2) }
def nodeAskedUse : Node := { node0 with askedUse := some (3, 2) }

/-- AdmissionCommitAndReservations: one descriptor selected that every check passes, one that fails a check, nothing staged, one staged change, a block asked for two frames ago and one frame ago. -/
theorem witness_admission :
    let s := queuing descCopy
    let s0 : State := { s with frame := { s.frame with cycle := 64 } }
    s.works = true ∧ s.drains = false ∧ s0.toAdmit = [{ inst := 0, q := some 0, net := none, desc := descCopy }] ∧
    s0.refusal { inst := 0, q := some 0, net := none, desc := descCopy } = none ∧ s.keysOf { inst := 0, q := some 0, net := none, desc := descCopy } = [] ∧
    (s0.refusal { inst := 0, q := some 0, net := none, desc := { descCopy with rsv33 := 1 } }).isSome = true ∧
    (∀ e ∈ s.insts, ∀ q : Fin 4, e.2.qs[q].cancelsNow = []) ∧ (s.jobs.map (·.slot)).Nodup ∧ s.staged = [] ∧ s.prot.log = [] ∧
    idle.atCommit ∧ idle.quarry.written = [] ∧
    ({ idle with staged := [.tamperCfg {} (.mailbox 0) 0], cut := { idle.cut with changes := 1 } } : State).atCommit ∧
    (∀ n ∈ [nodeAsked, nodeAskedUse],
      let t := withNode { idle with frame := { idle.frame with num := 5 } } n
      t.works = true ∧ t.node 0 5 = some n ∧ t.frame.cycle < 32 ∧ 3 + 2 ≤ t.frame.num ∧ 4 < 3 + 2 ∧
        (∀ uses, t.blockSafe 0 5 uses = true) ∧ ∀ j ∈ t.jobs, j.inst = 0 → j.st ≠ .waiting .reservation) ∧
    idle.node 0 5 = none := by
  refine ⟨rfl, rfl, rfl, rfl, rfl, rfl, by decide, by decide, rfl, rfl, ⟨rfl, rfl, rfl⟩, rfl, ⟨rfl, rfl, rfl⟩, ?_, rfl⟩
  intro n hn
  simp only [List.mem_cons, List.mem_nil_iff, or_false] at hn
  rcases hn with rfl | rfl <;>
    exact ⟨rfl, rfl, by decide, by decide, by decide, fun u => by cases u <;> rfl, by decide⟩

def jobReady : Job := { job0 with st := .runnable }

/-- Lane 0 has a grant for job 0, whose context stands in its block. -/
def granted : State :=
  { idle with jobs := [jobReady], lanes := idle.lanes.set 0 { grants := [⟨0, 2, 3⟩] }, frame := { idle.frame with cycle := 192, num := 4 } }

/-- SlicesAreGrantedStartedAndEnded: the admission phase; an idle lane with a grant for a job that has begun; a running slice; requests not dispatched and none. -/
theorem witness_slices :
    ({ granted with frame := { granted.frame with cycle := 64 } } : State).frame.cycle = 64 ∧ granted.works = true ∧ (granted.jobs.map (·.slot)).Nodup ∧
    (granted.lane 0).run = none ∧ granted.laneUp 0 = true ∧ 192 ≤ granted.frame.cycle ∧ granted.frame.cycle < 11200 ∧
    granted.nextGrant 0 = some (⟨0, 2, 3⟩, jobReady) ∧ jobReady.started = true ∧ (granted.ctxOf jobReady).held = none ∧
    onU.works = true ∧ (onU.lane 0).run = some job0.slot ∧ onU.job job0.slot = some job0 ∧
    onU.cipher.reqs.filter (fun r => r.core.isNone) = [] ∧ onPending.cipher.reqs.filter (fun r => r.core.isNone) ≠ [] ∧ (onU.lane 0).stopped = false ∧
    (onU.lane 0).entry = none ∧ (∀ n ∈ [11200, 11371, 11379], ({ onPending with frame := { onPending.frame with cycle := n } } : State).works = true) ∧
    onPending.works = true := by
  refine ⟨rfl, rfl, by decide, rfl, rfl, by decide, by decide, rfl, rfl, rfl, rfl, rfl, rfl, rfl, by decide, rfl, rfl, by decide, rfl⟩

/-- A job that has ended its work with OK. -/
def jobDone : Job := { job0 with st := .finished, admittedAt := 1, lastRun := some 2 }

/-- The unit at the tail of frame 7 with one job, its instance's port up. -/
def atTail (j : Job) : State :=
  { idle with
    jobs := [j]
    frame := { idle.frame with num := 7, cycle := 11200 }
    host := { idle.host with ports := Vector.replicate 2 { up := true, perst := false, bme := true } } }

/-- TailEndsDeadlinesSealAndRelease: running and halted Hollows, jobs with a deadline due (with END_AT_DEADLINE and without) and not, a budget ending and not, a pair and none, a finished job whose frame has come with its ring free and full, no freeze. -/
theorem witness_tail :
    let due : Job := { job0 with desc := { desc0 with deadline := 8, flags := 4 } }
    let goesOn : Job := { job0 with desc := { desc0 with deadline := 8 } }
    let budget : Job := { job0 with desc := { desc0 with stepBudget := 8 } }
    (atTail due).ticks = true ∧ (atTail due).prot.hollow = .running ∧ 11200 ≤ (atTail due).frame.cycle ∧ ((atTail due).jobs.map (·.slot)).Nodup ∧
    (due.deadlineFrame = some 7 ∧ due.st ≠ .finished ∧ due.squashed = none ∧ due.desc.flags.getLsbD 2 = true ∧ goesOn.desc.flags.getLsbD 2 = false) ∧
    (budget.admittedAt + budget.desc.stepBudget.toNat - 1 ≤ 7 ∧ job0.deadlineFrame = none ∧ 7 < job0.admittedAt + 100000 - 1) ∧
    (withCall .written 0).pke = some { call0 with phase := .written, status := 0 } ∧
    (atTail jobDone).isPaired = false ∧ (atTail jobDone).copiesLive = false ∧ (atTail jobDone).inPair = false ∧ crossChecking.isPaired = true ∧ crossChecking.ticks = true ∧
    (let s : State := { idle with twin := { idle.twin with record := some (0, 0, 0), up := true, keyed := true } }; s.inPair = true ∧ s.twin.up = true ∧ s.twin.keyed = true) ∧
    (atTail jobDone).jobs = [jobDone] ∧ (atTail jobDone).quarry.staging = [] ∧ (atTail jobDone).life.treeGen = [] ∧ jobDone.q = some 0 ∧
    (atTail jobDone).functionUp 0 = true ∧ max (jobDone.lastRun.getD jobDone.admittedAt + 1) (jobDone.squashed.getD 0) ≤ (atTail jobDone).frame.num ∧
    (∃ x, (atTail jobDone).inst 0 = some x ∧ x.state = .active ∧ x.reset = none ∧ (x.qs[0].cqTail - x.qs[0].cqHead).toNat ≠ 2 ^ x.qs[0].cqLog) ∧
    (({ cqTail := 64 } : QPair).cqTail - ({ cqTail := 64 } : QPair).cqHead).toNat = 2 ^ ({ cqTail := 64 } : QPair).cqLog ∧
    (atTail jobDone).strata.frozen = none ∧ (atTail jobDone).pke.singleRepeats = 0 ∧
    (∀ n ∈ [192, 11199, 11559, 11639, 11799, 11800, 11919], ({ atTail jobDone with frame := { (atTail jobDone).frame with cycle := n } } : State).ticks = true) := by
  refine ⟨rfl, rfl, by decide, by decide, by decide, by decide, rfl, rfl, rfl, rfl, rfl, rfl, ⟨rfl, rfl, rfl⟩, rfl, rfl, rfl, rfl, by decide, by decide,
    ⟨_, rfl, rfl, rfl, by decide⟩, by decide, rfl, rfl, by decide⟩

/-! ## Requests: an instance 1 beside instance 0, and a request that waits to be taken up -/

def share1 : Share := { managerShare with jobSlots := 16, sessions := 4, ksSlots := 100 }

/-- Instance 1 exists, on the same port. -/
def two : State := { idle with insts := [(0, { share := managerShare }), (1, { share := share1 })], frame := { idle.frame with num := 2000 } }

def from_ (src : Src) : Req := { src := src, tag := 0, rsv := false }

/-- A request of a type waits to be taken up. -/
def asks (s : State) (src : Src) (m : Nat) : State := { s with mail := { s.mail with hollowWait := [(src, 0, m, 0)] } }

/-- The state in which that request is given its effect. -/
def taken (s : State) (src : Src) (m : Nat) : State := (asks s src m).dropHeld (from_ src) m

theorem asks_takesUp (s : State) (src : Src) (m : Nat) (h1 : s.answers = true) (h2 : s.hollowUp = true) (h4 : s.ticks = true)
    (h5 : (taken s src m).turnedAway (from_ src) m = none) : (asks s src m).takesUp (from_ src) m (taken s src m) := by
  have e : (asks s src m).heldHollow (from_ src) m = true := by simp [State.heldHollow, asks, from_]
  have a : (asks s src m).answers = true := h1
  have u : (asks s src m).hollowUp = true := h2
  refine ⟨?_, h5, h4, h2⟩
  simp [State.consume, a, e, u, taken]

/-- Any request of instance 0 or of a custodian port that the source may send is taken up. -/
theorem two_takesUp (src : Src) (m : Nat) (h : (taken two src m).turnedAway (from_ src) m = none) :
    (asks two src m).takesUp (from_ src) m (taken two src m) := asks_takesUp _ _ _ rfl rfl rfl h

/-- A ring request of instance 1: PING in slot 0. -/
def ringing : State :=
  { two with insts := [(0, { share := managerShare }), (1, { share := share1, req := Vector.replicate 16 [1, 0, 0, 0], reqTail := 1, reqLatched := 1 })] }

def fwd7 : Forward := { num := 7, inst := 1, slot := 0, tag := 3, latched := 1001 }

/-- TimeoutsFencesAndHollowRestarts: a pair held 100,000 frames and not, one released again, a forwarded request and one held for the Hollow at and before their limits, an element with a sibling and one without, a running call, a listed master, the watchdog at 499 and 500, a restart within 5,000 frames. -/
theorem witness_timeouts :
    let heldPair : QPair := { en := true, active := true, cqTail := 64, cqFull := true, fullSince := some 0 }
    let s : State := { two with insts := [(0, { share := managerShare }), (1, { share := share1, qs := Vector.replicate 4 heldPair })] }
    let u : State := { two with insts := [(0, { share := managerShare }), (1, { share := share1, state := .stalled, stall := some (0, 5) })] }
    let w : State := { asks two (.fn 1) 0x80 with prot := { two.prot with hollow := .restarting, restartAt := some 1990 } }
    (s.inst 1).any (fun x => x.state == .active) = true ∧ s.pairHeld 1 0 = true ∧ heldPair.fullSince = some 0 ∧ ({ s.frame with num := 100000 } : Frame).num = 0 + 100000 ∧
    (u.inst 1).any (fun x => x.state == .stalled && x.stall == some (0, 5) && x.qs[0].fullSince.isNone) = true ∧
    ([fwd7].find? (fun (f : Forward) => f.num == 7) = some fwd7 ∧ 2000 < fwd7.latched + 1000 ∧ fwd7.latched + 1000 ≤ 2001) ∧
    (w.hollowUp = false ∧ w.mail.hollowWait.find? (fun w => w.1 == Src.fn 1 && w.2.1 == 0 && w.2.2.1 == 0x80) = some (Src.fn 1, 0, 0x80, 0) ∧ 0 + 1000 ≤ w.frame.num) ∧
    two.ticks = true ∧ (elemKind 3).1 ∈ [1, 2, 3, 4, 7, 8, 9] ∧ two.fenced 3 = false ∧ two.hasSibling 3 = true ∧
    (two.fence 20 1 |>.fence 21 1 |>.fence 22 1 |>.fence 23 1 |>.fence 24 1).hasSibling 25 = false ∧
    (engineRuns (withCall .running 0)).pke.running[0] = some 0 ∧ (engineRuns (withCall .running 0)).ticks = true ∧
    (65 ∈ ({ two with prot := { two.prot with fence := [65] } } : State).prot.fence) ∧ two.prot.hollow = .running ∧ two.prot.watchdog < 500 ∧ two.prot.restartDue = none ∧
    (w.prot.hollow = .restarting ∧ w.prot.restartAt = some 1990 ∧ 1990 < w.frame.num ∧ w.frame.num ≤ 1990 + 5000) := by
  refine ⟨rfl, rfl, rfl, rfl, rfl, by decide, ⟨rfl, rfl, by decide⟩, rfl, by decide, rfl, by decide, by decide, rfl, rfl, by decide, rfl, by decide, rfl, rfl, rfl, by decide, by decide⟩

/-- MailboxMessagesAndDoorbells: requests of a tenant and of the manager taken up, one turned away, one that cannot be consumed, a ring request; a forward within and past 1,000 frames; an enabled pair and its bounds. -/
theorem witness_mailbox :
    (asks two (.fn 1) 1).takesUp (from_ (.fn 1)) 1 (taken two (.fn 1) 1) ∧ (asks two (.fn 0) 2).takesUp (from_ (.fn 0)) 2 (taken two (.fn 0) 2) ∧
    (asks two (.fn 1) 3).takesUp (from_ (.fn 1)) 3 (taken two (.fn 1) 3) ∧ (asks two (.fn 0) 0x84).takesUp (from_ (.fn 0)) 0x84 (taken two (.fn 0) 0x84) ∧
    (asks two (.fn 0) 0x85).takesUp (from_ (.fn 0)) 0x85 (taken two (.fn 0) 0x85) ∧ (asks two (.fn 0) 0x7F).takesUp (from_ (.fn 0)) 0x7F (taken two (.fn 0) 0x7F) ∧
    assignedTypes.contains 0x7F = false ∧ two.consume (from_ (.fn 1)) 1 = none ∧ (taken two (.fn 1) 0x84).turnedAway (from_ (.fn 1)) 0x84 = some 0x12 ∧
    (ringing.consume (from_ (.fn 1)) 1).isSome = true ∧ ringing.heldHollow (from_ (.fn 1)) 1 = false ∧ ((taken two (.fn 0) 2).inst 1).isSome = true ∧
    (taken two (.fn 0) 2).inst 9 = none ∧ two.frame.ticking = true ∧
    (let x : Inst := { share := share1, req := Vector.replicate 16 ([3, 0, 0, 0] ++ zeros 12 ++ padTo 48 [7]) }
     (asks { two with insts := [(1, x)] } (.fn 1) 3).slotHolds (from_ (.fn 1)) 0 [7] = true) ∧
    (2000 < fwd7.latched + 1000 ∧ fwd7.latched + 1000 ≤ 2001) ∧
    (let q : QPair := { en := true, active := true, fetching := 2, cancels := [] }
     q.en = true ∧ q.cancels.length < 16 ∧ 16 ≤ (List.replicate 16 (0 : Reg32)).length ∧ (64 - q.sqHead).toNat ≤ 2 ^ q.sqLog ∧ 2 ^ q.sqLog < (65 - q.sqHead).toNat ∧
       [desc0, desc0].length ≤ q.fetching ∧ 0 < q.fetching) := by
  refine ⟨two_takesUp _ _ rfl, two_takesUp _ _ rfl, two_takesUp _ _ rfl, two_takesUp _ _ rfl, two_takesUp _ _ rfl, two_takesUp _ _ rfl, by decide, rfl, rfl, rfl, rfl, rfl,
    rfl, rfl, rfl, by decide, by decide⟩

/-! ## Registers and keys -/

/-- HostRegistersReadStageAndClear: functions are served; a freeze runs and none does; the tail, a freeze of 10,000 frames; a pair disabled and quiesced; a slot within its bounds. -/
theorem witness_registers :
    two.frame.ticking = true ∧ two.strata.frozen = none ∧
    (let s : State := { two with strata := { two.strata with frozen := some (0, 3) }, frame := { two.frame with cycle := 11800, num := 10000 } }
     s.strata.frozen = some (0, 3) ∧ 11800 ≤ s.frame.cycle ∧ s.strata.thaw = false ∧ s.strata.sideFull = [] ∧ 0 + 10000 ≤ s.frame.num ∧ s.frame.ticking = true) ∧
    (∃ x, two.inst 1 = some x ∧ x.state ≠ .dormant ∧ x.qs[0].en = false ∧ x.qs[0].quiesced = true) ∧ ((tget two.pmc.glob 5).getD {}).loHeld = none ∧
    ((85 : Nat) ≤ (0x154 : Reg32).toNat / 4 % 128 ∧ (0x190 : Reg32).toNat / 4 % 128 ≤ 100) ∧ (0x2400 ≤ 0x2401 ∧ 0x2401 % 4 ≠ 0) := by
  refine ⟨rfl, rfl, ⟨rfl, by decide, rfl, rfl, by decide, rfl⟩, ⟨_, rfl, by decide, rfl, rfl⟩, rfl, by decide, by decide⟩

/-- Both passes up and healthy, A active, B clean for 10,000 frames. -/
def passing : State :=
  { two with
    frame := { two.frame with num := 360000000 }
    passes := { two.passes with chosen := true, period := 3600, revert := true, a := { up := true, healthy := true, mac := 1 }, b := { up := true, healthy := true, clean := 10000, mac := 2, lostControl := true } } }

/-- PassesLinkTestSwapAndReturn: an addressed pass, a standby up, healthy and clean, a period gone by, a standby that had lost control, an unhealthy one, a switch ending. -/
theorem witness_passes :
    passing.frame.ticking = true ∧ passing.twin.silent = false ∧ (passing.pass true).mac ≠ 0 ∧ passing.works = true ∧ passing.passes.chosen = true ∧
    (passing.pass true).up = true ∧ (passing.pass true).test = false ∧ passing.passes.switchDue = none ∧ (passing.pass true).healthy = true ∧
    10000 ≤ (passing.pass true).clean ∧ passing.passes.period ≠ 0 ∧ passing.passes.switchedAt + 100000 * passing.passes.period ≤ passing.frame.num ∧
    passing.passes.revert = true ∧ (passing.pass true).lostControl = true ∧ (two.pass true).healthy = false ∧
    (let s : State := { passing with passes := { passing.passes with oldUntil := some 9 } }; s.passes.oldUntil = some 9 ∧ 9 ≤ s.frame.num) := by
  refine ⟨rfl, rfl, by decide, rfl, rfl, rfl, rfl, rfl, rfl, by decide, by decide, by decide, rfl, rfl, rfl, rfl, by decide⟩

/-- A handle of node 5 of instance 0, version 1. -/
def key5 (t : Nat) : Handle := mkHandle 0 5 1 (BitVec.ofNat 8 t)

/-- A DERIVE key: type 0x01 of level 4. -/
def branch0 : Node := { node0 with ktype := 0x01, level := 4 }

def rec0 : Creation :=
  { parent := key5 0x01, ktype := 0x12, labelLen := 1, usage := 0x0003, policy := 0, uses := 0, bind := 0, label := [1], rsv := false }

/-- A child of node 5 beside it, at index 6, in instance 0. -/
def withChild (n : Node) : State :=
  { two with insts := [(0, { share := managerShare, dir := [(5, { state := .allocated, node := some branch0 }), (6, { state := .allocated, node := some n })] }), (1, { share := share1 })] }

def child0 : Node := { node0 with parent := 5, level := 5, ktype := 0x12, origin := .derived, policy := 0x0003 }

/-- The cut of the frame taken at what stands staged. -/
def cutting (s : State) : State := { s with cut := s.cutHere }

/-- The state in which only this change is staged, at cycle 0. -/
def staging (s : State) (c : Change) : State := cutting { s with staged := [c] }

theorem staging_commits (s : State) (c : Change) (h : s.works = true ∧ s.frame.cycle = 0) (k : (staging s c).mayCommit c = true)
    (p : s.prot.log = [] ∧ s.prot.worldStaged = none ∧ s.prot.gates = [] ∧ s.prot.ungates = [] ∧ s.prot.dbg = 0 ∧ s.prot.dbgEnding = false)
    (t : s.twin.returnEn = false ∧ s.twin.sent = []) (u : s.passes.swapNow = false ∧ s.passes.switchDue = none) : (staging s c).commitsOnly c :=
  ⟨⟨h.1, h.2, rfl⟩, rfl, k, p.1, p.2.1, p.2.2.1, p.2.2.2.1, p.2.2.2.2.1, p.2.2.2.2.2, t.1, t.2, u.1, u.2⟩

/-- As withChild, with nothing of a return due. -/
def still (n : Node) : State := { withChild n with twin := { two.twin with returnEn := false } }

theorem still_commits (n : Node) (c : Change) (k : (staging (still n) c).mayCommit c = true) : (staging (still n) c).commitsOnly c :=
  staging_commits _ _ ⟨rfl, rfl⟩ k ⟨rfl, rfl, rfl, rfl, rfl, rfl⟩ ⟨rfl, rfl⟩ ⟨rfl, rfl⟩

/-- KeysAreCreatedChangedAndEnded: a creation that passes every check, its commit; a mode request and its commit; a replacement of a derived node and its commit; a narrowing within EXPORT and beyond it, and its commit. -/
theorem witness_keys_changed :
    let s := withChild child0
    let h : Handle := mkHandle 0 6 1 0x12
    let t := taken s (.fn 0) 0x10
    ((asks s (.fn 0) 0x10).takesUp (from_ (.fn 0)) 0x10 t ∧ t.keysClosed = false ∧ t.badCreation 0 rec0 = false ∧ derivable rec0.ktype = true ∧
      t.checkHandle 0 rec0.parent = none ∧ t.node (hInst rec0.parent) (hNode rec0.parent) = some branch0 ∧ branch0.usage.getLsbD 8 = true ∧ branch0.level < 11 ∧
      ∃ x, t.inst 0 = some x ∧ x.slotsUsed + 1 ≤ x.share.ksSlots) ∧
    (staging (still { child0 with state := .pending }) (.keyCreate 0 6 (some (.mailbox 0, 0, 0x10)))).commitsOnly (.keyCreate 0 6 (some (.mailbox 0, 0, 0x10))) ∧
    ((asks s (.fn 0) 0x11).takesUp (from_ (.fn 0)) 0x11 (taken s (.fn 0) 0x11) ∧ (taken s (.fn 0) 0x11).checkModeHandle (hInst h) h = none ∧ hNode h ≠ 0) ∧
    (staging (still child0) (.keyMode 0 6 2 (.mailbox 0) 0)).commitsOnly (.keyMode 0 6 2 (.mailbox 0) 0) ∧ (still child0).node 0 6 = some child0 ∧ child0.state = .active ∧
    ((taken s (.fn 0) 0x11).replaceRefused (from_ (.fn 0)) h rec0 1 = none ∧ child0.material = []) ∧
    ((taken s (.fn 0) 0x11).replaceRefused (from_ (.fn 0)) h { rec0 with rsv := true } 1).isSome = true ∧
    (staging (still child0) (.keyReplace 0 6 child0 (.mailbox 0) 0)).commitsOnly (.keyReplace 0 6 child0 (.mailbox 0) 0) ∧ child0.gen < 4094 ∧
    ((asks s (.fn 0) 0x13).takesUp (from_ (.fn 0)) 0x13 (taken s (.fn 0) 0x13) ∧ (taken s (.fn 0) 0x13).checkModeHandle 0 h = none ∧
      (1 : BitVec 4) &&& ~~~(child0.policy.setWidth 4) = 0 ∧ (4 : BitVec 4) &&& ~~~(child0.policy.setWidth 4) ≠ 0) ∧
    (staging (still child0) (.keyNarrow 0 6 1 (.mailbox 0) 0)).commitsOnly (.keyNarrow 0 6 1 (.mailbox 0) 0) := by
  have tu : ∀ m, (taken (withChild child0) (.fn 0) m).turnedAway (from_ (.fn 0)) m = none → (asks (withChild child0) (.fn 0) m).takesUp (from_ (.fn 0)) m (taken (withChild child0) (.fn 0) m) :=
    fun m h => asks_takesUp _ _ _ rfl rfl rfl h
  refine ⟨⟨tu _ rfl, rfl, rfl, by decide, rfl, rfl, by decide, by decide, _, rfl, by decide⟩, still_commits _ _ rfl, ⟨tu _ rfl, rfl, by decide⟩, still_commits _ _ rfl, rfl, rfl,
    ⟨rfl, rfl⟩, rfl, still_commits _ _ rfl, by decide, ⟨tu _ rfl, rfl, by decide, by decide⟩, still_commits _ _ rfl⟩

/-- KeysAreReadMovedReclaimedAndChallenged: a key to read; an exportable key and a wrapping key strong enough, with a use left, without a limit and with none left; a key without EXPORT; a record that unwraps is a value the model leaves open; a reclaim of one index; a challenge 180,000,000 frames old. -/
theorem witness_keys_moved :
    let s := withChild child0
    let h : Handle := mkHandle 0 6 1 0x12
    let t := taken s (.fn 0) 0x14
    ((asks s (.fn 0) 0x12).takesUp (from_ (.fn 0)) 0x12 (taken s (.fn 0) 0x12) ∧ (taken s (.fn 0) 0x12).checkModeHandle 0 h = none) ∧
    ((asks s (.fn 0) 0x14).takesUp (from_ (.fn 0)) 0x14 t ∧ t.keysClosed = false ∧ t.checkHandle 0 h = none ∧ t.node (hInst h) (hNode h) = some child0 ∧
      child0.policy.getLsbD 1 = true ∧ t.isBound (hInst h) (hNode h) = false ∧ wrapStrong 0x12 child0.ktype = true ∧ child0.useLim = false) ∧
    (taken (withChild { child0 with usage := 0xFFFF }) (.fn 0) 0x14).wrapRefused 0 h 2 = none ∧ ({ child0 with policy := 0x4003 } : Node).useLim = true ∧
    ({ child0 with policy := 0x4001 } : Node).policy.getLsbD 1 = false ∧
    ((asks s (.fn 0) 0x15).takesUp (from_ (.fn 0)) 0x15 (taken s (.fn 0) 0x15) ∧ (taken s (.fn 0) 0x15).checkHandle 0 (key5 0x01) = none ∧ (taken s (.fn 0) 0x15).wrapRefused 0 h 3 = none) ∧
    (let r : State := { s with quarry := { s.quarry with reclaim := [{ inst := 0, root := 5, todo := [6], freed := 1 }] } }
     r.quarry.reclaim = [{ inst := 0, root := 5, todo := [6], freed := 1 }] ∧ r.node 0 6 = some child0 ∧ r.quarry.staging.length + 2 ≤ 1048576) ∧
    (asks s (.fn 0) 0x16).takesUp (from_ (.fn 0)) 0x16 (taken s (.fn 0) 0x16) := by
  have tu : ∀ m, (taken (withChild child0) (.fn 0) m).turnedAway (from_ (.fn 0)) m = none → (asks (withChild child0) (.fn 0) m).takesUp (from_ (.fn 0)) m (taken (withChild child0) (.fn 0) m) :=
    fun m h => asks_takesUp _ _ _ rfl rfl rfl h
  refine ⟨⟨tu _ rfl, rfl⟩, ⟨tu _ rfl, rfl, rfl, rfl, by decide, rfl, by decide, by decide⟩, rfl, by decide, by decide, ⟨tu _ rfl, rfl, rfl⟩, ⟨rfl, rfl, by decide⟩, tu _ rfl⟩

/-! ## Custodian ports and tokens -/

/-- OWNED of epoch 0 with three custodians, thresholds 2 and 3, and a challenge one frame old. -/
def owned : State :=
  { still child0 with
    quarry := { two.quarry with l2 := some 1, ownerKeys := true, custodians := [(0, 1, [7]), (1, 1, [7]), (2, 1, [7])], quorum := (2, 3), challenges := [(9, 1999)] }
    life := { two.life with otp := { two.life.otp with lcBase := 3, lcEpoch := 1 } } }

/-- A token of three custodians for a type and class over operation bytes. -/
def token (m cls : Nat) (op : Bytes) : Token :=
  { magic := 0x4B544F31, opcode := BitVec.ofNat 16 m, cls := cls, epoch := 0, challenge := 9, opDigest := Config.sha3 op, rsv := false,
    sigs := [{ index := 0, alg := 1, sig := [8] }, { index := 1, alg := 1, sig := [8] }, { index := 2, alg := 1, sig := [8] }] }

/-- Whether a signature verifies is a value the model leaves open; where this one does, the token is good. -/
theorem token_good (s : State) (m cls need : Nat) (op : Bytes) (hv : ∀ b, Config.verify 1 [7] b [8] = true) (hm : m < 65536) (hn : need ≤ 3)
    (hc : s.quarry.custodians = owned.quarry.custodians) (he : s.epoch = 0) (hl : s.challengeLive 9 = true) : s.tokenFault (token m cls op) m cls need op = none := by
  have e : tokenSigners (token m cls op) = [0, 1, 2] := rfl
  have g : ∀ x ∈ (token m cls op).sigs, s.sigGood (tokenBytes (token m cls op)) x = true := by
    have v := hv (tokenBytes (token m cls op)); simp [token, State.sigGood, hc, owned]; exact v
  have f : (token m cls op).sigs.find? (fun e => !s.sigGood (tokenBytes (token m cls op)) e) = none := by simpa using g
  have c1 : ((token m cls op).rsv || (token m cls op).magic != 0x4B544F31 || (token m cls op).sigs = [] || decide (16 < (token m cls op).sigs.length)) = false := by simp [token]
  have c2 : ¬((token m cls op).epoch ≠ s.epoch ∨ (!s.challengeLive (token m cls op).challenge) = true ∨ (token m cls op).opcode.toNat ≠ m ∨ (token m cls op).opDigest ≠ Config.sha3 op) := by
    simp [token, he, Nat.mod_eq_of_lt hm]; exact hl
  have c3 : ¬((token m cls op).cls < cls ∨ (tokenSigners (token m cls op)).length < need) := by rw [e]; simp [token]; omega
  unfold State.tokenFault
  rw [f, c1]
  simp only [c2, c3, if_false, Bool.false_eq_true]

/-- The token of a request with an inline and an extended body. -/
def tokenOf (m cls : Nat) (body ext : Bytes) : Token := token m cls (opMessage m (token m cls []) body ext)

theorem tokenOf_good (s : State) (m cls need : Nat) (body ext : Bytes) (hv : ∀ b, Config.verify 1 [7] b [8] = true) (hm : m < 65536) (hn : need ≤ 3)
    (hc : s.quarry.custodians = owned.quarry.custodians) (he : s.epoch = 0) (hl : s.challengeLive 9 = true) :
    s.tokenFault (tokenOf m cls body ext) m cls need (opMessage m (tokenOf m cls body ext) body ext) = none := token_good s m cls need _ hv hm hn hc he hl

/-- A token whose magic is wrong has a fault, whatever verifies. -/
theorem token_bad (s : State) (m cls need : Nat) (op op' : Bytes) : s.tokenFault { token m cls op with magic := 0 } m cls need op' = some (0x10, 0xFF) := by
  simp [State.tokenFault, St.descInvalid, token]

/-- A terminal's session on port 0, custodian 1 logged in, one frame sent and unacknowledged. -/
def ported (tries : Nat) : State :=
  { owned with cust := { owned.cust with ports := Vector.replicate 2 { session := some (4, [5]), custodian := some 1, rxSeq := 3, txSeq := 1, unacked := [{ seq := 0, kind := 3, payload := [1], tries := tries }] } } }

def compRec : Creation := { rec0 with usage := 0x0003 }

/-- CustodianPortsComponentsAndRegister: a HELLO's lengths, a frame in order and the last one again, a login that verifies (a value the model leaves open), a frame sent 7 and 8 times, a session 30,000,000 frames idle; an exportable key asked for with a good and a bad token; an import's first and last component; an import and an export 180,000,000 frames old; a proper and an improper register and its commit. -/
theorem witness_custodians (hv : ∀ b, Config.verify 1 [7] b [8] = true) :
    let s := ported 7
    let h : Handle := mkHandle 0 6 1 0x12
    let key := { child0 with policy := 0x0007 }
    let k := { withChild key with quarry := owned.quarry, life := owned.life }
    let kb := leBytes 8 h.toNat ++ leBytes 1 2 ++ [0, 2].flatMap (leBytes 1)
    let ib := importBody 4 1 2 (zeros 32).length (zeros 32)
    let i0 : CompImport := { id := 4, count := 2, len := 32, creation := compRec, got := [(1, 2, zeros 32)], port := 0, tag := 0, at_ := 0 }
    let im := { ported 7 with cust := { (ported 7).cust with imports := [i0] } }
    (s.answers = true ∧ (List.replicate 1184 (0 : Byte)).length = 1184 ∧ (List.replicate 16 (0 : Byte)).length = 16 ∧ 259 % 256 = s.cust.ports[(0 : Fin 2)].rxSeq ∧
      s.cust.ports[(0 : Fin 2)].rxSeq < 256 ∧ (2 + 1) % 256 = s.cust.ports[(0 : Fin 2)].rxSeq ∧ s.cust.ports[(0 : Fin 2)].session = some (4, [5]) ∧
      s.quarry.custodians.any (fun c => c.1 == 1 && c.2.1 == 1 && Config.verify 1 c.2.2 (ascii "WL9640 LOGIN" ++ leBytes 32 (4 : Dig).toNat) [8]) = true ∧
      s.cust.ports[(0 : Fin 2)].waiting = [] ∧ s.cust.ports[(0 : Fin 2)].unacked.find? (fun u => u.seq == 0) = some { seq := 0, kind := 3, payload := [1], tries := 7 } ∧
      (ported 8).cust.ports[(0 : Fin 2)].unacked.find? (fun u => u.seq == 0) = some { seq := 0, kind := 3, payload := [1], tries := 8 } ∧
      s.cust.ports[(0 : Fin 2)].lastSeen + 30000000 ≤ ({ s with frame := { s.frame with num := 30000000 } } : State).frame.num) ∧
    ((asks k (.port 0) 0xC0).takesUp (from_ (.port 0)) 0xC0 (taken k (.port 0) 0xC0) ∧ [0, 2].length = 2 ∧ [0, 2].Nodup ∧
      (∀ x ∈ [0, 2], ∃ g ∈ (tokenOf 0xC0 3 kb []).sigs, g.index = x) ∧ (taken k (.port 0) 0xC0).keysClosed = false ∧ (taken k (.port 0) 0xC0).checkHandle 0 h = none ∧
      hType h ∈ [(0x10 : BitVec 8), 0x11, 0x12, 0x18, 0x19] ∧ (taken k (.port 0) 0xC0).keyNode [] h = some key ∧ key.policy.getLsbD 2 = true ∧
      (taken k (.port 0) 0xC0).isBound (hInst h) (hNode h) = false ∧
      (taken k (.port 0) 0xC0).tokenFault (tokenOf 0xC0 3 kb []) 0xC0 3 ((taken k (.port 0) 0xC0).threshold 3) (opMessage 0xC0 (tokenOf 0xC0 3 kb []) kb []) = none ∧ (taken k (.port 0) 0xC0).cust.exports = [] ∧
      (∀ x ∈ [0, 2], (taken k (.port 0) 0xC0).portOfCustodian x = none) ∧
      (taken k (.port 0) 0xC0).tokenFault { token 0xC0 3 [] with magic := 0 } 0xC0 3 ((taken k (.port 0) 0xC0).threshold 3) (opMessage 0xC0 { token 0xC0 3 [] with magic := 0 } kb []) = some (0x10, 0xFF)) ∧
    ((asks (ported 7) (.port 0) 0xC1).takesUp (from_ (.port 0)) 0xC1 (taken (ported 7) (.port 0) 0xC1) ∧ (zeros 32).length = keyLen compRec.ktype ∧
      compRec.ktype ∈ [(0x10 : BitVec 8), 0x11, 0x12, 0x18, 0x19] ∧ (taken (ported 7) (.port 0) 0xC1).importOf 4 = none ∧ (taken (ported 7) (.port 0) 0xC1).keysClosed = false ∧
      (taken (ported 7) (.port 0) 0xC1).creationRefused 0 compRec 1 = none ∧
      (taken (ported 7) (.port 0) 0xC1).tokenFault (tokenOf 0xC1 3 ib (creationBytes compRec)) 0xC1 3 ((taken (ported 7) (.port 0) 0xC1).threshold 3)
        (opMessage 0xC1 (tokenOf 0xC1 3 ib (creationBytes compRec)) ib (creationBytes compRec)) = none ∧
      (taken im (.port 0) 0xC1).importOf 4 = some i0 ∧ (taken im (.port 0) 0xC1).frame.num < i0.at_ + 180000000 ∧ (∀ g ∈ i0.got, g.2.1 ≠ 1 ∧ g.1 ≠ 2) ∧
      i0.got.length + 1 = 2 ∧ (taken im (.port 0) 0xC1).creationRefused 0 compRec 1 = none) ∧
    (let late := { im with frame := { im.frame with num := 180000000 }, cust := { im.cust with exports := [{ port := 0, tag := 0, parts := [], ktype := 0x12, at_ := 0 }] } }
     late.works = true ∧ late.importOf 4 = some i0 ∧ i0.at_ + 180000000 ≤ late.frame.num) ∧
    ((asks owned (.port 0) 0xC2).takesUp (from_ (.port 0)) 0xC2 (taken owned (.port 0) 0xC2) ∧
      (let keys : List (Nat × Nat × Bytes) := [(0, 1, []), (1, 1, []), (2, 2, [])]
       let eb := registerBytes 3 2 3 keys
       (taken owned (.port 0) 0xC2).tokenFault (tokenOf 0xC2 3 [] eb) 0xC2 3 (max ((taken owned (.port 0) 0xC2).threshold 3) 2) (opMessage 0xC2 (tokenOf 0xC2 3 [] eb) [] eb) = none ∧
       keys.length = 3 ∧ (keys.map (·.1)).Nodup ∧ ∀ e ∈ keys, e.2.1 = 1 ∨ e.2.1 = 2)) ∧
    (staging (still child0) (.custodians 3 2 3 [] (.mailbox 0) 0)).commitsOnly (.custodians 3 2 3 [] (.mailbox 0) 0) := by
  refine ⟨⟨rfl, List.length_replicate, List.length_replicate, rfl, by decide, rfl, rfl, ?_, rfl, rfl, rfl, by decide⟩,
    ⟨asks_takesUp _ _ _ rfl rfl rfl rfl, rfl, by decide, by decide, rfl, rfl, by decide, rfl, by decide, rfl, tokenOf_good _ _ _ _ _ _ hv (by decide) (by decide) rfl rfl rfl, rfl,
      by decide, token_bad _ _ _ _ _ _⟩,
    ⟨asks_takesUp _ _ _ rfl rfl rfl rfl, rfl, by decide, rfl, rfl, rfl, tokenOf_good _ _ _ _ _ _ hv (by decide) (by decide) rfl rfl rfl, rfl, by decide, by decide, rfl, rfl⟩,
    ⟨rfl, rfl, by decide⟩, ⟨asks_takesUp _ _ _ rfl rfl rfl rfl, ⟨tokenOf_good _ _ _ _ _ _ hv (by decide) (by decide) rfl rfl rfl, rfl, by decide, by decide⟩⟩, still_commits _ _ rfl⟩
  simp [ported, owned]; exact hv _

/-! ## The journal, instances, migration, programs -/

/-- The host link of port 0 up, its enables set, and the functions' own. -/
def linked : State :=
  { owned with
    host := { two.host with ports := Vector.replicate 2 { up := true, perst := false, bme := true, vfEnable := true, numVfs := 3, mask := 0 } }
    insts := [(0, { share := managerShare, bme := true }), (1, { share := share1, bme := true })] }

def entry5 : Staged := { seq := 5, frame := 0, inst := 0, kind := 4, node := 0, chain := 6, bytes := zeros 192 }

/-- A journal with a ring of 4,096 slots, SEQ 4 durable and entry 5 staged or written. -/
def journaled (staging written : List Staged) : State :=
  { linked with quarry := { linked.quarry with ring := (0x1000, 12, true), durable := (4, 8), seq := 6, staging := staging, written := written, snapOwed := [(5, 3, .mailbox 0, 0)] } }

def jentry0 : JEntry := { seq := 9, frame := 0, inst := 0, kind := 4, part := 0, node := 0, body := [], tag := 0, chain := 7 }

/-- JournalRingDurabilitySnapshotsAndRestore: ring sizes 12, 24, 11 and 25; staged entries inside the ring and one past it, the ring off and the function down; a durable SEQ with and without its CHAIN, and below; snapshots asked for with and without owner keys, one running; one with nothing left; restores of an anchored and an unanchored entry (whether the tag holds is a value the model leaves open). -/
theorem witness_journal (ho : ∀ k iv hd b, Config.gcmInv k iv hd b 0 = some []) :
    let s := journaled [entry5] []
    let w := journaled [] [entry5]
    let far := journaled [{ entry5 with seq := 4101 }] []
    let r := { linked with quarry := { linked.quarry with ownerKeys := false, anchors := [(9, 7), (10, 7)], durable := (9, 7) } }
    ((asks s (.fn 0) 0xA0).takesUp (from_ (.fn 0)) 0xA0 (taken s (.fn 0) 0xA0) ∧ (taken s (.fn 0) 0xA0).quarry.written = [] ∧ 12 ≤ 12 ∧ 24 ≤ 24 ∧ ¬ 12 ≤ 11 ∧ ¬ 25 ≤ 24 ∧
      (0x1000 : Word).toNat % 4096 = 0 ∧ (taken w (.fn 0) 0xA0).quarry.written ≠ [] ∧ (taken w (.fn 0) 0xA0).quarry.ring = (0x1000, 12, true)) ∧
    (s.ticks = true ∧ s.quarry.ring.2.2 = true ∧ s.functionUp 0 = true ∧ two.functionUp 0 = false ∧ two.quarry.ring.2.2 = false ∧ s.quarry.staging[1]? = none ∧
      far.quarry.staging[0]? = some { entry5 with seq := 4101 } ∧ far.quarry.durable.1 + 2 ^ far.quarry.ring.2.1 < 4101 ∧ s.quarry.durable.1 + 2 ^ s.quarry.ring.2.1 = 4100 ∧
      [entry5].getLast? = some entry5 ∧ (5, 3, Dest.mailbox 0, (0 : BitVec 16)) ∈ s.quarry.snapOwed) ∧
    ((asks w (.fn 0) 0xA1).takesUp (from_ (.fn 0)) 0xA1 (taken w (.fn 0) 0xA1) ∧ (taken w (.fn 0) 0xA1).quarry.durable.1 ≤ 5 ∧ (taken w (.fn 0) 0xA1).chainAt 5 = some 6 ∧
      (taken w (.fn 0) 0xA1).chainAt 4 = some 8 ∧ 3 < (taken w (.fn 0) 0xA1).quarry.durable.1 ∧ (taken w (.fn 0) 0xA1).chainAt 6 ≠ some 6) ∧
    ((asks s (.fn 0) 0xA2).takesUp (from_ (.fn 0)) 0xA2 (taken s (.fn 0) 0xA2) ∧ (taken s (.fn 0) 0xA2).quarry.ownerKeys = true ∧ (taken s (.fn 0) 0xA2).quarry.snap = none ∧
      (taken s (.fn 0) 0xA2).quarry.l2.isSome = true ∧ (taken two (.fn 0) 0xA2).quarry.ownerKeys = false ∧ (asks two (.fn 0) 0xA2).takesUp (from_ (.fn 0)) 0xA2 (taken two (.fn 0) 0xA2)) ∧
    (let u := { s with quarry := { s.quarry with snap := some (2, []) } }; u.ticks = true ∧ u.quarry.snap = some (2, []) ∧ u.quarry.l2.isSome = true) ∧
    ((asks s (.fn 0) 0xA3).takesUp (from_ (.fn 0)) 0xA3 (taken s (.fn 0) 0xA3)) ∧
    ((asks r (.fn 0) 0xA4).takesUp (from_ (.fn 0)) 0xA4 (taken r (.fn 0) 0xA4) ∧ (taken r (.fn 0) 0xA4).quarry.l2.isSome = true ∧ (taken r (.fn 0) 0xA4).quarry.ownerKeys = false ∧
      [jentry0].length ≤ 65536 ∧ (∃ n chain all, (taken r (.fn 0) 0xA4).checkRestore true false [jentry0] = some (n, chain, all) ∧ (taken r (.fn 0) 0xA4).reaches false all = true) ∧
      (taken r (.fn 0) 0xA4).checkRestore true false [{ jentry0 with kind := 3 }] = none) := by
  refine ⟨⟨asks_takesUp _ _ _ rfl rfl rfl rfl, rfl, by decide, by decide, by decide, by decide, rfl, by decide, rfl⟩,
    ⟨rfl, rfl, rfl, rfl, rfl, rfl, rfl, by decide, by decide, rfl, by decide⟩,
    ⟨asks_takesUp _ _ _ rfl rfl rfl rfl, by decide, rfl, rfl, by decide, by decide⟩,
    ⟨asks_takesUp _ _ _ rfl rfl rfl rfl, rfl, rfl, rfl, rfl, two_takesUp _ _ rfl⟩, ⟨rfl, rfl, rfl⟩, asks_takesUp _ _ _ rfl rfl rfl rfl,
    ⟨asks_takesUp _ _ _ rfl rfl rfl rfl, rfl, rfl, by decide, ⟨9, 7, [{ jentry0 with body := [] }], ?_, rfl⟩, rfl⟩⟩
  have h : ∀ k ro, openEntry k ro jentry0 = some { jentry0 with body := [] } := fun k ro => by
    have v := ho k (journalIv 9 ro) (journalHead 9 0 0 4 0 0) (padTo 128 [])
    simp only [openEntry, jentry0] at v ⊢
    rw [v]; rfl
  have a : (taken { linked with quarry := { linked.quarry with ownerKeys := false, anchors := [(9, 7), (10, 7)], durable := (9, 7) } } (.fn 0) 0xA4).anchored false jentry0 = true := by
    simp [State.anchored, jentry0, jSnapBegin, taken, asks, State.dropHeld]
  simp only [State.checkRestore, if_true]
  rw [a, h]; rfl

/-- A share like instance 1's with other sessions. -/
def shareB : Share := { share1 with sessions := 0 }

def zeroMins : List Nat := [0, 0, 0, 0, 0]

/-- Instance 1 with a change. -/
def withInst (x : Inst) : State := { owned with insts := [(0, { share := managerShare }), (1, x)] }

def resetting (r : Reset) : Inst := { share := share1, state := .resetting, reset := some r, dir := [(5, { state := .allocated, node := some child0 })] }
def reset0 : Reset := { remove := false, flr := false, at_ := 1997, step := 2, owed := [(.mailbox 1, 0x82, 0)] }

/-- InstancesAreCreatedResetRemovedAndShared: a free ID with a share that fits and one that does not; an instance with no reset; a reset staged, at its commit and three frames on, and two; a share that keeps and one that changes pairs; a change within occupancy and below it; a shrink within it and not. -/
theorem witness_instances :
    let big : Share := { share1 with jobSlots := 16320, ksSlots := 4294967295 }
    let s := withInst { share := share1 }
    let m : Inst := { share := share1, label := zeros 32 }
    let busy := { withInst { share := share1, slotsUsed := 1, shrink := some (.mailbox 0, 0) } with jobs := [{ job0 with inst := 1 }] }
    ((asks owned (.fn 0) 0x80).takesUp (from_ (.fn 0)) 0x80 (taken owned (.fn 0) 0x80) ∧ (taken owned (.fn 0) 0x80).isOwned = true ∧ shareGood { share1 with mins := zeroMins } = true ∧ shareGood big = true ∧
      (taken owned (.fn 0) 0x80).idFree 2 = true ∧ (taken owned (.fn 0) 0x80).idFree 1023 = true ∧ (taken owned (.fn 0) 0x80).sharesFit (tset (taken owned (.fn 0) 0x80).shares 2 { share1 with mins := zeroMins }) = true ∧
      (taken owned (.fn 0) 0x80).sharesFit (tset (taken owned (.fn 0) 0x80).shares 2 big) = false) ∧
    (staging (still child0) (.instCreate 2 m (.mailbox 0) 0)).commitsOnly (.instCreate 2 m (.mailbox 0) 0) ∧
    ((taken s (.fn 0) 0x81).inst 1 = some { share := share1 } ∧ (asks s (.fn 0) 0x81).takesUp (from_ (.fn 0)) 0x81 (taken s (.fn 0) 0x81) ∧
      (asks s (.fn 0) 0x82).takesUp (from_ (.fn 0)) 0x82 (taken s (.fn 0) 0x82)) ∧
    (let c := staging { withInst (resetting reset0) with jobs := [{ job0 with inst := 1 }] } (.instReset 1)
     c.commitsOnly (.instReset 1) ∧ c.inst 1 = some (resetting reset0) ∧ (c.jobs.map (·.slot)).Nodup) ∧
    ((withInst (resetting reset0)).inst 1 = some (resetting reset0) ∧ 2 ≤ reset0.step ∧ reset0.at_ + 3 ≤ (withInst (resetting reset0)).frame.num ∧
      (withInst (resetting reset0)).frame.num < 1998 + 3 ∧ reset0.thenRemove = [] ∧ reset0.exported = false ∧ ({ reset0 with remove := true } : Reset).remove = true) ∧
    ((asks s (.fn 0) 0x83).takesUp (from_ (.fn 0)) 0x83 (taken s (.fn 0) 0x83) ∧ shareGood shareB = true ∧ (taken s (.fn 0) 0x83).sharesFit (tset (taken s (.fn 0) 0x83).shares 1 shareB) = true ∧
      (taken s (.fn 0) 0x83).sharesFit (tset (taken s (.fn 0) 0x83).shares 1 big) = false ∧ shareB.personality = share1.personality ∧ shareB.vectors = share1.vectors ∧
      shareB.qpairs = share1.qpairs ∧ shareGood { share1 with qpairs := 1 } = true ∧ ({ share1 with qpairs := 1 } : Share).qpairs ≠ share1.qpairs) ∧
    ((staging owned (.shareSet 1 shareB (.mailbox 0) 0)).commitsOnly (.shareSet 1 shareB (.mailbox 0) 0) ∧ owned.inflightOf 1 ≤ shareB.jobSlots ∧
      busy.inflightOf 1 = 1 ∧ ¬ busy.inflightOf 1 ≤ 0) ∧
    (busy.inst 1 = some { share := share1, slotsUsed := 1, shrink := some (.mailbox 0, 0) } ∧ busy.inflightOf 1 ≤ share1.jobSlots ∧ 1 ≤ share1.ksSlots) := by
  refine ⟨⟨asks_takesUp _ _ _ rfl rfl rfl rfl, rfl, rfl, rfl, rfl, rfl, rfl, rfl⟩, still_commits _ _ rfl, ⟨rfl, asks_takesUp _ _ _ rfl rfl rfl rfl, asks_takesUp _ _ _ rfl rfl rfl rfl⟩,
    ⟨staging_commits _ _ ⟨rfl, rfl⟩ rfl ⟨rfl, rfl, rfl, rfl, rfl, rfl⟩ ⟨rfl, rfl⟩ ⟨rfl, rfl⟩, rfl, by decide⟩, ⟨rfl, by decide, by decide, by decide, rfl, rfl, rfl⟩,
    ⟨asks_takesUp _ _ _ rfl rfl rfl rfl, rfl, rfl, rfl, rfl, rfl, rfl, rfl, by decide⟩,
    ⟨staging_commits _ _ ⟨rfl, rfl⟩ rfl ⟨rfl, rfl, rfl, rfl, rfl, rfl⟩ ⟨rfl, rfl⟩ ⟨rfl, rfl⟩, by decide, rfl, by decide⟩, ⟨rfl, by decide, by decide⟩⟩

def dirty0 : Dirty := { en := true, a := 0x1000, b := 0x2000, base := 0x200000, len := 0x200000 }
def cert0 : OwnerCert := { epoch := 0, tree := 0, alg := 2, pub := [4], sig := [5], rsv := false }
def target0 : TargetStatement := { encapKey := [], epoch := 0, frame := 0, sig := [6], rsv := false }
def tree0 : Tree := { next := 0, reserved := 0, pub := [4], secret := [], cert := some [] }

/-- Instance 1 with a change, the host link up, the owner key known, a certified tree. -/
def withInstL (x : Inst) : State :=
  { linked with insts := [(0, { share := managerShare, bme := true }), (1, x)], life := { linked.life with ock := some (2, [3]), trees := [tree0] } }

def exporting (n : Nat) : Export := { dest := .mailbox 0, tag := 0, addr := 0, parts := List.replicate n [1] }

/-- MigrationLogsFreezesMovesAndThaws: buffers and a range aligned and not, its length 2^40; an instance that logs, swaps, or neither; a swap with one page marked; an ACTIVE, STALLED, FROZEN one; a freeze with no job and with one; 4,276 and 4,275 bytes of room, a certified tree; an export nothing refuses (whether the certificate verifies is a value the model leaves open) with 64 parts and 65 left; a package too short to open, a free ID; thaws of a FROZEN instance and of another. A package that opens is a value the model leaves open. -/
theorem witness_migration (hv : ∀ a k b g, Config.verify a k b g = true) :
    let s := withInstL { share := share1, dirty := { dirty0 with marks := [7], outside := 3 } }
    let w := withInstL { share := share1, dirty := { dirty0 with onB := true, other := [7], outsideOld := 3, swap := some (.mailbox 0, 0) } }
    let f := withInstL { share := share1, state := .frozen, freeze := some (.mailbox 0, 0) }
    let e := withInstL { share := share1, state := .frozen }
    let t := taken e (.fn 0) 0x8B
    ((asks s (.fn 0) 0x88).takesUp (from_ (.fn 0)) 0x88 (taken s (.fn 0) 0x88) ∧ (∃ x, (taken s (.fn 0) 0x88).inst 1 = some x) ∧ (0x1000 : Word).toNat % 8 = 0 ∧
      ¬ (0x1004 : Word).toNat % 8 = 0 ∧ 0x200000 % 2 ^ 21 = 0 ∧ 2 ^ 40 % 2 ^ 21 = 0 ∧ 2 ^ 40 ≤ 2 ^ 40 ∧ ¬ 2 ^ 41 ≤ 2 ^ 40) ∧
    ((staging owned (.dirtySet 1 dirty0 (.mailbox 0) 0)).commitsOnly (.dirtySet 1 dirty0 (.mailbox 0) 0) ∧ (owned.inst 1).isSome = true) ∧
    ((asks s (.fn 0) 0x89).takesUp (from_ (.fn 0)) 0x89 (taken s (.fn 0) 0x89) ∧ (∃ x, (taken s (.fn 0) 0x89).inst 1 = some x ∧ x.dirty.en = true ∧ x.dirty.swap = none) ∧
      (∃ x, (taken w (.fn 0) 0x89).inst 1 = some x ∧ x.dirty.swap.isSome = true) ∧ (∃ x, (taken owned (.fn 0) 0x89).inst 1 = some x ∧ x.dirty.en = false)) ∧
    (staging owned (.dirtySwap 1 (.mailbox 0) 0)).commitsOnly (.dirtySwap 1 (.mailbox 0) 0) ∧
    (∃ x, w.inst 1 = some x ∧ x.dirty.swap = some (.mailbox 0, 0) ∧ w.functionUp 0 = true ∧ x.dirty.other = [7]) ∧
    ((asks s (.fn 0) 0x8A).takesUp (from_ (.fn 0)) 0x8A (taken s (.fn 0) 0x8A) ∧ (∃ x, (taken s (.fn 0) 0x8A).inst 1 = some x ∧ x.state = .active) ∧
      (∃ x, (taken f (.fn 0) 0x8A).inst 1 = some x ∧ x.state = .frozen)) ∧
    ((staging owned (.migFreeze 1 (.mailbox 0) 0)).commitsOnly (.migFreeze 1 (.mailbox 0) 0) ∧ ∃ x, owned.inst 1 = some x ∧ x.state = .active) ∧
    ((∃ x, f.inst 1 = some x ∧ x.freeze = some (.mailbox 0, 0) ∧ x.outstanding = 0) ∧ f.inflightOf 1 = 0 ∧ ({ f with jobs := [{ job0 with inst := 1 }] } : State).inflightOf 1 ≠ 0) ∧
    ((asks s (.fn 0) 0x8E).takesUp (from_ (.fn 0)) 0x8E (taken s (.fn 0) 0x8E) ∧ 4275 < 4276 ∧ (taken s (.fn 0) 0x8E).signTree.isSome = true) ∧
    ((asks e (.fn 0) 0x8B).takesUp (from_ (.fn 0)) 0x8B t ∧ (∃ x, t.inst 1 = some x ∧ t.exportRefused x target0 cert0 = none ∧ (t.makePackage 1 x []).isSome = true) ∧
      (∃ x, (taken s (.fn 0) 0x8B).inst 1 = some x ∧ (taken s (.fn 0) 0x8B).exportRefused x target0 cert0 = some 0x10)) ∧
    ((∃ x, (withInstL { share := share1, export_ := some (exporting 64) }).inst 1 = some x ∧ x.export_ = some (exporting 64)) ∧ linked.functionUp 0 = true ∧
      (exporting 64).parts.length ≤ 64 ∧ 64 < (exporting 65).parts.length ∧ ∀ p ∈ (exporting 65).parts, p ≠ []) ∧
    ((asks s (.fn 0) 0x8C).takesUp (from_ (.fn 0)) 0x8C (taken s (.fn 0) 0x8C) ∧ (taken s (.fn 0) 0x8C).isOwned = true ∧ shareGood { share1 with mins := zeroMins } = true ∧
      (taken s (.fn 0) 0x8C).idFree 2 = true ∧ (taken s (.fn 0) 0x8C).sharesFit (tset (taken s (.fn 0) 0x8C).shares 2 { share1 with mins := zeroMins }) = true ∧
      (taken s (.fn 0) 0x8C).openPackage [] = none) ∧
    (staging owned (.migImport 2 { share := share1 } (.mailbox 0) 0)).commitsOnly (.migImport 2 { share := share1 } (.mailbox 0) 0) ∧
    ((asks e (.fn 0) 0x8D).takesUp (from_ (.fn 0)) 0x8D (taken e (.fn 0) 0x8D) ∧ (∃ x, (taken e (.fn 0) 0x8D).inst 1 = some x ∧ x.state = .frozen) ∧
      (∃ x, (taken s (.fn 0) 0x8D).inst 1 = some x ∧ x.state ≠ .frozen)) ∧
    (let c := staging { e with twin := owned.twin } (.migThaw 1 (.mailbox 0) 0); c.commitsOnly (.migThaw 1 (.mailbox 0) 0) ∧ ∃ x, c.inst 1 = some x ∧ x.state = .frozen) := by
  have oc : ∀ c, (staging owned c).mayCommit c = true → (staging owned c).commitsOnly c := fun c h => staging_commits _ _ ⟨rfl, rfl⟩ h ⟨rfl, rfl, rfl, rfl, rfl, rfl⟩ ⟨rfl, rfl⟩ ⟨rfl, rfl⟩
  refine ⟨⟨asks_takesUp _ _ _ rfl rfl rfl rfl, ⟨_, rfl⟩, by decide, by decide, by decide, by decide, by decide, by decide⟩, ⟨oc _ rfl, rfl⟩,
    ⟨asks_takesUp _ _ _ rfl rfl rfl rfl, ⟨_, rfl, rfl, rfl⟩, ⟨_, rfl, rfl⟩, ⟨_, rfl, rfl⟩⟩, oc _ rfl, ⟨_, rfl, rfl, rfl, rfl⟩,
    ⟨asks_takesUp _ _ _ rfl rfl rfl rfl, ⟨_, rfl, rfl⟩, ⟨_, rfl, rfl⟩⟩, ⟨oc _ rfl, ⟨_, rfl, rfl⟩⟩, ⟨⟨_, rfl, rfl, rfl⟩, rfl, by decide⟩,
    ⟨asks_takesUp _ _ _ rfl rfl rfl rfl, by decide, rfl⟩,
    ⟨asks_takesUp _ _ _ rfl rfl rfl rfl, ⟨_, rfl, ?_, rfl⟩, ⟨_, rfl, rfl⟩⟩,
    ⟨⟨_, rfl, rfl⟩, rfl, by decide, by decide, by decide⟩,
    ⟨asks_takesUp _ _ _ rfl rfl rfl rfl, rfl, rfl, rfl, rfl, rfl⟩, oc _ rfl,
    ⟨asks_takesUp _ _ _ rfl rfl rfl rfl, ⟨_, rfl, rfl⟩, ⟨_, rfl, by decide⟩⟩, ⟨staging_commits _ _ ⟨rfl, rfl⟩ rfl ⟨rfl, rfl, rfl, rfl, rfl, rfl⟩ ⟨rfl, rfl⟩ ⟨rfl, rfl⟩, ⟨_, rfl, rfl⟩⟩⟩
  have g : ∀ s : State, s.life.ock = some (2, [3]) → s.epoch = 0 → s.certGood cert0 (targetBytes target0) target0.sig = true := fun s h k => by
    simp [State.certGood, State.ownerSigned, h, k, cert0, hv]
  simp only [State.exportRefused]
  rw [g _ rfl rfl]; rfl

/-- A target key kept. -/
def targetKey0 : TargetKey := { encap := [1], decap := [3] }

/-- A package without a body for the key kept, its owner certificate last. -/
def pack0 : Bytes := [0x31, 0x47, 0x49, 0x4D, 1, 0] ++ zeros 1690 ++ zeros 2692 ++ [0x31, 0x52, 0x43, 0x4F, 0, 0, 2] ++ zeros 81

/-- MigrationLogsFreezesMovesAndThaws, its import: a package that opens (that its signatures verify, its digest meets and its body reads are values the model leaves open). -/
theorem witness_import (hv : ∀ a k b g, Config.verify a k b g = true) (hs : ∀ b, Config.sha3 b = 0) (hm : ∀ b, Config.migOpen b = some { share := share1 }) :
    let s := { owned with mail := { owned.mail with targets := [targetKey0] }, life := { owned.life with ock := some (2, [3]) } }
    ∃ x k, s.openPackage pack0 = some (x, k) ∧ x.slotsUsed ≤ share1.ksSlots := by
  intro s
  refine ⟨{ share := share1 }, targetKey0, ?_, Nat.zero_le _⟩
  unfold State.openPackage
  have c : ∀ (q : State), q.life.ock = some (2, [3]) → q.epoch = 0 → ∀ m g, q.certGood (parseCert (pack0.drop 4388)) m g = true := fun q h k m g => by
    unfold State.certGood State.ownerSigned
    simp only [hv, h, k]
    decide +kernel
  have e1 : leNat ((pack0.drop 56).take 4) = 0 := by decide +kernel
  have e2 : leNat ((pack0.drop 48).take 8) = 0 := by decide +kernel
  have e3 : leNat ((pack0.drop 16).take 32) = 0 := by decide +kernel
  have e4 : ((leNat (pack0.take 4) = 1296647985 ∧ leNat ((pack0.drop 4).take 2) = 1) ∧ 0 = (chunkSize - 1) / chunkSize) ∧ 4476 ≤ pack0.length := by decide +kernel
  simp only [e1, e2, e3, Nat.mul_zero, Nat.add_zero]
  simp [hs, hm, openChunks, s]
  exact ⟨e4, c _ rfl rfl _ _⟩

/-- A program 0x1000 of the first personality: 16 KiB of window, blocks of 16, one word of image, signed under key 0. -/
def image1 : ProgImage :=
  { file := [0x31, 0x4E, 0x49, 0x47, 0, 0x10, 0, 0, 2, 16, 16, 0] ++ zeros 4 ++ [4, 0, 0, 0] ++ zeros 26 ++ [0xFF, 0xFF] ++ zeros 80 ++ zeros 8 ++ [1, 0, 0, 0, 1, 0, 0, 0, 8] }
def program1 : Program := { header := parseHeader image1.file, measure := 0, slots := 1, version := 0, image := zeros 4 }
/-- Map 3: records of 2 bytes in character set 1, one field; a table 0x100 behind it. -/
def body1 : Bytes :=
  [0x31, 0x50, 0x41, 0x4D, 3, 1, 2, 0, 1] ++ zeros 55 ++ [0, 0, 2, 0, 1, 7] ++ zeros 10 ++ [0, 1] ++ zeros 262
def map1 : RecMap := parseMap body1

/-- Instance 1 of the record channel with programs, bindings and maps. -/
def holding (progs : Table Program) (binds : Table Dig) (maps : Table RecMap) : State :=
  { owned with
    insts := [(0, { share := managerShare }), (1, { share := { share1 with personality := 2 }, progs := progs, binds := binds, maps := maps })]
    quarry := { owned.quarry with progKeys := [(0, 1, [7])] } }

/-- ProgramsBindingsAndRecordMaps: a program in order, loaded and not (whether its signature verifies is a value the model leaves open; under a key index not in the register it does not); a listing; the first binding and the 255th; maps of a record-channel instance and of another, without a fault and with its first byte wrong; a map to remove. -/
theorem witness_programs (hv : ∀ b, Config.verify 1 [7] b [8] = true) :
    let s := holding [] [] []
    let l := holding [(0x1000, program1)] [] [(3, map1)]
    let full := holding [] ((List.range 254).map (fun k => (k + 1, (0 : Dig)))) []
    (∃ x, s.inst 1 = some x ∧ tget x.progs 0x1000 = none ∧ x.slotsUsed + 1 ≤ x.share.ksSlots ∧ x.progs.length < 256) ∧
    (headerBad (parseHeader image1.file) 0x1000 = false ∧ ((parseHeader image1.file).imageLen + (parseHeader image1.file).constLen + 127) / 128 = 1 ∧
      progSig image1 = some { alg := 1, index := 0, rsv := false, sig := [8] } ∧
      s.quarry.progKeys.any (fun k => k.1 == 0 && k.2.1 == 1 && Config.verify 1 k.2.2 (image1.file.take 132) [8]) = true ∧
      s.quarry.progKeys.any (fun k => k.1 == 1 && k.2.1 == 1 && Config.verify 1 k.2.2 (image1.file.take 132) [8]) = false) ∧
    (∀ m ∈ [0x20, 0x21, 0x22, 0x23, 0x24, 0x28, 0x29], (asks l (.fn 1) m).takesUp (from_ (.fn 1)) m (taken l (.fn 1) m)) ∧
    (∃ x, l.inst 1 = some x ∧ tget x.progs 0x1000 = some program1 ∧ x.slotsUsed + (1 - program1.slots) ≤ x.share.ksSlots ∧ (tget x.maps 3).isSome = true) ∧
    ((staging owned (.progSet 1 0x1000 program1 (.mailbox 1) 0 0x20)).commitsOnly (.progSet 1 0x1000 program1 (.mailbox 1) 0 0x20) ∧
      (staging owned (.progSet 1 0x1000 program1 (.mailbox 1) 0 0x20)).progFits 1 0x1000 program1 = true ∧ owned.progFits 1 0x1000 { program1 with slots := 101 } = false ∧
      (staging owned (.progRemove 1 0x1000 (.mailbox 1) 0)).commitsOnly (.progRemove 1 0x1000 (.mailbox 1) 0)) ∧
    ((∃ x, s.inst 1 = some x ∧ tget x.binds 1 = none) ∧ s.staged = [] ∧
      ∃ x, full.inst 1 = some x ∧ tget x.binds 255 = none ∧ ∀ n ∈ (List.range 254).map (· + 1), (tget x.binds n).isSome = true) ∧
    (staging owned (.bindAdd 1 1 4 (.mailbox 1) 0)).commitsOnly (.bindAdd 1 1 4 (.mailbox 1) 0) ∧
    ((∃ x, (taken two (.fn 1) 0x28).inst 1 = some x ∧ x.share.personality ≠ 2) ∧ parseTables body1 map1.fields.length = [(0x100, zeros 256)] ∧
      shapeFaults body1 map1 ++ (taken l (.fn 1) 0x28).mapFaults 1 map1 [(0x100, zeros 256)] = [] ∧ (addTables [] [(0x100, zeros 256)]).length ≤ 64 ∧
      (let b := (0 : Byte) :: body1.tail; some 0 ∈ shapeFaults b (parseMap b) ++ (taken l (.fn 1) 0x28).mapFaults 1 (parseMap b) (parseTables b (parseMap b).fields.length)) ∧
      (taken l (.fn 1) 0x28).tokenFault (tokenOf 0x28 3 [] body1) 0x28 3 (taken l (.fn 1) 0x28).quarry.quorum.1 (opMessage 0x28 (tokenOf 0x28 3 [] body1) [] body1) = none) ∧
    (addTables ((List.range 65).map (fun n => (n, ([] : Bytes)))) []).length = 65 ∧
    (staging owned (.mapInstall 1 map1 [(0x100, zeros 256)] (.mailbox 1) 0)).commitsOnly (.mapInstall 1 map1 [(0x100, zeros 256)] (.mailbox 1) 0) ∧
    (staging owned (.mapRemove 1 3 (.mailbox 1) 0)).commitsOnly (.mapRemove 1 3 (.mailbox 1) 0) := by
  have oc : ∀ c, (staging owned c).mayCommit c = true → (staging owned c).commitsOnly c := fun c h => staging_commits _ _ ⟨rfl, rfl⟩ h ⟨rfl, rfl, rfl, rfl, rfl, rfl⟩ ⟨rfl, rfl⟩ ⟨rfl, rfl⟩
  refine ⟨⟨_, rfl, rfl, by decide, by decide⟩, ⟨by decide, by decide, by decide, ?_, rfl⟩, ?_, ⟨_, rfl, rfl, by decide, rfl⟩, ⟨oc _ rfl, rfl, rfl, oc _ rfl⟩,
    ⟨⟨_, rfl, rfl⟩, rfl, _, rfl, by decide +kernel, by decide +kernel⟩, oc _ rfl, ⟨⟨_, rfl, by decide⟩, by decide +kernel, by decide +kernel, by decide +kernel, by decide +kernel, tokenOf_good _ _ _ _ _ _ hv (by decide) (by decide) rfl rfl rfl⟩, by decide +kernel, oc _ rfl, oc _ rfl⟩
  · simp [holding]; exact hv _
  · intro m hm
    simp only [List.mem_cons, List.mem_nil_iff, or_false] at hm
    rcases hm with rfl | rfl | rfl | rfl | rfl | rfl | rfl <;> exact asks_takesUp _ _ _ rfl rfl rfl rfl

/-! ## Protection, gating, firmware, debug -/

/-- No page of a controller is used by the region: enabled, whole pages base to limit. -/
def region0 (base limit : BitVec 28) : Region :=
  { en := true, lock := false, read := true, write := true, exec := false, atomic := false, world := 1, cls := 0, paged := false, tagged := false, base := base, limit := limit }

def rule0 (base limit : BitVec 28) : Rule := { en := true, read := true, write := false, exec := false, atomic := false, user := true, base := base, limit := limit }

/-- Controller 0 has region 1 at pages 16 to 31 and a locked one, 2; the plain kernel has rule 1 there; page 9 is a Plain stage-2 table, page 10 a Hollow one. -/
def guarded : State :=
  { owned with prot := { owned.prot with
                           regions := [(1, region0 16 31), (2, { region0 64 64 with lock := true })], rules := [(.kernel false, 1, rule0 16 31)],
                           pot := [(9, 1, { owned.owner 9 with kind := 2, world := 1 }), (10, 1, { owned.owner 9 with kind := 2, world := 2 })], fence := [], log := [] },
                host := { owned.host with mem := (15, 600, 0, false) } }

def clearOf (s : State) (base limit : BitVec 28) : Bool :=
  s.stagedView.prot.regions.all (fun e => e.1 == 0 || decide (16 ≤ e.1) || !e.2.en || decide (limit.toNat < e.2.base.toNat) || decide (e.2.limit.toNat < base.toNat))

/-- ProtectionChangesAreStagedAndCommit: a region below, above and meeting another; a locked one kept; page counts 1 and 65,536; 64 colours; pages with entries in DRAM and in the protected range; rules clear and not; owners of stage-2 pages and roots at 1,023 and 1,024; 32 lanes; commits with a fence, without one and of a world. -/
theorem witness_protection :
    guarded.works = true ∧ guarded.hollowUp = true ∧
    (clearOf guarded 0 15 = true ∧ clearOf guarded 32 40 = true ∧ clearOf guarded 15 16 = false ∧ (region0 0 15).world ≠ 0 ∧ (0 : BitVec 28).toNat ≤ (15 : BitVec 28).toNat ∧
      tget guarded.stagedView.prot.regions 2 = some { region0 64 64 with lock := true } ∧ ¬ (2 : BitVec 28).toNat ≤ (1 : BitVec 28).toNat) ∧
    (guarded.hasEntry 53526528 = true ∧ guarded.hasEntry (53526528 + 65536 - 1) = true ∧ 53526528 + 65536 ≤ 0x8000000 ∧ guarded.hasEntry 0x8000000 = true ∧ 0x8000000 + 1 ≤ 0x8004000) ∧
    (53526528 < 0x8000000 ∧ (List.replicate 64 (0 : BitVec 4)).length = 64) ∧
    ((Ctxt.kernel false, 1, rule0 16 31) ∈ guarded.stagedView.prot.rules ∧ (31 : BitVec 28).toNat < (32 : BitVec 28).toNat ∧ ¬ (31 : BitVec 28).toNat < (31 : BitVec 28).toNat) ∧
    ((guarded.stagedView.owner (0x9008 / 4096)).kind = 2 ∧ (guarded.stagedView.owner (0x9008 / 4096)).world = 1 ∧ (guarded.stagedView.owner (0xA008 / 4096)).world = 2 ∧
      0x9008 % 8 = 0 ∧ 1023 < 1024 ∧ 1024 < 2048) ∧
    ((List.range 64).filter (fun n => (0x00000000FFFFFFFF : BitVec 64).getLsbD n)).length ≤ 32 ∧
    guarded.quietCommit ∧ guarded.prot.gates = [] ∧ guarded.prot.ungates = [] ∧ guarded.prot.fence = [] ∧ guarded.prot.worldStaged = none ∧ guarded.prot.log = [] ∧
    ({ guarded with prot := { guarded.prot with fence := [64] } } : State).prot.fence ≠ [] ∧
    (let c := cutting { guarded with prot := { guarded.prot with log := [.region 0 3 (region0 0 15)] } }; c.quietCommit ∧ c.prot.log = [.region 0 3 (region0 0 15)]) ∧
    (let c := cutting { guarded with prot := { guarded.prot with worldStaged := some 0xFFFFFFFF00000000 } }; c.quietCommit ∧ c.prot.worldStaged = some 0xFFFFFFFF00000000) := by
  refine ⟨rfl, rfl, ⟨rfl, rfl, rfl, by decide, by decide, rfl, by decide⟩, ⟨rfl, rfl, by decide, rfl, by decide⟩, ⟨by decide, rfl⟩, ⟨by decide, by decide, by decide⟩,
    ⟨rfl, rfl, rfl, by decide, by decide, by decide⟩, by decide, ⟨⟨rfl, rfl, rfl⟩, rfl, rfl, rfl, rfl, rfl, rfl, rfl⟩, rfl, rfl, rfl, rfl, rfl, by decide,
    ⟨⟨⟨rfl, rfl, rfl⟩, rfl, rfl, rfl, rfl, rfl, rfl, rfl⟩, rfl⟩, ⟨⟨rfl, rfl, rfl⟩, rfl, rfl, rfl, rfl, rfl, rfl, rfl⟩, rfl⟩

/-- Domain 0's clock is to be gated. -/
def gate0 (denied : Bool) : Gate := { domain := 0, action := 1, tag := 5, commit := 2000, denied := denied }
def gating (gs us : List Gate) (pg : BitVec 32) (num : Nat) : State :=
  { owned with prot := { owned.prot with gates := gs, ungates := us, powerGated := pg, log := [] }, frame := { owned.frame with num := num } }

/-- GatingRunsFromRequestToBoundary: requests allowed, for division, and for the last of its kind; a gate committed, denied, busy; an ungate ten frames on and nine; at the commit, each action. -/
theorem witness_gating :
    ((asks owned (.fn 0) 0xC8).takesUp (from_ (.fn 0)) 0xC8 (taken owned (.fn 0) 0xC8) ∧ (asks owned (.fn 0) 0xC9).takesUp (from_ (.fn 0)) 0xC9 (taken owned (.fn 0) 0xC9) ∧
      (taken owned (.fn 0) 0xC8).prot.gates = [] ∧ (taken owned (.fn 0) 0xC8).prot.clockGated = 0 ∧ (gating [] [] 0x8000 0).prot.powerGated.getLsbD 15 = true) ∧
    (∀ g ∈ (taken owned (.fn 0) 0xC9).prot.gates ++ (taken owned (.fn 0) 0xC9).prot.ungates, g.domain < 23) ∧
    (let s := gating [gate0 false] [] 0 2001
     s.works = true ∧ s.prot.gates = [gate0 false] ∧ (gate0 false).commit < s.frame.num ∧ (gate0 false).busy = false ∧ s.prot.hollow ≠ .restarting ∧ s.domainRuns 0 = false ∧
       (gate0 true).denied = true ∧ s.hollowUp = true) ∧
    (let s := gating [] [{ gate0 false with action := 0, commit := 1990 }] 1 2000
     s.works = true ∧ s.prot.ungates = [{ gate0 false with action := 0, commit := 1990 }] ∧ s.prot.powerGated.getLsbD 0 = true ∧ 1990 + 10 ≤ s.frame.num ∧ s.frame.num < 1991 + 10) ∧
    (let s := gating [gate0 true] [] 0 2000; s.quietCommit ∧ s.prot.log = [] ∧ s.prot.worldStaged = none ∧ s.prot.gates = [gate0 true] ∧ s.prot.ungates = [] ∧ (gate0 false).commit = s.frame.num) ∧
    (let s := gating [] [gate0 false] 0 2001; s.quietCommit ∧ s.prot.gates = [] ∧ (gate0 false).domain < 22 ∧ (gate0 false).commit < s.frame.num ∧ s.prot.powerGated.getLsbD 0 = false) := by
  refine ⟨⟨asks_takesUp _ _ _ rfl rfl rfl rfl, asks_takesUp _ _ _ rfl rfl rfl rfl, rfl, rfl, by decide⟩, by decide, ⟨rfl, rfl, by decide, rfl, by decide, rfl, rfl, rfl⟩,
    ⟨rfl, rfl, by decide, by decide, by decide⟩, ⟨⟨⟨rfl, rfl, rfl⟩, rfl, rfl, rfl, rfl, rfl, rfl, rfl⟩, rfl, rfl, rfl, rfl, rfl⟩, ⟨⟨⟨rfl, rfl, rfl⟩, rfl, rfl, rfl, rfl, rfl, rfl, rfl⟩, rfl, by decide, by decide, rfl⟩⟩

/-- The vendor's image key. -/
def vendorPub : Bytes := zeros 68

/-- An image of a kind in key slot 0, version 3, without a body. -/
def image (kind : Nat) : FwImage :=
  { file := [0x31, 0x49, 0x57, 0x46, BitVec.ofNat 8 kind, 0, 0, 0, 3] ++ zeros 55 ++ vendorPub ++ zeros 2820 }

/-- Key slot 0 holds the digest of the vendor's image key. -/
def burntKeys (use : BitVec 4) : Otp := { owned.life.otp with vkeyHash := Vector.replicate 8 (Config.sha3 vendorPub), vkeyUse := Vector.replicate 8 use }

def vendored (use : BitVec 4) (lcBase : BitVec 4) (lcEpoch : BitVec 32) : State :=
  { owned with life := { owned.life with otp := { burntKeys use with lcBase := lcBase, lcEpoch := lcEpoch } } }

/-- An image under a burnt key is sound where its signature verifies (a value the model leaves open). -/
theorem image_sound (hv : ∀ a k b g, Config.verify a k b g = true) (s : State) (k : Nat) (hk : k = 1 ∨ k = 2) (h : s.life.otp.vkeyHash = Vector.replicate 8 (Config.sha3 vendorPub))
    (u : s.life.otp.vkeyUse = Vector.replicate 8 1) (r : s.life.otp.vkeyRevoke = 0) (n : onesOf s.life.otp.svnH = 0 ∧ onesOf s.life.otp.svnP = 0) : s.imageFault (image k) k = none := by
  have p : (image k).pub = vendorPub := by rcases hk with rfl | rfl <;> decide +kernel
  have v : s.vendorKey (image k).keySlot 1 (image k).pub = true := by
    rw [p, show (image k).keySlot = 0 by rcases hk with rfl | rfl <;> decide]
    simp [State.vendorKey, h, u, r]
  have f : (!(image k).magicOk || (image k).kind != k || decide (8 ≤ (image k).keySlot) || decide (32 < (image k).svn) ||
      decide (2 ^ (image k).keySlot ≤ (image k).revoke.toNat) || decide (8385656 < (image k).bodyLen) || (image k).rsv || !(image k).whole) = false := by
    rcases hk with rfl | rfl <;> decide +kernel
  have z : onesOf (if k = 1 then s.life.otp.svnH else s.life.otp.svnP) = 0 := by split <;> simp [n.1, n.2]
  unfold State.imageFault
  rw [f, v, hv, z]
  simp

/-- A vendor block of key slot 0 is good where its signature verifies. -/
theorem vendor_key (s : State) (h : s.life.otp.vkeyHash = Vector.replicate 8 (Config.sha3 vendorPub)) (u : s.life.otp.vkeyUse = Vector.replicate 8 2)
    (r : s.life.otp.vkeyRevoke = 0) : s.vendorKey 0 2 vendorPub = true := by simp [State.vendorKey, h, u, r]

def debug0 : DebugCert :=
  { body := [0x31, 0x47, 0x42, 0x44, 1, 0, 1, 0, 0xFE, 0xFF, 0xFF, 0xFF, 4, 0, 0, 0, 9] ++ zeros 47 }
def vendor0 : VendorBlock := { slot := 0, pub := vendorPub, sig := [2], rsv := false }

/-- SEALED with images in CURRENT of both kinds. -/
def bootable : State :=
  { vendored 1 3 0 with
    life := { (vendored 1 3 0).life with hollowCur := some { image := image 1, valid := true }, plainCur := some { image := image 2, valid := true } }
    quarry := { owned.quarry with custodians := [], l2 := none } }

/-- A SEALED unit boots from sound images (whether they verify is a value the model leaves open). -/
theorem bootable_boots (hv : ∀ a k b g, Config.verify a k b g = true) (s : State) (h : s.life = bootable.life) (q : s.quarry.current = none) (t : s.twin.record = none)
    (m : s.host.mem.2.2.2 = false) : s.bootsWith (image 1) (image 2) := by
  have e : ∀ k, k = 1 ∨ k = 2 → s.imageFault (image k) k = none := fun k hk => by
    refine image_sound hv s k hk ?_ ?_ ?_ ?_ <;> rw [h]
    · rfl
    · rfl
    · rfl
    · exact ⟨by decide, by decide⟩
  have o : s.openRecord = bootable.openRecord := by simp only [State.openRecord, State.tlog, h]
  refine ⟨?_, ?_, ?_, ?_, ?_, q, t, m, ?_, ?_, ⟨?_, e 1 (.inl rfl)⟩, ?_, e 2 (.inr rfl)⟩
  · rw [h]; rfl
  · rw [h]; rfl
  · rw [o]; rfl
  all_goals rw [h]; first | rfl | decide

/-- FirmwareUpdateActivationAndDebug: images that verify and one that does not; changes at their commits; an activation with none under way and one, with no job, with one, and in a pair; certificates at each check (rights over both worlds, in a pair, another epoch, no token, no vendor block, all good); rights that end; a lane open to a debugger and closed, halted with a job; a core halted and an address it may read; a good token (whether signatures verify is a value the model leaves open). -/
theorem witness_firmware (hv : ∀ a k b g, Config.verify a k b g = true) :
    let s := { vendored 1 3 1 with life := { (vendored 1 3 1).life with activate := none } }
    let b := bootable
    let t := taken owned (.port 0) 0xD9
    let rights := fun (r : BitVec 7) => staging owned (.debugRights r (some 5) (.mailbox 0) 0)
    let dbg := { runs job0 bankU with prot := { two.prot with dbg := 0x11, haltedCores := [96] } }
    (∀ m ∈ [0xD6, 0xD8, 0xD9, 0xDC], (asks s (.port 0) m).takesUp (from_ (.port 0)) m (taken s (.port 0) m) ∧
      ∀ body ext, (taken s (.port 0) m).tokenFault (tokenOf m 3 body ext) m 3 (taken s (.port 0) m).quarry.quorum.1 (opMessage m (tokenOf m 3 body ext) body ext) = none) ∧
    ((taken s (.port 0) 0xD6).imageFault (image 1) (image 1).kind = none ∧ (taken s (.port 0) 0xD6).imageFault { file := (image 2).file.set 20 1 } 2 = some 1 ∧
      (taken s (.port 0) 0xD6).quarry.l2 = some 1) ∧
    (let c := staging { owned with quarry := { owned.quarry with forward := some ([], 6, false) } } (.imageReady 1 (.mailbox 0) 0)
     c.commitsOnly (.imageReady 1 (.mailbox 0) 0) ∧ c.quarry.forward = some ([], 6, false)) ∧
    (staging owned (.fwCancel 1 (.mailbox 0) 0)).commitsOnly (.fwCancel 1 (.mailbox 0) 0) ∧
    ((asks s (.fn 0) 0xD7).takesUp (from_ (.fn 0)) 0xD7 (taken s (.fn 0) 0xD7) ∧ (taken s (.fn 0) 0xD7).life.activate = none ∧ (taken s (.fn 0) 0xD7).staged = []) ∧
    (staging owned (.fwActivate (.mailbox 0) 0)).commitsOnly (.fwActivate (.mailbox 0) 0) ∧
    (b.twin.record = none ∧ b.jobs = [] ∧ b.works = true ∧ b.bootsWith (image 1) (image 2) ∧ (∃ x, b.inst 0 = some x ∧ (x.rspTail - x.rspHead).toNat < 16) ∧ b.frame.num < 1901 + 100000 ∧
      1900 < b.frame.num ∧ ({ b with jobs := [job0] } : State).jobs ≠ [] ∧
      ({ b with twin := { b.twin with record := some (0, 0, 0), up := true } } : State).twin.record.isSome = true) ∧
    (t.challengeLive 9 = true ∧ debug0.lcs = lcsCode t.life.otp.lcs ∧ debug0.epoch = t.certEpoch ∧ t.twin.record = none ∧
      t.tokenFault (token 0xD9 3 debug0.body) 0xD9 3 t.quarry.quorum.1 debug0.body = none ∧ (token 0xD9 3 debug0.body).challenge = debug0.challenge ∧ ({ body := debug0.body.set 6 2 } : DebugCert).limitKind ≠ 1 ∧
      debug0.shaped = true ∧ vendor0.rsv = false ∧ debug0.rights ≠ 0 ∧ debug0.limitKind = 1 ∧ debug0.frames = 0xFFFFFFFE ∧
      (0x20 : BitVec 7) &&& 0x1F = 0 ∧ (0x02 : BitVec 7).getLsbD 0 = false ∧ t.quarry.custodians ≠ [] ∧ (taken (vendored 2 3 1) (.port 0) 0xD9).vendorKey vendor0.slot 2 vendor0.pub = true) ∧
    (rights 0x01).commitsOnly (.debugRights 0x01 (some 5) (.mailbox 0) 0) ∧ debugByte 0x01 ≠ debugByte 0 ∧ debugByte 0x10 = debugByte 0 ∧
    (let e := { owned with prot := { owned.prot with dbg := 1, dbgLeft := some 0 } }; e.prot.dbg ≠ 0 ∧ e.prot.dbgLeft = some 0) ∧
    (owned.quietCommit ∧ owned.prot.log = [] ∧ owned.prot.worldStaged = none ∧ owned.prot.gates = [] ∧ owned.prot.ungates = []) ∧
    (owned.invasive false = false ∧ dbg.invasive false = true ∧ dbg.invasive true = true ∧
      (let l := dbg.setLane 0 { dbg.lane 0 with stopped := true }; (l.lane 0).stopped = true ∧ (l.lane 0).hollow = false ∧ (l.lane 0).run = some 0 ∧ l.job 0 = some { job0 with block := job0.block })) ∧
    (96 ∈ dbg.prot.haltedCores ∧ dbg.checkAccess (coreAcc 96 .read) 0xC002000000 8 = none ∧ dbg.checkAccess (coreAcc 96 .write) 0xC0023FFFF8 8 = none) := by
  have oc : ∀ c, (staging owned c).mayCommit c = true → (staging owned c).commitsOnly c := fun c h => staging_commits _ _ ⟨rfl, rfl⟩ h ⟨rfl, rfl, rfl, rfl, rfl, rfl⟩ ⟨rfl, rfl⟩ ⟨rfl, rfl⟩
  have tg : ∀ (s : State) m cls need, m < 65536 → need ≤ 3 → s.quarry.custodians = owned.quarry.custodians → s.epoch = 0 → s.challengeLive 9 = true → ∀ body ext, s.tokenFault (tokenOf m cls body ext) m cls need (opMessage m (tokenOf m cls body ext) body ext) = none :=
    fun s m cls need a b c d e body ext => tokenOf_good s m cls need body ext (fun b => hv _ _ _ _) a b c d e
  refine ⟨?_, ⟨image_sound hv _ 1 (.inl rfl) rfl rfl rfl ⟨by decide, by decide⟩, rfl, rfl⟩, ⟨staging_commits _ _ ⟨rfl, rfl⟩ rfl ⟨rfl, rfl, rfl, rfl, rfl, rfl⟩ ⟨rfl, rfl⟩ ⟨rfl, rfl⟩, rfl⟩, oc _ rfl,
    ⟨asks_takesUp _ _ _ rfl rfl rfl rfl, rfl, rfl⟩, oc _ rfl, ⟨rfl, rfl, rfl, bootable_boots hv _ rfl rfl rfl rfl, ⟨_, rfl, by decide⟩, by decide, by decide, by decide, rfl⟩,
    ⟨rfl, rfl, rfl, rfl, token_good _ _ _ _ _ (fun b => hv _ _ _ _) (by decide) (by decide) rfl rfl rfl, rfl, by decide, by decide +kernel, rfl, by decide, by decide, by decide, by decide, by decide, by decide, vendor_key _ rfl rfl rfl⟩, oc _ rfl, by decide, by decide,
    ⟨by decide, rfl⟩, ⟨⟨⟨rfl, rfl, rfl⟩, rfl, rfl, rfl, rfl, rfl, rfl, rfl⟩, rfl, rfl, rfl, rfl⟩, ⟨rfl, rfl, rfl, rfl, rfl, rfl, rfl⟩, ⟨by decide, rfl, rfl⟩⟩
  · intro m hm
    simp only [List.mem_cons, List.mem_nil_iff, or_false] at hm
    rcases hm with rfl | rfl | rfl | rfl <;> exact ⟨asks_takesUp _ _ _ rfl rfl rfl rfl, tg _ _ _ _ (by decide) (by decide) rfl rfl rfl⟩

/-! ## Life cycle -/

/-- A unit of a life-cycle word and epoch word, its vendor return key burnt, unpaired, no transition under way, a challenge live. -/
def lifeAt (lcBase : BitVec 4) (lcEpoch : BitVec 32) : State := vendored 2 lcBase lcEpoch

def comm0 (n q3 q4 : Nat) : CommRecord :=
  { magic := 0x434D5231, n := n, q3 := q3, q4 := q4, ockAlg := 1, inputEn := 0, polarity := 0, meshEn := 0, ock := [], custodians := List.replicate n (1, [7]), rsv := false }

/-- The signatures of every new custodian. -/
def comms (n : Nat) : List SigEntry := (List.range n).map (fun k => { index := k, alg := 1, sig := [8] })

/-- A committed transition of a code in record 0, with nothing else open. -/
def turning (s : State) (code epoch : Nat) (rec : Option CommRecord) : State :=
  let l := s.life
  let w : BitVec 32 := BitVec.ofNat 32 (code + epoch * 256 + 0xA5000000)
  { s with
    life := { l with otp := { l.otp with tlog := l.otp.tlog.set 0 (w, 0, 0) }, trans := some { code := code, epoch := epoch, record := rec, dest := none, committed := true } }
    jobs := [] }

/-- LifeCycleRequestsAndAttestation: COMMISSION in SEALED, in RELEASED of epoch 14 and in OWNED, with 3 and 16 custodians (that they signed is a value the model leaves open); DECOMMISSION, RECOVER and RETURN in their states and in others, under a good token or a vendor block; a transition at its commit with record 0 free; ATTEST with a certified tree, without one and without room; certificates; trees, 15 and 16; status. -/
theorem witness_lifecycle (hv : ∀ a k b g, Config.verify a k b g = true) :
    let sealed_ := { lifeAt 3 0 with quarry := { owned.quarry with custodians := [], l2 := none } }
    let rel := lifeAt 3 (2 ^ 30 - 1)
    let tam := { owned with life := { owned.life with otp := { owned.life.otp with tamperCnt := 1 } } }
    let att := { owned with life := { owned.life with trees := [tree0], ock := some (2, [3]) } }
    (∀ s ∈ [sealed_, rel, owned, tam], s.twin.record = none ∧ s.life.trans = none ∧ ∀ m ∈ [0xD1, 0xD2, 0xD3, 0xD4], (asks s (.port 0) m).takesUp (from_ (.port 0)) m (taken s (.port 0) m)) ∧
    (sealed_.life.otp.lcs = .sealed ∧ rel.life.otp.lcs = .released 14 ∧ owned.life.otp.lcs = .owned 0 ∧ (sealed_.tlog 0).1 = 0 ∧ (sealed_.tlog 62).1 = 0 ∧ sealed_.epoch = 0) ∧
    (∀ n ∈ [3, 16], (comm0 n 2 3).custodians.length = n ∧ (∀ k ∈ (comm0 n 2 3).custodians, k.1 = 1 ∨ k.1 = 2)) ∧
    (taken sealed_ (.port 0) 0xD1).liveChallenges.find? (fun c => proved (comm0 3 2 3) (comms 3) c.1) = some (9, 1999) ∧
    (∀ m ∈ [0xD2, 0xD3], (taken owned (.port 0) m).tokenFault (tokenOf m 4 [] []) m 4 (taken owned (.port 0) m).quarry.quorum.2 (opMessage m (tokenOf m 4 [] []) [] []) = none) ∧
    (tam.tampered = true ∧ owned.tampered = false) ∧
    (sealed_.quarry.custodians = [] ∧ sealed_.challengeLive 9 = true ∧ sealed_.vendorKey vendor0.slot 2 vendor0.pub = true ∧ owned.vendorKey 8 2 [1] = false ∧ vendor0.rsv = false) ∧
    (let c := staging { owned with life := { owned.life with trans := some { code := 4, epoch := 0, record := none, dest := none } } } .transition
     c.commitsOnly .transition ∧ (c.tlog 0).1 = 0 ∧ ∀ m, m < 0 → (c.tlog m).1 ≠ 0) ∧
    ((asks att (.fn 1) 0x30).takesUp (from_ (.fn 1)) 0x30 (taken att (.fn 1) 0x30) ∧ leNat ((zeros 4).take 2) = 0 ∧ (taken att (.fn 1) 0x30).signTree = some (0, tree0) ∧
      (taken owned (.fn 1) 0x30).signTree = none ∧ (asks owned (.fn 1) 0x30).takesUp (from_ (.fn 1)) 0x30 (taken owned (.fn 1) 0x30) ∧ linked.functionUp 1 = true) ∧
    ((asks att (.fn 0) 0xDA).takesUp (from_ (.fn 0)) 0xDA (taken att (.fn 0) 0xDA) ∧ (taken att (.fn 0) 0xDA).life.trees[cert0.tree]? = some tree0 ∧
      cert0.epoch = (taken att (.fn 0) 0xDA).epoch ∧ padTo 68 cert0.pub = padTo 68 tree0.pub ∧ (taken att (.fn 0) 0xDA).ownerSigned cert0 = true ∧
      (taken att (.fn 0) 0xDA).ownerSigned { cert0 with rsv := true } = false) ∧
    ((asks att (.fn 0) 0xDB).takesUp (from_ (.fn 0)) 0xDB (taken att (.fn 0) 0xDB) ∧ att.life.trees.length < 16 ∧ att.life.treeGen = [] ∧
      16 ≤ ({ att with life := { att.life with trees := List.replicate 16 tree0 } } : State).life.trees.length) ∧
    (asks owned (.fn 0) 0xD0).takesUp (from_ (.fn 0)) 0xD0 (taken owned (.fn 0) 0xD0) := by
  have tg : ∀ (s : State) m cls need, m < 65536 → need ≤ 3 → s.quarry.custodians = owned.quarry.custodians → s.epoch = 0 → s.challengeLive 9 = true →
      s.tokenFault (tokenOf m cls [] []) m cls need (opMessage m (tokenOf m cls [] []) [] []) = none :=
    fun s m cls need a b c d e => tokenOf_good s m cls need [] [] (fun b => hv _ _ _ _) a b c d e
  refine ⟨?_, ⟨rfl, rfl, rfl, rfl, rfl, rfl⟩, by decide, ?_, ?_, ⟨rfl, rfl⟩, ⟨rfl, rfl, vendor_key _ rfl rfl rfl, rfl, rfl⟩,
    ⟨staging_commits _ _ ⟨rfl, rfl⟩ rfl ⟨rfl, rfl, rfl, rfl, rfl, rfl⟩ ⟨rfl, rfl⟩ ⟨rfl, rfl⟩, rfl, by omega⟩,
    ⟨asks_takesUp _ _ _ rfl rfl rfl rfl, rfl, rfl, rfl, asks_takesUp _ _ _ rfl rfl rfl rfl, rfl⟩,
    ⟨asks_takesUp _ _ _ rfl rfl rfl rfl, rfl, rfl, rfl, ?_, rfl⟩, ⟨asks_takesUp _ _ _ rfl rfl rfl rfl, by decide, rfl, by decide⟩, asks_takesUp _ _ _ rfl rfl rfl rfl⟩
  · intro s hs
    simp only [List.mem_cons, List.mem_nil_iff, or_false] at hs
    rcases hs with rfl | rfl | rfl | rfl <;> refine ⟨rfl, rfl, fun m hm => ?_⟩ <;> simp only [List.mem_cons, List.mem_nil_iff, or_false] at hm <;>
      rcases hm with rfl | rfl | rfl | rfl <;> exact asks_takesUp _ _ _ rfl rfl rfl rfl
  · have h : proved (comm0 3 2 3) (comms 3) 9 = true := by
      unfold proved
      simp only [hv]
      rfl
    have l : ∀ q : State, q.liveChallenges = [(9, 1999)] → q.liveChallenges.find? (fun c => proved (comm0 3 2 3) (comms 3) c.1) = some (9, 1999) := fun q e => by
      rw [e, List.find?_cons_of_pos (by exact h)]
    exact l _ rfl
  · intro m hm
    simp only [List.mem_cons, List.mem_nil_iff, or_false] at hm
    rcases hm with rfl | rfl <;> exact tg _ _ _ _ (by decide) (by decide) rfl rfl rfl
  · have l : ∀ q : State, q.life.ock = some (2, [3]) → q.ownerSigned cert0 = true := fun q e => by simp [State.ownerSigned, e, cert0, hv]
    exact l _ rfl

/-- TransitionsBurnTheLifeCycle: each transition committed with its record alone open and no job, and with a job; SCRAP with a live challenge and an unknown one; TEST in RAW and SEAL in TESTED, and elsewhere. -/
theorem witness_transitions :
    let sealed_ := { lifeAt 3 0 with quarry := { owned.quarry with custodians := [], l2 := none } }
    let good := fun (s : State) (code epoch : Nat) (rec : Option CommRecord) =>
      s.life.trans = some { code := code, epoch := epoch, record := rec, dest := none, committed := true } ∧ (s.tlog 0).1 ≠ 0 ∧ (s.tlog 0).2 = (0, 0) ∧ s.recordOf 0 = (code, epoch) ∧
      ((List.range 64).all (fun m => m == 0 || (s.tlog m).1 == 0 || (s.tlog m).2.2 != 0) = true) ∧ s.jobs = [] ∧ s.life.otp.faultOf = none ∧ s.life.latch = none ∧ s.life.check ≠ .invalid
    let raw := { State.reset with power := { State.reset.power with run := .stopped } }
    let tested := { raw with life := { raw.life with otp := { raw.life.otp with lcBase := 1 } } }
    good (turning sealed_ 3 0 (some (comm0 3 2 3))) 3 0 (some (comm0 3 2 3)) ∧ (turning sealed_ 3 0 (some (comm0 3 2 3))).life.otp.lcs = .sealed ∧
    good (turning (lifeAt 3 (2 ^ 30 - 1)) 3 15 (some (comm0 16 2 3))) 3 15 (some (comm0 16 2 3)) ∧ (turning (lifeAt 3 (2 ^ 30 - 1)) 3 15 (some (comm0 16 2 3))).life.otp.lcs = .released 14 ∧
    good (turning owned 4 0 none) 4 0 none ∧ (turning owned 4 0 none).life.otp.lcs = .owned 0 ∧ (turning owned 4 0 none).tampered = false ∧
    good (turning owned 5 1 none) 5 1 none ∧ ((turning owned 5 1 none).tlog 1).1 = 0 ∧ good (turning sealed_ 6 0 none) 6 0 none ∧
    ({ turning owned 4 0 none with jobs := [job0] } : State).jobs ≠ [] ∧
    ((asks sealed_ (.port 0) 0xD5).takesUp (from_ (.port 0)) 0xD5 (taken sealed_ (.port 0) 0xD5) ∧ (taken sealed_ (.port 0) 0xD5).challengeLive 9 = true ∧
      (taken sealed_ (.port 0) 0xD5).challengeLive 8 = false ∧ (taken sealed_ (.port 0) 0xD5).quarry.custodians = []) ∧
    (raw.power.run = .stopped ∧ raw.life.fault = false ∧ raw.life.otp.lcs = .raw ∧ tested.life.otp.lcs = .tested ∧ tested.power.run = .stopped ∧ tested.life.fault = false) ∧
    ([((7 : Nat), (1 : Dig), (2 : BitVec 4))].map (·.1)).Nodup := by
  refine ⟨⟨rfl, by decide, rfl, rfl, by decide +kernel, rfl, by decide +kernel, rfl, by decide⟩, by decide +kernel, ⟨rfl, by decide, rfl, rfl, by decide +kernel, rfl, by decide +kernel, rfl, by decide⟩,
    by decide +kernel, ⟨rfl, by decide, rfl, rfl, by decide +kernel, rfl, by decide +kernel, rfl, by decide⟩, by decide +kernel, by decide +kernel,
    ⟨rfl, by decide, rfl, rfl, by decide +kernel, rfl, by decide +kernel, rfl, by decide⟩, rfl, ⟨rfl, by decide, rfl, rfl, by decide +kernel, rfl, by decide +kernel, rfl, by decide⟩,
    by decide, ⟨asks_takesUp _ _ _ rfl rfl rfl rfl, rfl, rfl, rfl⟩, ⟨rfl, rfl, rfl, rfl, rfl, rfl⟩, by decide⟩

/-! ## Twins, network -/

/-- A pair whose link is up and keyed, four frames received. -/
def pairUp : State :=
  { owned with twin := { two.twin with up := true, keyed := true, rxSeq := 4, txSeq := 2, record := some (1, 2, 3), state := .paired, refusals := 1, kept := [({ seq := 1, frame := 1999, tag := 0 }, .marker 5, [1])], gotDigests := [(7, 8)] } }

def part0 : BodyPart :=
  { frame := 7, digest := 8, prevDigest := 0, commits := [], replies := [], sessions := [], seeds := [], calls := [], jobs := [], progress := none, held := [], entries := 0 }

/-- The link frame next in sequence, with the tag of its channel and payload. -/
def linkFrame0 (s : State) (ch : Nat) (payload : Bytes) (last : Bool) : LinkFrame :=
  let l : LinkFrame := { seq := s.twin.rxSeq, frame := 9, last := last, tag := 0 }
  { l with tag := (s.linkSeal (!s.twin.offered) ch l payload).2 }

/-- It is the next in sequence and its tag is good. -/
theorem linkFrame0_good (s : State) (ch : Nat) (p : Bytes) (last : Bool) :
    (linkFrame0 s ch p last).seq = s.twin.rxSeq ∧ s.linkTagOk ch (linkFrame0 s ch p last) p = true ∧ (linkFrame0 s ch p last).last = last := by
  refine ⟨rfl, ?_, rfl⟩
  unfold State.linkTagOk linkFrame0
  exact beq_self_eq_true _

def exchange0 : Exchange :=
  { frame := 9, digest := 1, confirm := none, refuse := some 6, heartbeat := true, silent := true, reservations := [], xDigests := [], xAborts := [], xMismatch := [], doorbells := [(1, 0, 3)], cancels := [] }

def ckpt0 : Checkpoint := { frame := 6, digest := 0, kib := 1, finished := [], admitted := [], refusals := 0 }

/-- TwinLinkFramesAreTakenOrRefused: a link up and down, keyed and not; a frame of each channel in sequence with a good tag, one out of sequence; refused once and twice before; a nonce on a link just opened, in SOLO; a follower without FRAME_SYNC, its offset at 50 and 51; a body's first and last part, its digest known and another; an exchange that confirms, refuses, beats, is silent, rings; replication in PAIRED and not; the last part of a copy that opens (a value the model leaves open). -/
theorem witness_twin_frames (hm : ∀ b, Config.migOpen b = some { share := share1 }) :
    let opening := { pairUp with twin := { pairUp.twin with keyed := false, nonces := (some 5, none), state := .solo } }
    (pairUp.twin.silent = false ∧ pairUp.frame.ticking = true ∧ pairUp.twin.up = true ∧ two.twin.up = false ∧ pairUp.twin.rxSeq = 4 ∧ 3 ≠ pairUp.twin.rxSeq ∧ pairUp.twin.refusals < 2 ∧
      2 ≤ ({ pairUp.twin with refusals := 2 } : Twin).refusals ∧ pairUp.twin.keyed = true ∧ opening.twin.keyed = false) ∧
    (opening.twin.nonces = (some 5, none) ∧ opening.twin.record = some (1, 2, 3) ∧ opening.twin.state = .solo) ∧
    (∀ s : State, ∀ ch p last, ∃ l : LinkFrame, l.seq = s.twin.rxSeq ∧ s.linkTagOk ch l p = true ∧ l.last = last ∧ l.frame = 9) ∧
    (let f := { pairUp with frame := { pairUp.frame with leader := false } }
     f.twin.record.isSome = true ∧ f.frame.leader = false ∧ f.twin.partnerSync = false ∧ f.frame.syncSeen = false ∧ ¬ (50 < (50 : Int) ∨ (50 : Int) < -50) ∧ (50 < (51 : Int) ∨ (51 : Int) < -50)) ∧
    (pairUp.twin.got = [] ∧ (∀ e ∈ pairUp.twin.parts, e.frame ≠ part0.frame) ∧ pairUp.twin.digestOf 7 = some part0.digest ∧ pairUp.twin.digestOf 7 ≠ some 9) ∧
    (exchange0.xDigests = [] ∧ exchange0.xAborts = [] ∧ exchange0.xMismatch = [] ∧ exchange0.cancels = [] ∧ exchange0.heartbeat = true ∧ pairUp.frame.leader = true ∧ exchange0.silent = true ∧
      pairUp.twin.state = .paired ∧ pairUp.twin.adoptDue = none ∧ exchange0.doorbells = [(1, (0 : Fin 4).val, 3)] ∧ (pairUp.inst 1).isSome = true ∧
      (let c := { pairUp with twin := { pairUp.twin with sent := [ckpt0] } }; exchange0.confirm = none ∧ exchange0.refuse = some 6 ∧ c.twin.sent = [ckpt0] ∧ ckpt0.frame = 6) ∧
      ({ exchange0 with confirm := some 6 } : Exchange).confirm = some 6) ∧
    (opening.twin.state ≠ .paired ∧ ∃ y, Config.migOpen ((tget pairUp.twin.bulkIn 1).getD [] ++ [1]) = some y) := by
  refine ⟨⟨rfl, rfl, rfl, rfl, rfl, by decide, by decide, by decide, rfl, rfl⟩, ⟨rfl, rfl, rfl⟩,
    fun s ch p last => ⟨linkFrame0 s ch p last, (linkFrame0_good s ch p last).1, (linkFrame0_good s ch p last).2.1, rfl, rfl⟩, ⟨rfl, rfl, rfl, rfl, by decide, by decide⟩,
    ⟨rfl, by decide, rfl, by decide⟩, ⟨rfl, rfl, rfl, rfl, rfl, rfl, rfl, rfl, rfl, rfl, rfl, ⟨rfl, rfl, rfl, rfl⟩, rfl⟩, ⟨by decide, _, hm _⟩⟩

def peer0 : Peer := { encap := [1], att := [2] }

/-- The extended body of a pairing request. -/
def pairExt : Bytes := targetBytes target0 ++ target0.sig ++ ownerCertBytes cert0 ++ cert0.sig

/-- PairingFailoverAndResynchronisation: an unpaired OWNED unit with the manager alone, its link up, a certified statement and a good token (whether signatures verify is a value the model leaves open); each step of the ceremony, a package that opens (a value the model leaves open) and one for which no key is held; the last copy done; UNPAIR in a pair and alone, and its commit; a second frame without a heartbeat with FRAME_SYNC lost and kept, and a first; adoption due; SPLIT at 10,000 beats and 9,999; RESYNC; a path test; a silent unit that rejoins. -/
theorem witness_pairing (hv : ∀ a k b g, Config.verify a k b g = true) (hg : ∀ k n a c g, Config.gcmInv k n a c g = some (zeros 73)) :
    let alone := { owned with insts := [(0, { share := managerShare })], twin := { two.twin with up := true }, life := { owned.life with ock := some (2, [3]) } }
    let cer := fun (o : Bool) (n : Nat) => { pairUp with twin := { pairUp.twin with peer := some peer0, ceremony := some (o, (5 : BitVec 16), n) } }
    let paired := fun (w : Twin) => { pairUp with twin := w }
    (∀ m ∈ [0xB0, 0xB1], (asks alone (.fn 0) m).takesUp (from_ (.fn 0)) m (taken alone (.fn 0) m) ∧ (taken alone (.fn 0) m).tokenFault (tokenOf m 3 [] pairExt) m 3 (taken alone (.fn 0) m).quarry.quorum.1 (opMessage m (tokenOf m 3 [] pairExt) [] pairExt) = none) ∧
    (alone.life.otp.lcs = .owned 0 ∧ alone.twin.record = none ∧ alone.twin.state = .unpaired ∧ alone.twin.up = true ∧ alone.prot.dbg = 0 ∧ (∀ i ∈ alone.insts, i.1 = 0) ∧
      target0.rsv = false ∧ target0.epoch = alone.epoch ∧ alone.certGood cert0 (targetBytes target0) target0.sig = true) ∧
    ((cer true 3).twin.ceremony = some (true, 5, 3) ∧ (cer false 3).twin.ceremony = some (false, 5, 3) ∧ (cer true 4).twin.ceremony = some (true, 5, 4) ∧ (cer true 3).twin.peer = some peer0 ∧
      (cer false 3).openPair peer0 [] = none ∧ ∃ k, ({ cer false 3 with mail := { owned.mail with targets := [targetKey0] } } : State).openPair peer0 [] = some (zeros 73, k)) ∧
    (let c := paired { pairUp.twin with state := .pairing, ceremony := some (true, 5, 7), copied := [0] }
     c.twin.state = .pairing ∧ c.twin.copying = [] ∧ (c.inst 1).isSome = true ∧ 1 ∉ c.twin.copied ∧ (∀ e ∈ c.insts, e.1 = 1 ∨ e.1 ∈ c.twin.copied) ∧ c.twin.ceremony = some (true, 5, 7)) ∧
    ((asks pairUp (.fn 0) 0xB2).takesUp (from_ (.fn 0)) 0xB2 (taken pairUp (.fn 0) 0xB2) ∧ (taken pairUp (.fn 0) 0xB2).twin.record.isSome = true ∧
      (taken pairUp (.fn 0) 0xB2).tokenFault (tokenOf 0xB2 3 [] []) 0xB2 3 (taken pairUp (.fn 0) 0xB2).quarry.quorum.1 (opMessage 0xB2 (tokenOf 0xB2 3 [] []) [] []) = none ∧
      (asks owned (.fn 0) 0xB2).takesUp (from_ (.fn 0)) 0xB2 (taken owned (.fn 0) 0xB2) ∧ (taken owned (.fn 0) 0xB2).twin.record = none) ∧
    (staging (paired { pairUp.twin with returnEn := false }) (.unpair (.mailbox 0) 0)).commitsOnly (.unpair (.mailbox 0) 0) ∧
    (let h := paired { pairUp.twin with missed := 1, syncMissed := 1 }
     h.ticks = true ∧ h.twin.state = .paired ∧ h.twin.adoptDue = none ∧ h.twin.heartbeat = false ∧ 1 ≤ h.twin.missed ∧ h.twin.partnerSync = false ∧ 1 ≤ h.twin.syncMissed ∧
       pairUp.twin.missed = 0 ∧ pairUp.twin.syncMissed = 0) ∧
    (let a := paired { pairUp.twin with adoptDue := some 1, shadows := [(1024, { share := managerShare, state := .dormant }), (2, { share := share1, state := .dormant })] }
     a.ticks = true ∧ a.twin.adoptDue.isSome = true ∧ a.twin.got = [] ∧ (a.twin.shadows.map (·.1)).Nodup) ∧
    ((paired { pairUp.twin with state := .split, beats := 10000 }).twin.state = .split ∧ 10000 ≤ (10000 : Nat) ∧ (9999 : Nat) < 10000) ∧
    (let r := paired { pairUp.twin with state := .resync, copying := [(1024, { share := managerShare })] }; r.twin.state = .resync ∧ (r.twin.copying.map (·.1)).Nodup) ∧
    (let p := paired { pairUp.twin with pathTest := true }; p.twin.pathTest = true ∧ p.twin.state = .paired ∧ p.twin.record.isSome = true ∧ pairUp.twin.pathTest = false) ∧
    (let q := paired { pairUp.twin with silent := true, stuck := false, unserved := true }; q.twin.silent = true ∧ q.twin.stuck = false ∧ q.twin.unserved = true ∧ pairUp.twin.silent = false) := by
  have tg : ∀ (s : State) m cls need, m < 65536 → need ≤ 3 → s.quarry.custodians = owned.quarry.custodians → s.epoch = 0 → s.challengeLive 9 = true → ∀ ext, s.tokenFault (tokenOf m cls [] ext) m cls need (opMessage m (tokenOf m cls [] ext) [] ext) = none :=
    fun s m cls need a b c d e ext => tokenOf_good s m cls need [] ext (fun b => hv _ _ _ _) a b c d e
  have g : ∀ s : State, s.life.ock = some (2, [3]) → s.epoch = 0 → s.certGood cert0 (targetBytes target0) target0.sig = true := fun s h k => by
    simp [State.certGood, State.ownerSigned, h, k, cert0, hv]
  refine ⟨?_, ⟨rfl, rfl, rfl, rfl, rfl, by decide, rfl, rfl, g _ rfl rfl⟩, ⟨rfl, rfl, rfl, rfl, ?_, ?_⟩, ⟨rfl, rfl, rfl, by decide, by decide, rfl⟩,
    ⟨asks_takesUp _ _ _ rfl rfl rfl rfl, rfl, tg _ _ _ _ (by decide) (by decide) rfl rfl rfl _, asks_takesUp _ _ _ rfl rfl rfl rfl, rfl⟩,
    staging_commits _ _ ⟨rfl, rfl⟩ rfl ⟨rfl, rfl, rfl, rfl, rfl, rfl⟩ ⟨rfl, rfl⟩ ⟨rfl, rfl⟩, ⟨rfl, rfl, rfl, rfl, by decide, rfl, by decide, rfl, rfl⟩, ⟨rfl, rfl, rfl, by decide⟩,
    ⟨rfl, by decide, by decide⟩, ⟨rfl, by decide⟩, ⟨rfl, rfl, rfl, rfl⟩, ⟨rfl, rfl, rfl, rfl⟩⟩
  · intro m hm
    simp only [List.mem_cons, List.mem_nil_iff, or_false] at hm
    rcases hm with rfl | rfl <;> exact ⟨asks_takesUp _ _ _ rfl rfl rfl rfl, tg _ _ _ _ (by decide) (by decide) rfl rfl rfl _⟩
  · unfold State.openPair
    rw [hv]
    rfl
  · refine ⟨targetKey0, ?_⟩
    unfold State.openPair
    simp [hv, hg]

/-- A global unicast address. -/
def addr0 : BitVec 128 := 0x20000000000000000000000000000001

def sak0 : SaKey := { sak := zeros 32, ssci := 1, salt := 0 }
def rx0 : RxSa := { sci := 6, an := 2, low := 10, key := sak0 }

/-- Pass A active, up and healthy, with a transmit SA and a receive SA, an MKA key, and an endpoint of instance 1. -/
def onNet : State :=
  { still child0 with
    passes := { two.passes with chosen := true, a := { up := true, healthy := true, mac := 1, txAn := some 0, txSa := Vector.replicate 4 (some { next := 1, key := sak0 }), rxSa := [rx0], cak := some ([1], [2]) } }
    net := { two.net with endpoints := [{ inst := 1, vlan := none, addr := addr0 }] } }

/-- A 40-byte IPv6 packet of UDP. -/
def udp0 : Bytes := [0x60, 0, 0, 0, 0, 0, 17] ++ zeros 33

/-- NetworkFramesAndEndpoints: an endpoint good, not global and taken; its commit where the endpoint changes; names of 0, 1, 32 and 33 bytes, a key that fits and one that does not; a pass named and not; frames on a pass down, unheard, without MACsec, of an unknown SA, with a bad tag, with an old number and a good one, served and not; MKPDUs; hellos; an address held and one not. -/
theorem witness_network (hg : ∀ k n a c g, Config.gcmInv k n a c g = some ([0x86, 0xDD] ++ udp0)) :
    let mka := { child0 with usage := 0x0034 }
    let k := withChild mka
    let h : Handle := mkHandle 0 6 1 0x12
    ((asks onNet (.fn 0) 0xB8).takesUp (from_ (.fn 0)) 0xB8 (taken onNet (.fn 0) 0xB8) ∧ ((taken onNet (.fn 0) 0xB8).inst 1).isSome = true ∧ addr0.toNat / 2 ^ 125 = 1 ∧
      (0 : BitVec 128).toNat / 2 ^ 125 ≠ 1 ∧ (∃ e ∈ (taken onNet (.fn 0) 0xB8).net.endpoints, e.inst ≠ 0 ∧ e.addr = addr0) ∧
      ¬ ∃ e ∈ (taken onNet (.fn 0) 0xB8).net.endpoints, e.inst ≠ 1 ∧ e.addr = addr0) ∧
    (staging onNet (.netEndpoint { inst := 1, ep := none, dest := .mailbox 0, tag := 0 })).commitsOnly (.netEndpoint { inst := 1, ep := none, dest := .mailbox 0, tag := 0 }) ∧
    ((asks k (.fn 0) 0xB9).takesUp (from_ (.fn 0)) 0xB9 (taken k (.fn 0) 0xB9) ∧ (taken k (.fn 0) 0xB9).checkHandle 0 h = none ∧ (taken k (.fn 0) 0xB9).keyNode [] h = some mka ∧
      mka.ktype = 0x12 ∧ mka.usage.getLsbD 2 = true ∧ mka.usage.getLsbD 4 = true ∧ mka.usage.getLsbD 5 = true ∧ child0.usage.getLsbD 2 = true ∧
      ({ child0 with usage := 0x0003 } : Node).usage.getLsbD 2 = false ∧ (zeros 32).length ≤ 32 ∧ 32 < (zeros 33).length) ∧
    (let m : MkaSet := { cak := h, ckn := [2], priority := 0, passA := true, passB := false, xpn := false, dest := .mailbox 0, tag := 0 }
     (staging onNet (.netMka m)).commitsOnly (.netMka m)) ∧
    (onNet.works = true ∧ (onNet.pass false).up = true ∧ (onNet.pass true).up = false ∧ onNet.passes.chosen = true ∧ onNet.passes.activeB = false ∧ two.passes.chosen = false ∧
      (onNet.pass false).rxFor 6 2 = some rx0 ∧ (onNet.pass false).rxFor 6 3 = none ∧ 9 < rx0.low ∧ rx0.low ≤ 10 ∧ false = onNet.passes.activeB ∧
      Config.gcmInv rx0.key.sak (macsecIv (onNet.pass false).xpn rx0.key rx0.sci 10) [] [] 0 = some ([0x86, 0xDD] ++ udp0) ∧ etherPacket ([0x86, 0xDD] ++ udp0) = udp0 ∧ (1 : BitVec 48) = (onNet.pass false).mac ∧
      (2 : BitVec 48).getLsbD 40 = false ∧ (0x10000000000 : BitVec 48).getLsbD 40 = true ∧ servedPacket udp0 = true ∧ servedPacket [] = false) ∧
    ((onNet.pass false).cak = some ([1], [2]) ∧ (onNet.pass false).peers.length < 16 ∧ (onNet.pass false).rxSa = [rx0] ∧ rx0.sci = 6 ∧ (∃ icv, ∀ k, (onNet.pass false).cak = some (k, [2]) → icv ≠ Config.mkaIcv k [2] 6 none 11) ∧ onNet.hollowUp = true ∧ (onNet.pass true).cak = none ∧
      (onNet.pass false).wantsSak = false) ∧
    (onNet.canSend ∧ (∃ e ∈ onNet.net.endpoints, e.addr = addr0) ∧ ¬ ∃ e ∈ onNet.net.endpoints, e.addr = 5) := by
  refine ⟨⟨asks_takesUp _ _ _ rfl rfl rfl rfl, rfl, by decide, by decide, by decide, by decide⟩, staging_commits _ _ ⟨rfl, rfl⟩ rfl ⟨rfl, rfl, rfl, rfl, rfl, rfl⟩ ⟨rfl, rfl⟩ ⟨rfl, rfl⟩,
    ⟨asks_takesUp _ _ _ rfl rfl rfl rfl, rfl, rfl, rfl, by decide, by decide, by decide, by decide, by decide, by decide, by decide⟩,
    staging_commits _ _ ⟨rfl, rfl⟩ rfl ⟨rfl, rfl, rfl, rfl, rfl, rfl⟩ ⟨rfl, rfl⟩ ⟨rfl, rfl⟩,
    ⟨rfl, rfl, rfl, rfl, rfl, rfl, rfl, rfl, by decide, by decide, rfl, hg _ _ _ _ _, rfl, rfl, by decide, by decide, by decide, by decide⟩,
    ⟨rfl, by decide, rfl, rfl, ⟨Config.mkaIcv [1] [2] 6 none 11 + 1, fun k e => ?_⟩, rfl, rfl, by decide⟩, ⟨⟨rfl, rfl, rfl, 0, { next := 1, key := sak0 }, rfl, rfl, by decide⟩, by decide, by decide⟩⟩
  cases e
  exact fun h => by bv_omega

/-- Where a peer's datagrams come from. -/
def from0 : NetAddr := { mac := 1, addr := 2, port := 3 }

/-- A session of instance 1 with nothing queued, one datagram unacknowledged. -/
def session0 (u : List Sent) : Session := { id := 9, inst := 1, peer := from0, node := 6, ks := 0, mss := 8192, rxNext := 3, acked := 1, unacked := u, limit := 64, lastSeen := 0 }

def inSession (u : List Sent) (num : Nat) : State :=
  { onNet with net := { onNet.net with sessions := [session0 u] }, frame := { onNet.frame with num := num } }

def gram0 (seq : Nat) : Datagram :=
  { peer := from0, version := 1, first := true, last := true, inst := 1, session := 9, seq := seq, ack := 5, msg := 2, offset := 0, window := 64, rsv := false, payload := [1], tag := 0 }

def sent0 (tries : Nat) : Sent := { seq := 1, msg := 1, bytes := [4], sentAt := 2000, tries := tries }

/-- NernaoshSessions: an opening datagram good (its tag is a value the model leaves open) and with a version at fault, its key fitting, its MSS 1,024; datagrams of an open session at each place of the window, 1, 2, 3, 4, 64 and 65, and of none; a datagram to send again at 100 frames and 99, tried 6 and 7 times; a session idle 6,000,000 frames and one fewer. -/
theorem witness_nernaosh (hk : ∀ k b n l, kmac256 k b n l = leBytes 16 0) :
    let net := { child0 with ktype := 0x2B, usage := 0x0030 }
    let k := { onNet with quarry := owned.quarry, insts := [(0, { share := managerShare }), (1, { share := share1, dir := [(5, { state := .allocated, node := some branch0 }), (6, { state := .allocated, node := some net })] })] }
    let h : Handle := mkHandle 1 6 1 0x2B
    let o := { gram0 0 with session := 0, payload := leBytes 8 h.toNat ++ leBytes 16 5 ++ leBytes 2 1024 ++ zeros 6 }
    let s := inSession [] 2000
    (k.works = true ∧ k.passes.chosen = true ∧ o.version = 1 ∧ o.rsv = false ∧ o.payload.length = 32 ∧ o.payload.drop 26 = zeros 6 ∧ o.session = 0 ∧ openKey o = h ∧ openMss o = 1024 ∧ openNonce o = 5 ∧ (∃ e ∈ k.net.endpoints, e.inst = o.inst ∧ e.addr = addr0) ∧
      hInst h = o.inst ∧ (k.keyNode [] h).isSome = true ∧ netTag (k.keyValue [] h) (headerOf 1 o) o.payload "NERNAOSH O" = leBytes 16 o.tag.toNat ∧ ({ o with version := 2 } : Datagram).version ≠ 1 ∧
      k.net.sessions.length < 2 ^ 31 ∧ k.checkHandle o.inst h = none ∧ k.keyNode [] h = some net ∧ (∃ x, k.inst o.inst = some x ∧ x.sessions < x.share.sessions) ∧
      net.usage.getLsbD 4 = true ∧ net.usage.getLsbD 5 = true ∧ 1024 ≤ min 1024 8192 ∧ min 1024 8192 % 16 = 0 ∧ child0.ktype ≠ 0x2B) ∧
    (∀ m ∈ [4, 6, 7, 8], ∀ q ∈ [1, 2, 3, 4, 64, 65], s.validIn m (gram0 q) (session0 [])) ∧
    ((session0 []).queue = [] ∧ (session0 []).msgs = [] ∧ (session0 []).held = [] ∧ (session0 []).arrivals = [] ∧ s.poolUsed + (gram0 3).payload.length ≤ 2 ^ 30) ∧
    (∀ x, ¬ onNet.validIn 4 (gram0 3) x) ∧
    (let r := inSession [sent0 6] 2000
     r.session 1 9 = some (session0 [sent0 6]) ∧ 2000 + 100 * 2 ^ 0 ≤ (inSession [sent0 0] 2100).frame.num ∧ (inSession [sent0 0] 2099).frame.num < 2000 + 100 * 2 ^ 0 ∧ (sent0 6).tries < 7 ∧ 7 ≤ (sent0 7).tries) ∧
    ((inSession [] 5999999).frame.num < (session0 []).lastSeen + 6000000 ∧ (session0 []).lastSeen + 6000000 ≤ (inSession [] 6000000).frame.num ∧
      ∀ j ∈ (inSession [] 6000000).jobs, j.inst = 1 → ∀ n, j.net = some n → n.1 ≠ 9) := by
  refine ⟨⟨rfl, rfl, rfl, rfl, by decide, by decide, rfl, by decide, by decide, by decide, by decide, rfl, rfl, hk _ _ _ _, by decide, by decide, rfl, rfl, ⟨_, rfl, by decide⟩, by decide, by decide, by decide, by decide, by decide⟩, ?_,
    ⟨rfl, rfl, rfl, rfl, by decide⟩, fun x h => ?_, ⟨rfl, by decide, by decide, by decide, by decide⟩, ⟨by decide, by decide, by decide⟩⟩
  · intro m _ q _
    exact ⟨rfl, rfl, rfl, rfl, rfl, (by decide : [(1 : Byte)].length ≤ 8192), hk _ _ _ _⟩
  · have e := h.2.2.1
    cases e

/-! ## Host links, in-service test, power -/

/-- HostPortsLinksAndFunctionResets: a unit running and in cold reset; a port up and down, its pin low; rates 5 and 6, widths 16 and 3; a write that waits; an instance without a reset on the port; the other port usable and not; a named port usable; the tail; a pending vector. -/
theorem witness_host_links :
    let pend := { linked with insts := [(0, { share := managerShare, bme := true }), (1, { share := share1, bme := true, vecPend := Vector.replicate 2 true })],
                              host := { linked.host with ports := Vector.replicate 2 { linked.host.ports[(0 : Fin 2)] with pend := 4 }, waiting := [(1, .hostWrite 1 0x1000 [5])] } }
    (linked.power.run = .running ∧ State.reset.power.run = .coldReset ∧ linked.works = true ∧ (∃ y, linked.inst 1 = some y ∧ y.port = (0 : Fin 2).val ∧ y.reset = none) ∧
      owned.usable 1 = false ∧ linked.usable 1 = true ∧ (∃ y, linked.inst 0 = some y ∧ y.reset = none)) ∧
    (linked.host.ports[(0 : Fin 2)].perst = false ∧ two.host.ports[(0 : Fin 2)].perst = true ∧ 5 ≤ 5 ∧ ¬ 6 ≤ 5 ∧ 16 ∈ [1, 4, 8, 16] ∧ 3 ∉ [1, 4, 8, 16]) ∧
    (linked.host.ports[(0 : Fin 2)].up = true ∧ two.host.ports[(0 : Fin 2)].up = false ∧ (1, Output.hostWrite 1 0x1000 [5]) ∈ pend.host.waiting ∧ pend.functionUp 1 = true) ∧
    (let t := { linked with frame := { linked.frame with cycle := 11200 } }; t.ticks = true ∧ 11200 ≤ t.frame.cycle ∧ t.usable 0 = true ∧ t.host.pfPort = false ∧ two.usable 0 = false ∧ two.usable 1 = false) ∧
    (pend.frame.ticking = true ∧ (∃ y, pend.inst 1 = some y ∧ y.vecPend[(0 : Fin 2)] = true) ∧ pend.host.ports[(0 : Fin 2)].pend.getLsbD 2 = true ∧
      linked.host.ports[(0 : Fin 2)].pend.getLsbD 2 = false ∧ pend.functionUp 0 = true ∧ (0 : Fin 2) = pend.inUse ∧ 63 < 64) := by
  refine ⟨⟨rfl, rfl, rfl, ⟨_, rfl, rfl, rfl⟩, rfl, rfl, ⟨_, rfl, rfl⟩⟩, ⟨rfl, rfl, by decide, by decide, by decide, by decide⟩, ⟨rfl, rfl, by decide, rfl⟩,
    ⟨rfl, by decide, rfl, rfl, rfl, rfl⟩, ⟨rfl, ⟨_, rfl, rfl⟩, by decide, by decide, rfl, rfl, by decide⟩⟩

/-- Every element as given. -/
def elemsAre (x : Elem) : State := { linked with test := { linked.test with elems := Vector.replicate 158 x } }

/-- InServiceTestsAndHolds: an element tested, one of a lane's KAT, one gated; fenced with two passes a second old, held, in service; due at 20,000 and 100,000 frames and not yet; a region 60 seconds unmarched and 59; room of 4,096 and 4,095; elements 157 and 158; holds and releases at their commits, with three passes and two. -/
theorem witness_tests :
    let two_ := elemsAre { fenced := true, passes := 2, passedAt := 0 }
    let late := { two_ with frame := { two_.frame with num := 100000 } }
    let due := elemsAre { katAge := 20000, fullAge := 100000 }
    let m := { linked with test := { linked.test with march := [(0, 60), (1, 59)] } }
    (linked.works = true ∧ linked.gatedElem 3 = false ∧ (elemKind 3).1 ≠ 10 ∧ ¬ (elemKind 90).1 ≠ 10 ∧ ({ linked with prot := { linked.prot with clockGated := 0xFFFFFFFF } } : State).gatedElem 3 = true) ∧
    ((late.elem 3).fenced = true ∧ (late.elem 3).held = false ∧ (late.elem 3).passes = 2 ∧ (late.elem 3).passedAt + 100000 ≤ late.frame.num ∧ (linked.elem 3).fenced = false ∧
      ((elemsAre { fenced := true, held := true }).elem 3).held = true) ∧
    ((due.elem 3).katAge = 20000 ∧ (due.elem 3).forcing = none ∧ (due.elem 3).forcing ≠ some true ∧ 100000 ≤ (due.elem 3).fullAge ∧ (elemKind 3).1 ≠ 5 ∧ (elemKind 42).1 = 5 ∧
      ¬ 20000 ≤ (linked.elem 3).katAge) ∧
    (m.works = true ∧ m.gatedElem 46 = false ∧ m.regionsUsed 0 < 16 ∧ 60 ≤ tnat m.test.march (16 * 0 + 0) ∧ ¬ 60 ≤ tnat m.test.march (16 * 0 + 1)) ∧
    ((asks linked (.fn 0) 0xA8).takesUp (from_ (.fn 0)) 0xA8 (taken linked (.fn 0) 0xA8) ∧ 4096 ≤ 4096 ∧ 4095 < 4096 ∧ linked.functionUp 0 = true) ∧
    ((asks two_ (.fn 0) 0xA9).takesUp (from_ (.fn 0)) 0xA9 (taken two_ (.fn 0) 0xA9) ∧ 157 < 158 ∧ ¬ 158 < 158 ∧ (taken two_ (.fn 0) 0xA9).fenced 157 = true ∧ linked.fenced 157 = false) ∧
    ((staging two_ (.fenceHold 157 true (.mailbox 0) 0)).commitsOnly (.fenceHold 157 true (.mailbox 0) 0) ∧ two_.fenced 157 = true ∧
      (staging (elemsAre { fenced := true, passes := 3 }) (.fenceHold 157 false (.mailbox 0) 0)).commitsOnly (.fenceHold 157 false (.mailbox 0) 0) ∧
      3 ≤ ((elemsAre { fenced := true, passes := 3 }).elem 157).passes ∧ (two_.elem 157).passes < 3) := by
  refine ⟨⟨rfl, rfl, by decide, by decide, rfl⟩, ⟨rfl, rfl, rfl, by decide, rfl, rfl⟩, ⟨rfl, rfl, by decide, by decide, by decide, rfl, by decide⟩, ⟨rfl, rfl, by decide, by decide, by decide⟩,
    ⟨asks_takesUp _ _ _ rfl rfl rfl rfl, by decide, by decide, rfl⟩, ⟨asks_takesUp _ _ _ rfl rfl rfl rfl, by decide, by decide, rfl, rfl⟩,
    ⟨staging_commits _ _ ⟨rfl, rfl⟩ rfl ⟨rfl, rfl, rfl, rfl, rfl, rfl⟩ ⟨rfl, rfl⟩ ⟨rfl, rfl⟩, rfl, staging_commits _ _ ⟨rfl, rfl⟩ rfl ⟨rfl, rfl, rfl, rfl, rfl, rfl⟩ ⟨rfl, rfl⟩ ⟨rfl, rfl⟩, by decide, by decide⟩⟩

/-- PowerResetTamperAndStart: cold reset held by the pin, by the temperature and free, with sound images (whether they verify is a value the model leaves open), in RAW, and with an OTP fault; quiescence; frames with no sequence and with one; a stopped unit; the sequence due; the clock lost 1,000 frames ago and 999; a tamper sensor armed at 1, 5, 0x17 and 0x19 and one not; the battery; a second. -/
theorem witness_power (hv : ∀ a k b g, Config.verify a k b g = true) :
    let cold := { bootable with power := { State.reset.power with powerFailN := true } }
    let raw := State.reset
    let bad := { cold with life := { cold.life with otp := { cold.life.otp with lcBase := 2 } } }
    let quiet := { bootable with power := { bootable.power with run := .quiescent, resetN := true, pwrGood := true } }
    let lost := { owned with power := { owned.power with holdover := true, holdoverAt := some 1000 } }
    let armed := { owned with life := { owned.life with cfg := { inputEn := 0x80, polarity := 0, meshEn := 2 } } }
    (cold.power.run = .coldReset ∧ cold.power.powerFailN = true ∧ cold.power.needsReset = false ∧ ({ cold.power with needsReset := true } : Power).needsReset = true ∧
      ({ cold with host := { cold.host with mem := (15, 600, 0, false) } } : State).bootsWith (image 1) (image 2) ∧
      raw.power.run = .coldReset ∧ raw.life.otp.faultOf = none ∧ raw.life.otp.lcs = .raw ∧ bad.life.otp.faultOf.isSome = true) ∧
    (quiet.power.run = .quiescent ∧ quiet.power.resetN = true ∧ quiet.power.pwrGood = true ∧ quiet.power.inRange = true ∧ quiet.power.needsReset = false ∧ quiet.bootsWith (image 1) (image 2)) ∧
    (owned.ticks = true ∧ owned.power.run = .running ∧ owned.power.fail = none ∧ 6 ≤ 6 ∧ 6 < 7 ∧ 15 < 16 ∧ 115 < (116 : Int) ∧ ¬ 115 < (115 : Int) ∧
      ({ owned.power with fail := some (1, 1, 0) } : Power).fail.isSome = true ∧ ({ owned.power with run := .stopped } : Power).run = .stopped) ∧
    (let f := { pairUp with power := { owned.power with run := .failing, fail := some (1, 1, 0) } }
     f.power.run = .failing ∧ f.power.fail = some (1, 1, 0) ∧ f.twin.record.isSome = true ∧ f.twin.up = true) ∧
    (owned.frame.ticking = true ∧ owned.power.holdover = false ∧ lost.power.holdover = true ∧ lost.power.holdoverAt = some 1000 ∧ 1000 + 1000 ≤ lost.frame.num ∧
      ({ lost.frame with num := 1999 } : Frame).num < 1000 + 1000) ∧
    (armed.life.otp.lcs ≠ .scrapped ∧ (1 ≤ 1 ∧ 5 ≤ 5 ∧ armed.power.run ≠ .coldReset ∧ armed.power.run ≠ .quiescent) ∧ armed.life.cfg.inputEn.getLsbD (0x17 - 0x10) = true ∧
      armed.life.cfg.meshEn.getLsbD (0x19 - 0x18) = true ∧ owned.life.cfg.inputEn.getLsbD (0x17 - 0x10) = false ∧ armed.life.otp.lcs = .owned 0) ∧
    (owned.power.onBattery = false ∧ owned.life.vbatLow = false) ∧
    (let n := { owned with strata := { owned.strata with frameIdx := 100000 } }; n.frame.ticking = true ∧ 100000 ≤ n.strata.frameIdx ∧ owned.strata.frameIdx < 100000) := by
  refine ⟨⟨rfl, rfl, rfl, rfl, bootable_boots hv _ rfl rfl rfl rfl, rfl, by decide +kernel, rfl, rfl⟩, ⟨rfl, rfl, rfl, rfl, rfl, bootable_boots hv _ rfl rfl rfl rfl⟩,
    ⟨rfl, rfl, rfl, by decide, by decide, by decide, by decide, by decide, rfl, rfl⟩, ⟨rfl, rfl, rfl, rfl⟩, ⟨rfl, rfl, rfl, rfl, by decide, by decide⟩,
    ⟨by decide, ⟨by decide, by decide, by decide, by decide⟩, rfl, rfl, rfl, rfl⟩, ⟨rfl, rfl⟩, ⟨rfl, by decide, by decide⟩⟩

/-- LaneInstructionsRoundTrip: a well-formed lane instruction with its word, and a word a lane decodes. -/
theorem witness_round_trip : (Instr.add 5 3 4 5).wf = true ∧ geingEncode (.add 5 3 4 5) = some 0b00000100011001000010100000000000 ∧
    geingDecode 5 0b00000100011001000010100000000000 = some (.add 5 3 4 5) := ⟨by decide, by rfl, by rfl⟩

/-- EveryStepKeepsMemoryCanonical and ResetMemoryIsCanonical: reset, and a step from it. -/
theorem witness_memory : State.reset.memOk ∧ ∃ t, step { State.reset with pending := [.bypass] } = .next t := ⟨by unfold State.memOk; decide, _, rfl⟩

end Sys2Proof.Tests
end

section
/-! Register commands of the host: reads that latch, staged registers, a freeze of Strata, performance counters, writes of the register map (R7, R15, R50, R69, R402, R408, R456, R457, R465). -/

namespace Sys2Proof.Machine

/-! ## Sparse tables -/

/-- The entry just put at a key is the one found there, whatever stands in the table. -/
@[simp] theorem tget_tset_self {α : Type} (t : Table α) (k : Nat) (v : α) : tget (tset t k v) k = some v := by
  induction t with
  | nil => simp [tset, tget]
  | cons e t ih =>
    obtain ⟨j, w⟩ := e
    by_cases hlt : k < j
    · simp [tset, tget, hlt]
    · by_cases heq : k = j
      · simp [tset, tget, heq]
      · have hne : (j == k) = false := by simp [Ne.symm heq]
        simpa [tset, tget, hlt, heq, hne] using ih

/-- Changing the entry of a key changes what is found there. -/
theorem tget_tmod_self {α : Type} (t : Table α) (k : Nat) (f : α → α) : tget (tmod t k f) k = (tget t k).map f := by
  induction t with
  | nil => rfl
  | cons e t ih =>
    obtain ⟨j, w⟩ := e
    by_cases heq : j = k
    · simp [tmod, tget, heq]
    · have hne : (j == k) = false := by simp [heq]
      simpa [tmod, tget, heq, hne] using ih

/-! ## Instances, their functions and their queue pairs -/

theorem inst_modInst_self {s : State} {i : Nat} {x : Inst} (hx : s.inst i = some x) (f : Inst → Inst) :
    (s.modInst i f).inst i = some (f x) := by
  simp only [State.inst, modInst_insts, tget_tmod_self] at hx ⊢
  rw [hx, Option.map_some]

/-- The function of what is served here is found among `insts` (R378). -/
theorem modFn_of_inst {s : State} {i : Nat} {x : Inst} (hx : s.inst i = some x) (f : Inst → Inst) :
    s.modFn i f = s.modInst i f := by
  simp [State.modFn, hx]

/-- After a change of a pair its owner holds the pair changed. -/
theorem inst_modQ_self {s : State} {i : Nat} {x : Inst} (hx : s.inst i = some x) (q : Fin 4) (f : QPair → QPair) :
    ∃ y : Inst, (s.modQ i q f).inst i = some y ∧ y.qs[q] = f x.qs[q] :=
  ⟨_, inst_modInst_self hx _, by simp⟩

/-! ## Values brought into a range -/

theorem clamp_bounds {lo hi : Nat} (h : lo ≤ hi) (v : Nat) :
    lo ≤ clamp lo hi v ∧ clamp lo hi v ≤ hi ∧ (lo ≤ v → v ≤ hi → clamp lo hi v = v) := by
  unfold clamp
  omega

theorem ringLog_bounds (n : Nat) : 6 ≤ ringLog n ∧ ringLog n ≤ 15 ∧ (6 ≤ n → n < 16 → ringLog n = n) := by
  unfold ringLog
  split <;> omega

/-! ## Staged registers and requests (R50, R402, R408, R464, R465, R481, R487) -/

section
variable {s : State} (hs : s.serves = true)
include hs

/-- FRM_CTRL stages its two bits and its threshold brought into 85 to 100 (R50). -/
theorem exec_frmCtrl (v : Reg32) :
    exec (.frmCtrl v) s = .next { s with frame := { s.frame with
      stagedCtrl := some (v.getLsbD 0, v.getLsbD 1, clamp 85 100 (v.toNat / 4 % 128)) } } := by
  have hv : (v.extractLsb' 2 7).toNat = v.toNat / 4 % 128 := by simp [Nat.shiftRight_eq_div_pow]
  change execFrmCtrl v s = _
  simp [execFrmCtrl, ok, hs, hv]

theorem exec_frmLend (v : Reg32) :
    exec (.frmLend v) s = .next { s with frame := { s.frame with stagedLend := some (v.toNat % 65536) } } := by
  change execFrmLend v s = _
  simp [execFrmLend, ok, hs]

theorem exec_twnCtrl (v : Reg32) :
    exec (.twnCtrl v) s = .next { s with twin := { s.twin with stagedCtrl := some (v.getLsbD 0, v.getLsbD 1) } } := by
  change execTwnCtrl v s = _
  simp [execTwnCtrl, ok, hs]

theorem exec_fnCtrl (v : Reg32) : exec (.fnCtrl v) s = .next { s with host := { s.host with pfStaged := some (v.getLsbD 0) } } := by
  change execFnCtrl v s = _
  simp [execFnCtrl, ok, hs]

/-- PASS_SWAP_PERIOD stages 0, or its value brought into 3,600 to 2,592,000 (R402). -/
theorem exec_passSwapPeriod (v : Reg32) :
    exec (.passSwapPeriod v) s = .next { s with passes := { s.passes with
      periodStaged := some (if v = 0 then 0 else clamp 3600 2592000 v.toNat) } } := by
  change execPassSwapPeriod v s = _
  simp [execPassSwapPeriod, ok, hs]

theorem exec_passMac (m : BitVec 48) :
    exec (.passMac m) s = .next { s with net := { s.net with regStaged := (some m, s.net.regStaged.2) } } := by
  change execPassMac m s = _
  simp [execPassMac, ok, hs]

theorem exec_swapNow : exec .swapNow s = .next { s with passes := { s.passes with swapNow := true } } := by
  change execSwapNow s = _
  simp [execSwapNow, ok, hs]

theorem exec_clrLane : exec .clrLane s = .next { s with pmc := { s.pmc with clrLane := true } } := by
  change execClrLane s = _
  simp [execClrLane, ok, hs]

theorem exec_clrGlobal : exec .clrGlobal s = .next { s with pmc := { s.pmc with clrGlobal := true } } := by
  change execClrGlobal s = _
  simp [execClrGlobal, ok, hs]

theorem exec_pmcSmpHead (v : BitVec 16) : exec (.pmcSmpHead v) s = .next { s with pmc := { s.pmc with smpHead := v } } := by
  change execPmcSmpHead v s = _
  simp [execPmcSmpHead, ok, hs]

/-! ## A freeze of Strata (R456) -/

theorem exec_freeze_start (hf : s.strata.frozen = none) :
    exec .freeze s = .next { s with strata := { s.strata with frozen := some (s.frame.num, 0) } } := by
  change execFreeze s = _
  simp [execFreeze, ok, hs, hf]

/-- A second FREEZE changes nothing; THAW marks the freeze that runs. -/
theorem exec_freeze_thaw_running {z n : Nat} (hf : s.strata.frozen = some (z, n)) :
    exec .freeze s = .next s ∧ exec .thaw s = .next { s with strata := { s.strata with thaw := true } } := by
  change execFreeze s = _ ∧ execThaw s = _
  simp [execFreeze, execThaw, ok, hs, hf]

end

/-! ## The end of a freeze (R457) -/

/-- How a freeze that nobody thawed, with room in its side buffer, ends: by its age of 10,000 frames or not yet. -/
theorem freezeEnd_by_age {s : State} {z n : Nat} (hf : s.strata.frozen = some (z, n)) (ht : s.strata.thaw = false)
    (hside : s.strata.sideFull = []) : s.freezeEnd = if z + 10000 ≤ s.frame.num then some 2 else none := by
  simp [State.freezeEnd, hf, ht, hside]

/-- At the tail a freeze not thawed ends as it is due, if it is. -/
theorem exec_freezeExpiry {s : State} (hc : 11800 ≤ s.frame.cycle) (ht : s.strata.thaw = false) :
    exec .freezeExpiry s = .next (s.freezeEnd.elim s s.endFreezeOf) := by
  have htail : ¬ s.frame.cycle < 11800 := by omega
  change execFreezeExpiry s = _
  cases hend : s.freezeEnd <;> simp [execFreezeExpiry, ok, htail, ht, hend]

/-- At the tail a freeze 10,000 frames old ends: the waiting records, the side buffer and the 0x0002 record follow in order. -/
theorem exec_freezeExpiry_old {s : State} {z n : Nat} (hf : s.strata.frozen = some (z, n)) (hc : 11800 ≤ s.frame.cycle)
    (ht : s.strata.thaw = false) (hside : s.strata.sideFull = []) (hold : z + 10000 ≤ s.frame.num) :
    exec .freezeExpiry s = .next { s with strata := { s.strata with
      frozen := none, side := [], thaw := false
      buffer := s.strata.buffer ++ s.strata.side ++ [s.event 0x0002 false n (s.frame.num - z + 1) 2] } } := by
  rw [exec_freezeExpiry hc ht, freezeEnd_by_age hf ht hside, if_pos hold]
  simp [State.endFreezeOf, hf, hside]

/-- A younger one goes on. -/
theorem exec_freezeExpiry_young {s : State} {z n : Nat} (hf : s.strata.frozen = some (z, n)) (hc : 11800 ≤ s.frame.cycle)
    (ht : s.strata.thaw = false) (hside : s.strata.sideFull = []) (hyoung : s.frame.num < z + 10000) :
    exec .freezeExpiry s = .next s := by
  rw [exec_freezeExpiry hc ht, freezeEnd_by_age hf ht hside, if_neg (by omega)]
  rfl

/-! ## Performance counters (R465) -/

section
variable {s : State} (hs : s.serves = true)
include hs

theorem exec_pmcCounterLoWrite (c : CounterId) (v : Reg32) :
    exec (.pmcCounterLoWrite c v) s = .next (s.modCtr c (fun x => { x with loHeld := some v })) := by
  change execPmcCounterLoWrite c v s = _
  simp [execPmcCounterLoWrite, ok, hs]

theorem exec_pmcCounterHiWrite (c : CounterId) (v : Reg32) :
    exec (.pmcCounterHiWrite c v) s = .next (s.modCtr c (fun x => x.writeHi v)) := by
  change execPmcCounterHiWrite c v s = _
  simp [execPmcCounterHiWrite, ok, hs]

theorem exec_pmcCounterLoRead (c : CounterId) :
    exec (.pmcCounterLoRead c) s =
      .next ((s.modCtr c (fun x => { x with hiLatch := hiWord x.snap })).regRead ((s.ctr c).snap.1.toNat % 2 ^ 32)) := by
  change execPmcCounterLoRead c s = _
  simp [execPmcCounterLoRead, ok, hs]

end

/-- A global counter after a change of it. -/
theorem glob_modCtr_self (s : State) (g : Fin 64) (f : Ctr → Ctr) :
    tget (s.modCtr (.glob g) f).pmc.glob g.val = some (f ((tget s.pmc.glob g.val).getD {})) :=
  tget_tset_self ..

/-- A write of the high half sets bits [47:32]; the low half is the one held, else the counter's own (R465). -/
theorem writeHi_live (c : Ctr) (w : Reg32) :
    (c.writeHi w).live.toNat = (c.loHeld.getD (c.live.setWidth 32)).toNat + w.toNat % 65536 * 2 ^ 32 := by
  generalize hlo : c.loHeld.getD (c.live.setWidth 32) = lo
  have hlow : lo.toNat < 2 ^ 32 := lo.isLt
  simp only [Ctr.writeHi, hlo, BitVec.toNat_or, BitVec.toNat_shiftLeft, BitVec.toNat_setWidth, Nat.shiftLeft_eq]
  have hor := Nat.two_pow_add_eq_or_of_lt hlow (w.toNat % 65536)
  have hhigh : w.toNat % 2 ^ 16 % 2 ^ 48 * 2 ^ 32 % 2 ^ 48 = 2 ^ 32 * (w.toNat % 65536) := by omega
  have hfit : lo.toNat % 2 ^ 48 = lo.toNat := by omega
  rw [hhigh, hfit, ← hor]
  omega

/-- The high word shows bits [47:32] and SAT in bit 31. -/
theorem hiWord_toNat (v : BitVec 48 × Bool) : (hiWord v).toNat = v.1.toNat / 2 ^ 32 + (if v.2 then 2 ^ 31 else 0) := by
  obtain ⟨n, sat⟩ := v
  have hn := n.isLt
  have hhigh : ((n >>> 32).setWidth 32 : Reg32).toNat = n.toNat / 2 ^ 32 := by
    simp only [BitVec.toNat_setWidth, BitVec.toNat_ushiftRight, Nat.shiftRight_eq_div_pow]
    omega
  cases sat with
  | false => simp [hiWord, hhigh]
  | true =>
    have hor := Nat.two_pow_add_eq_or_of_lt (i := 31) (b := n.toNat / 2 ^ 32) (by omega) 1
    simp only [hiWord, if_true, BitVec.toNat_or, hhigh]
    rw [Nat.or_comm, Nat.add_comm]
    exact hor.symm

/-! ## Where a register write goes (R7) -/

/-- Below its request slots a function's register is no slot. -/
theorem slotOf_fn_below {off n : Nat} (i : Nat) (h : off < 0x2000) : slotOf (some i) off n = none := by
  simp [slotOf, h]

/-- Request slot k of a function at byte o. -/
theorem slotOf_fn_slot (i : Nat) (k o : Fin 16) :
    slotOf (some i) (0x2000 + 64 * k.val + 4 * o.val) 4 = some (i, k.val, 4 * o.val) := by
  have hk := k.isLt
  have ho := o.isLt
  have hin : ¬ (0x2000 + 64 * k.val + 4 * o.val < 0x2000 ∨ 0x2400 ≤ 0x2000 + 64 * k.val + 4 * o.val ∨
      64 < (0x2000 + 64 * k.val + 4 * o.val) % 64 + 4) := by omega
  simp only [slotOf, Option.isNone_some, Bool.false_eq_true, false_and, false_or, hin, if_false, Option.getD_some,
    Option.some.injEq, Prod.mk.injEq, true_and]
  omega

/-- Above the request slots and below the block at 0x800000 no register is a slot. -/
theorem slotOf_above {off n : Nat} (fn : Option Nat) (h1 : 0x2400 ≤ off) (h2 : off < 0x800000) : slotOf fn off n = none := by
  cases fn <;> simp [slotOf, h1, h2]

/-- In the physical function only the block at 0x800000 holds request slots. -/
theorem slotOf_pf {off n : Nat} (h : off < 0x800000 ∨ 0x802400 ≤ off) : slotOf none off n = none := by
  refine if_pos ?_
  simp only [Option.isNone_none, true_and]
  omega

/-- An aligned write of 32 bits outside the slots writes its register. -/
theorem exec_registerWrite_word {fn : Option Nat} {off : Nat} (s : State) (v : Word) (hslot : slotOf fn off 4 = none) (ha : off % 4 = 0) :
    exec (.registerWrite fn off 32 v) s = .next (s.write32 fn off (v.setWidth 32)) := by
  change execRegisterWrite fn off 32 v s = _
  simp [execRegisterWrite, ok, hslot, ha]

/-- A write outside the slots of another width, or off a multiple of its width, is discarded. -/
theorem exec_registerWrite_discarded {fn : Option Nat} {off w : Nat} (s : State) (v : Word) (hslot : slotOf fn off (w / 8) = none)
    (hbad : (w ≠ 32 ∧ w ≠ 64) ∨ off % 4 ≠ 0) : exec (.registerWrite fn off w v) s = .next (s.emit .discarded) := by
  have h32 : ¬ (w = 32 ∧ off % 4 = 0) := by omega
  have h64 : ¬ (w = 64 ∧ off % 8 = 0) := by omega
  change execRegisterWrite fn off w v s = _
  simp only [execRegisterWrite, ok, hslot, h32, h64, if_false]

/-- A write to a register of the physical function, outside the block at 0x800000. -/
theorem write32_pf {s : State} (hs : s.serves = true) {off : Nat} (hoff : off < 0x800000 ∨ 0x810000 ≤ off) (v : Reg32) :
    s.write32 none off v = s.writePf s.inUse off v := by
  have hout : ¬ (0x800000 ≤ off ∧ off < 0x810000) := by omega
  simp only [State.write32, hout, if_false, hs, if_true]

/-- A write to a pair's configuration of a function served here that is not DORMANT. -/
theorem writeFn_pair {s : State} {i : Nat} {x : Inst} (hs : s.serves = true) (hx : s.inst i = some x) (hd : x.state ≠ .dormant)
    (q : Fin 4) {r : Nat} (hr : r < 0x40) (v : Reg32) :
    s.writeFn i (0x1000 + 0x40 * q.val + r) v = s.modQ i q (fun y => y.writeReg r v) := by
  have hq := q.isLt
  have hrange : 0x1000 ≤ 0x1000 + 0x40 * q.val + r ∧ 0x1000 + 0x40 * q.val + r < 0x1100 := by omega
  have hpair : Fin.ofNat 4 ((0x1000 + 0x40 * q.val + r - 0x1000) / 0x40) = q := by
    apply Fin.ext
    simp only [Fin.ofNat]
    omega
  have hreg : (0x1000 + 0x40 * q.val + r) % 0x40 = r := by omega
  have hlive : s.dormantFn i = false := by simp [State.dormantFn, hx, hd]
  simp only [State.writeFn, hrange, and_self, if_true, hs, hlive, Bool.not_false, Bool.and_self, hpair, hreg]

/-- REGISTER_WRITE of a pair's register: the pair is left as its register's write leaves it. -/
theorem registerWrite_pair {s : State} {i : Nat} {x : Inst} (hs : s.serves = true) (hx : s.inst i = some x) (hd : x.state ≠ .dormant)
    (q : Fin 4) {r : Nat} (hr : r < 0x40) (ha : r % 4 = 0) (v : Word) :
    completes (.registerWrite (some i) (0x1000 + 0x40 * q.val + r) 32 v) s
      (fun t => ∃ y : Inst, t.inst i = some y ∧ y.qs[q] = x.qs[q].writeReg r (v.setWidth 32)) := by
  have hq := q.isLt
  have hexec := exec_registerWrite_word s v (slotOf_fn_below (off := 0x1000 + 0x40 * q.val + r) i (by omega)) (by omega)
  refine ⟨_, hexec, ?_⟩
  simp only [State.write32, writeFn_pair hs hx hd q hr]
  exact inst_modQ_self hx q _

/-! ## The registers of a queue pair (R69) -/

/-- RING_ERR clears on 1 and keeps on 0. -/
theorem writeReg_ringErr (q : QPair) (v : Reg32) : q.writeReg 0x20 v = { q with ringErr := q.ringErr && !v.getLsbD 2 } := by
  simp only [QPair.writeReg]
  cases v.getLsbD 2 with
  | false => simp
  | true => simp

/-- Q_SIZE is stored, brought into its range, while EN is 0 and the pair is quiesced. -/
theorem writeReg_size_stored {q : QPair} (he : q.en = false) (hq : q.quiesced = true) (v : Reg32) :
    q.writeReg 0x10 v = { q with sqLog := ringLog (v.toNat % 16), cqLog := ringLog (v.toNat / 256 % 16) } := by
  have hsq : (v.extractLsb' 0 4).toNat = v.toNat % 16 := by simp
  have hcq : (v.extractLsb' 8 4).toNat = v.toNat / 256 % 16 := by simp [Nat.shiftRight_eq_div_pow]
  have hfree : (!q.en && q.quiesced) = true := by simp [he, hq]
  simp only [QPair.writeReg, hfree, if_true, hsq, hcq]

/-- Q_SIZE stays while EN is 1 or the pair is not quiesced. -/
theorem writeReg_size_kept {q : QPair} (h : q.en = true ∨ q.quiesced = false) (v : Reg32) : q.writeReg 0x10 v = q := by
  have hfree : (!q.en && q.quiesced) = false := by
    rcases h with h | h <;> simp only [h, Bool.not_true, Bool.false_and, Bool.and_false]
  simp only [QPair.writeReg, hfree, Bool.false_eq_true, if_false]

/-- The low half of the ring base, where it is stored. -/
theorem writeReg_sqBaseLo {q : QPair} (he : q.en = false) (hq : q.quiesced = true) (v : Reg32) :
    q.writeReg 0x00 v = { q with sqBase := putHalf false q.sqBase (v &&& 0xFFFFF000) } := by
  simp [QPair.writeReg, he, hq]

/-- Q_CTRL sets EN and IRQ_EN and leaves ACTIVE. -/
theorem writeReg_ctrl (q : QPair) (v : Reg32) :
    (q.writeReg 0x14 v).en = v.getLsbD 0 ∧ (q.writeReg 0x14 v).irqEn = v.getLsbD 1 ∧ (q.writeReg 0x14 v).active = q.active := by
  simp only [QPair.writeReg, QPair.writeCtrl]
  split <;> exact ⟨rfl, rfl, rfl⟩

/-- Masking off the k low bits rounds down to a multiple of 2^k. -/
theorem toNat_and_allOnes_shiftLeft {w : Nat} (v : BitVec w) (k : Nat) :
    (v &&& BitVec.allOnes w <<< k).toNat = v.toNat / 2 ^ k * 2 ^ k := by
  have hmask : v &&& BitVec.allOnes w <<< k = v >>> k <<< k := by
    ext i hi
    by_cases h : i < k
    · simp [h]
    · have hki : k + (i - k) = i := by omega
      simp [h, hki, hi]
  have hle : v.toNat / 2 ^ k * 2 ^ k < 2 ^ w := Nat.lt_of_le_of_lt (Nat.div_mul_le_self ..) v.isLt
  rw [hmask, BitVec.toNat_shiftLeft, BitVec.toNat_ushiftRight, Nat.shiftRight_eq_div_pow, Nat.shiftLeft_eq, Nat.mod_eq_of_lt hle]

/-- A low half put into a 64-bit register leaves the high half. -/
theorem putHalf_low_toNat (old : Word) (v : Reg32) :
    (putHalf false old v).toNat = old.toNat / 2 ^ 32 * 2 ^ 32 + v.toNat := by
  have hv := v.isLt
  have hmask : (0xFFFFFFFF00000000 : Word) = BitVec.allOnes 64 <<< 32 := by decide
  have hfit : v.toNat % 2 ^ 64 = v.toNat := by omega
  simp only [putHalf, Bool.false_eq_true, if_false, hmask, BitVec.toNat_or, toNat_and_allOnes_shiftLeft, BitVec.toNat_setWidth, hfit]
  rw [Nat.mul_comm]
  exact (Nat.two_pow_add_eq_or_of_lt hv _).symm

/-- A ring base keeps bits [31:12] of what is written to its low half. -/
theorem page_toNat (v : Reg32) : (v &&& 0xFFFFF000).toNat = v.toNat / 4096 * 4096 := by
  have hmask : (0xFFFFF000 : Reg32) = BitVec.allOnes 32 <<< 12 := by decide
  exact (congrArg (fun m => (v &&& m).toNat) hmask).trans (toNat_and_allOnes_shiftLeft v 12)

/-! ## Request slots (R476) -/

theorem length_leBytes (n v : Nat) : (leBytes n v).length = n := by
  induction n generalizing v with
  | zero => rfl
  | succ n ih => simp [leBytes, ih]

/-- Byte j of a number spelled in n bytes. -/
theorem getD_leBytes {n j : Nat} (h : j < n) (v : Nat) : (leBytes n v).getD j 0 = BitVec.ofNat 8 (v / 256 ^ j) := by
  induction n generalizing v j with
  | zero => omega
  | succ n ih =>
    cases j with
    | zero => simp [leBytes]
    | succ j =>
      rw [leBytes, List.getD_cons_succ, ih (by omega), Nat.div_div_eq_div_mul, Nat.pow_succ, Nat.mul_comm]

theorem getD_padTo {n b : Nat} (h : b < n) (bs : Bytes) : (padTo n bs).getD b 0 = bs.getD b 0 := by
  simp only [padTo, zeros, List.getD_eq_getElem?_getD, List.getElem?_take, h, if_true, List.getElem?_append, List.getElem?_replicate]
  by_cases hb : b < bs.length
  · simp [hb]
  · have hz : b - bs.length < n := by omega
    simp [hb, hz]

/-- A slot after a write within it: the bytes written at their place, every other byte of the slot as before. -/
theorem getD_writeSlot (slot bs : Bytes) {off b : Nat} (hb : b < 64) (hoff : off + bs.length ≤ 64) :
    (writeSlot slot off bs).getD b 0 = if off ≤ b ∧ b < off + bs.length then bs.getD (b - off) 0 else slot.getD b 0 := by
  have hlen : (padTo 64 slot).length = 64 := by simp [padTo, zeros]
  rw [← getD_padTo hb slot]
  unfold writeSlot
  generalize padTo 64 slot = old at hlen
  have htake : (old.take off).length = off := by rw [List.length_take]; omega
  simp only [List.getD_eq_getElem?_getD, List.append_assoc]
  by_cases hlo : off ≤ b
  · rw [List.getElem?_append_right (by omega), htake]
    by_cases hin : b < off + bs.length
    · rw [List.getElem?_append_left (by omega), if_pos ⟨hlo, hin⟩]
    · have hpos : off + bs.length + (b - off - bs.length) = b := by omega
      rw [List.getElem?_append_right (by omega), if_neg (by omega), List.getElem?_drop, hpos]
  · rw [List.getElem?_append_left (by omega), if_neg (by omega), List.getElem?_take_of_lt (by omega)]

/-- A byte of a lane word by its number. -/
theorem byteOf_eq_extract (v : Word) (j : Nat) : BitVec.ofNat 8 (v.toNat / 256 ^ j) = v.extractLsb' (8 * j) 8 := by
  apply BitVec.eq_of_toNat_eq
  rw [BitVec.toNat_ofNat, BitVec.extractLsb'_toNat, Nat.shiftRight_eq_div_pow, Nat.pow_mul]

/-- REGISTER_WRITE of 32 bits into request slot k: the slot takes its four bytes (R476). -/
theorem registerWrite_slot {s : State} {i : Nat} {x : Inst} (hx : s.inst i = some x) (k o : Fin 16) (v : Word) :
    completes (.registerWrite (some i) (0x2000 + 64 * k.val + 4 * o.val) 32 v) s
      (fun t => ∃ y : Inst, t.inst i = some y ∧ y.req[k] = writeSlot x.req[k] (4 * o.val) (leBytes 4 v.toNat)) := by
  refine ⟨s.modInst i (fun y => { y with req := y.req.set k (writeSlot y.req[k] (4 * o.val) (leBytes 4 v.toNat)) k.isLt }),
    ?_, _, inst_modInst_self hx _, by simp⟩
  have hk := k.isLt
  change execRegisterWrite _ _ _ _ s = _
  simp only [execRegisterWrite, ok, Nat.reduceDiv, slotOf_fn_slot, modFn_of_inst hx, hk, dif_pos]
  rfl

/-! ## What REGISTER_WRITE does to each register -/

/-- The vector control words of the physical function (Table 13-2). -/
theorem writePf_mask (s : State) (p : Fin 2) {off : Nat} (h : 0x900000 ≤ off ∧ off < 0x900400 ∧ off % 16 = 12) (v : Reg32) :
    s.writePf p off v = s.maskPf p ((off - 0x900000) / 16) (v.getLsbD 0) := by
  unfold State.writePf
  rw [if_neg (by omega), if_neg (by omega), if_neg (by omega), if_neg (by omega), if_neg (by omega), if_neg (by omega),
    if_neg (by omega), if_neg (by omega), if_pos h]

section
variable {s : State} (hs : s.serves = true)
include hs

/-- FRM_STAT clears on 1 and keeps on 0 (R50). -/
theorem exec_registerWrite_frmStat (v : Word) :
    exec (.registerWrite none 0x18 32 v) s = .next { s with frame := { s.frame with
      shedSeen := s.frame.shedSeen && !v.getLsbD 0, alignWarn := s.frame.alignWarn && !v.getLsbD 1
      admitFull := s.frame.admitFull && !v.getLsbD 2, inflightFull := s.frame.inflightFull && !v.getLsbD 3
      fenceSeen := s.frame.fenceSeen && !v.getLsbD 4 } } := by
  rw [exec_registerWrite_word s v (slotOf_pf (by decide)) (by decide), write32_pf hs (by decide)]
  simp [State.writePf, State.clearFrm]

/-- EVR_STAT.CHECK_ERR clears on 1 and keeps on 0 (R465). -/
theorem exec_registerWrite_evrStat (v : Word) :
    exec (.registerWrite none 0x200000 32 v) s =
      .next { s with strata := { s.strata with checkErr := s.strata.checkErr && !v.getLsbD 7 } } := by
  rw [exec_registerWrite_word s v (slotOf_pf (by decide)) (by decide), write32_pf hs (by decide)]
  have hbit : (v.setWidth 32 : Reg32).getLsbD 7 = v.getLsbD 7 := by simp
  simp only [State.writePf, hbit]
  cases v.getLsbD 7 <;> simp

/-- A 1 in a vector control word masks the vector in the port in use (R76). -/
theorem exec_registerWrite_mask {p : Nat} (hp : p < 64) {v : Word} (hv : v.getLsbD 0 = true) :
    exec (.registerWrite none (0x900000 + 16 * p + 12) 32 v) s =
      .next (s.modPort s.inUse (fun x => { x with mask := x.mask ||| ((1 : BitVec 64) <<< p) })) := by
  have hbit : (v.setWidth 32 : Reg32).getLsbD 0 = true := by simpa using hv
  have hvector : (0x900000 + 16 * p + 12 - 0x900000) / 16 = p := by omega
  rw [exec_registerWrite_word s v (slotOf_pf (by omega)) (by omega), write32_pf hs (by omega), writePf_mask _ _ (by omega), hvector, hbit]
  rfl

end

section
variable {s : State} {i : Nat} {x : Inst} (hs : s.serves = true) (hx : s.inst i = some x) (hd : x.state ≠ .dormant) (q : Fin 4) (v : Word)
include hs hx hd

/-- RING_ERR of a pair clears on 1 and keeps on 0 (R69). -/
theorem registerWrite_ringErr : completes (.registerWrite (some i) (0x1000 + 0x40 * q.val + 0x20) 32 v) s (fun t => ∃ y : Inst, t.inst i = some y ∧
    y.qs[q] = { x.qs[q] with ringErr := x.qs[q].ringErr && !v.getLsbD 2 }) := by
  obtain ⟨t, ht, y, hy, hpair⟩ := registerWrite_pair hs hx hd q (r := 0x20) (by decide) (by decide) v
  rw [writeReg_ringErr] at hpair
  exact ⟨t, ht, y, hy, by simpa using hpair⟩

/-- Q_SIZE of a pair takes effect, brought into its range, only while EN is 0 and the pair is quiesced (R69). -/
theorem registerWrite_size : completes (.registerWrite (some i) (0x1000 + 0x40 * q.val + 0x10) 32 v) s (fun t => ∃ y : Inst, t.inst i = some y ∧
    (x.qs[q].en = true ∨ x.qs[q].quiesced = false → y.qs[q] = x.qs[q]) ∧
    (x.qs[q].en = false → x.qs[q].quiesced = true → y.qs[q] = { x.qs[q] with sqLog := y.qs[q].sqLog, cqLog := y.qs[q].cqLog } ∧
      6 ≤ y.qs[q].sqLog ∧ y.qs[q].sqLog ≤ 15 ∧ 6 ≤ y.qs[q].cqLog ∧ y.qs[q].cqLog ≤ 15 ∧ (6 ≤ v.toNat % 16 → y.qs[q].sqLog = v.toNat % 16))) := by
  obtain ⟨t, ht, y, hy, hpair⟩ := registerWrite_pair hs hx hd q (r := 0x10) (by decide) (by decide) v
  refine ⟨t, ht, y, hy, fun hheld => hpair.trans (writeReg_size_kept hheld _), fun he hq => ?_⟩
  have hlow : (v.setWidth 32).toNat % 16 = v.toNat % 16 := by rw [BitVec.toNat_setWidth]; omega
  obtain ⟨hsq6, hsq15, hsq⟩ := ringLog_bounds (v.toNat % 16)
  obtain ⟨hcq6, hcq15, -⟩ := ringLog_bounds ((v.setWidth 32).toNat / 256 % 16)
  rw [hpair, writeReg_size_stored he hq, hlow]
  exact ⟨rfl, hsq6, hsq15, hcq6, hcq15, fun h6 => hsq h6 (by omega)⟩

/-- The low half of a pair's ring base takes bits [31:12] while EN is 0 and the pair is quiesced (R69). -/
theorem registerWrite_sqBaseLo : completes (.registerWrite (some i) (0x1000 + 0x40 * q.val) 32 v) s (fun t => ∃ y : Inst, t.inst i = some y ∧
    (x.qs[q].en = false → x.qs[q].quiesced = true → y.qs[q] = { x.qs[q] with sqBase := y.qs[q].sqBase } ∧
      y.qs[q].sqBase.toNat % 2 ^ 32 = v.toNat % 2 ^ 32 / 4096 * 4096 ∧ y.qs[q].sqBase.toNat / 2 ^ 32 = x.qs[q].sqBase.toNat / 2 ^ 32)) := by
  obtain ⟨t, ht, y, hy, hpair⟩ := registerWrite_pair hs hx hd q (r := 0x00) (by decide) (by decide) v
  refine ⟨t, ht, y, hy, fun he hq => ?_⟩
  rw [writeReg_sqBaseLo he hq] at hpair
  have hbase : y.qs[q].sqBase.toNat = x.qs[q].sqBase.toNat / 2 ^ 32 * 2 ^ 32 + v.toNat % 2 ^ 32 / 4096 * 4096 := by
    rw [hpair, putHalf_low_toNat, page_toNat, BitVec.toNat_setWidth]
  refine ⟨by rw [hpair], ?_, ?_⟩ <;> omega

/-- Q_CTRL of a pair sets EN and IRQ_EN and leaves ACTIVE (R69). -/
theorem registerWrite_ctrl : completes (.registerWrite (some i) (0x1000 + 0x40 * q.val + 0x14) 32 v) s (fun t => ∃ y : Inst, t.inst i = some y ∧
    y.qs[q].en = v.getLsbD 0 ∧ y.qs[q].irqEn = v.getLsbD 1 ∧ y.qs[q].active = x.qs[q].active) := by
  obtain ⟨t, ht, y, hy, hpair⟩ := registerWrite_pair hs hx hd q (r := 0x14) (by decide) (by decide) v
  obtain ⟨hen, hirq, hactive⟩ := writeReg_ctrl x.qs[q] (v.setWidth 32)
  refine ⟨t, ht, y, hy, ?_⟩
  rw [hpair]
  exact ⟨by simpa using hen, by simpa using hirq, hactive⟩

end

/-- A request slot takes the four bytes written and keeps its others (R476). -/
theorem registerWrite_slotBytes {s : State} {i : Nat} {x : Inst} (hx : s.inst i = some x) (k o : Fin 16) (v : Word) :
    completes (.registerWrite (some i) (0x2000 + 64 * k.val + 4 * o.val) 32 v) s (fun t => ∃ y : Inst, t.inst i = some y ∧
      ∀ b, b < 64 → (y.req[k]).getD b 0 = if 4 * o.val ≤ b ∧ b < 4 * o.val + 4 then v.extractLsb' (8 * (b - 4 * o.val)) 8 else (x.req[k]).getD b 0) := by
  obtain ⟨t, ht, y, hy, hslot⟩ := registerWrite_slot hx k o v
  refine ⟨t, ht, y, hy, fun b hb => ?_⟩
  have ho := o.isLt
  have hlen := length_leBytes 4 v.toNat
  rw [hslot, getD_writeSlot _ _ hb (by omega), hlen]
  split
  · rw [getD_leBytes (by omega), byteOf_eq_extract]
  · rfl

/-! ## Accesses of a global counter (R465) -/

section
variable {s : State} (hs : s.serves = true) (g : Fin 64)
include hs

/-- A write of the low half is held; the high half then sets both halves and clears SAT. -/
theorem globCounter_writeLo_writeHi (v w : Reg32) :
    completes (.pmcCounterLoWrite (.glob g) v) s (fun t => t = { s with pmc := t.pmc } ∧
      tget t.pmc.glob g.val = some { (tget s.pmc.glob g.val).getD {} with loHeld := some v } ∧
      completes (.pmcCounterHiWrite (.glob g) w) t (fun u => u = { s with pmc := u.pmc } ∧
        ∃ d : Ctr, tget u.pmc.glob g.val = some d ∧ d.sat = false ∧ d.loHeld = none ∧ d.live.toNat = v.toNat + w.toNat % 65536 * 2 ^ 32)) := by
  have hheld := glob_modCtr_self s g (fun x => { x with loHeld := some v })
  refine ⟨_, exec_pmcCounterLoWrite hs _ v, rfl, hheld, _, exec_pmcCounterHiWrite (s := s.modCtr (.glob g) _) hs _ w, rfl, _,
    glob_modCtr_self _ g (fun x => x.writeHi w), rfl, rfl, ?_⟩
  rw [writeHi_live, hheld]
  rfl

/-- A write of the high half with no low half held sets bits [47:32] alone and clears SAT. -/
theorem globCounter_writeHi_alone (w : Reg32) (hnone : ((tget s.pmc.glob g.val).getD {}).loHeld = none) :
    completes (.pmcCounterHiWrite (.glob g) w) s (fun t => ∃ d : Ctr, tget t.pmc.glob g.val = some d ∧ d.sat = false ∧
      d.live.toNat = ((tget s.pmc.glob g.val).getD {}).live.toNat % 2 ^ 32 + w.toNat % 65536 * 2 ^ 32) := by
  refine ⟨_, exec_pmcCounterHiWrite hs _ w, _, glob_modCtr_self s g (fun x => x.writeHi w), rfl, ?_⟩
  rw [writeHi_live, hnone, Option.getD_none, BitVec.toNat_setWidth]

/-- A read of the low half puts out the snapshot's and latches its high half. -/
theorem globCounter_readLo :
    completes (.pmcCounterLoRead (.glob g)) s (fun t =>
      t = { s with pmc := t.pmc, out := s.out ++ [.regData (BitVec.ofNat 64 (((tget s.pmc.glob g.val).getD {}).snap.1.toNat % 2 ^ 32))] } ∧
      ∃ d : Ctr, tget t.pmc.glob g.val = some d ∧ d = { (tget s.pmc.glob g.val).getD {} with hiLatch := d.hiLatch } ∧
        d.hiLatch.toNat = ((tget s.pmc.glob g.val).getD {}).snap.1.toNat / 2 ^ 32 + (if ((tget s.pmc.glob g.val).getD {}).snap.2 then 2 ^ 31 else 0)) :=
  have hlatched := glob_modCtr_self s g (fun x => { x with hiLatch := hiWord x.snap })
  ⟨_, exec_pmcCounterLoRead hs _, rfl, _, hlatched, rfl, hiWord_toNat _⟩

end

/-! ## The settled statement -/

/-- FRM_CTRL and PASS_SWAP_PERIOD stage a value within their bounds, and nothing else changes. -/
theorem stagedRegisters_in_bounds {s : State} (hs : s.serves = true) (v : Reg32) :
    completes (.frmCtrl v) s (fun t => t = { s with frame := { s.frame with stagedCtrl := t.frame.stagedCtrl } } ∧
      ∃ n, t.frame.stagedCtrl = some (v.getLsbD 0, v.getLsbD 1, n) ∧
        85 ≤ n ∧ n ≤ 100 ∧ (85 ≤ v.toNat / 4 % 128 → v.toNat / 4 % 128 ≤ 100 → n = v.toNat / 4 % 128)) ∧
    completes (.passSwapPeriod v) s (fun t => t = { s with passes := { s.passes with periodStaged := t.passes.periodStaged } } ∧
      (v = 0 → t.passes.periodStaged = some 0) ∧ (v ≠ 0 → ∃ n, t.passes.periodStaged = some n ∧ 3600 ≤ n ∧ n ≤ 2592000 ∧
        (3600 ≤ v.toNat → v.toNat ≤ 2592000 → n = v.toNat))) := by
  have hthreshold := clamp_bounds (by decide : 85 ≤ 100) (v.toNat / 4 % 128)
  have hperiod := clamp_bounds (by decide : 3600 ≤ 2592000) v.toNat
  refine ⟨⟨_, exec_frmCtrl hs v, rfl, _, rfl, hthreshold⟩, _, exec_passSwapPeriod hs v, rfl, fun h0 => ?_, fun h0 => ⟨_, ?_, hperiod⟩⟩
  · simp only [h0, if_true]
  · simp only [h0, if_false]

/-- Settles O37: each command by its own equation once functions are served, the reads that latch and the discarded writes in every state. -/
theorem hostRegistersReadStageAndClear : Obligations.HostRegistersReadStageAndClear := by
  intro s
  refine ⟨rfl, rfl, fun (hs : s.serves = true) => ?served,
    fun fn off w v h1 h2 hbad => exec_registerWrite_discarded s v (slotOf_above fn h1 h2) hbad⟩
  refine ⟨fun v => ?staged, exec_passMac hs, exec_swapNow hs, exec_freeze_start hs, fun z n hf => ?freeze, fun g v w => ?counters,
    exec_clrLane hs, exec_clrGlobal hs, exec_pmcSmpHead hs, fun v => ⟨_, exec_registerWrite_frmStat hs v, rfl, rfl⟩,
    fun v => ⟨_, exec_registerWrite_evrStat hs v, rfl⟩, fun i x q v _ hx hd => ?function,
    fun p v hp hv => ⟨_, exec_registerWrite_mask hs hp hv, Vector.getElem_set_self ..⟩⟩
  case staged =>
    obtain ⟨hctrl, hperiod⟩ := stagedRegisters_in_bounds hs v
    exact ⟨hctrl, exec_frmLend hs v, exec_twnCtrl hs v, exec_fnCtrl hs v, hperiod⟩
  case freeze =>
    obtain ⟨hagain, hthaw⟩ := exec_freeze_thaw_running hs hf
    exact ⟨hagain, hthaw, fun hc ht hside => ⟨exec_freezeExpiry_old hf hc ht hside, exec_freezeExpiry_young hf hc ht hside⟩⟩
  case counters =>
    exact ⟨globCounter_writeLo_writeHi hs g v w, globCounter_writeHi_alone hs g w, globCounter_readLo hs g⟩
  case function =>
    exact ⟨registerWrite_ringErr hs hx hd q v, registerWrite_size hs hx hd q v, registerWrite_sqBaseLo hs hx hd q v,
      registerWrite_ctrl hs hx hd q v, fun k o => registerWrite_slotBytes hx k o v⟩

end Sys2Proof.Machine
end
